-- ==== Sys2Proof/Word.lean ====
section
/-!
DEFINITION. The word types of the Siryth 8400 and their plainest arithmetic (R4: little-endian, bit 0 least significant).
-/
namespace Sys2Proof

abbrev Byte := BitVec 8
abbrev W32 := BitVec 32
abbrev W64 := BitVec 64

/-- A set of lanes of one gang (at most 128, R38): bit L is lane L. -/
abbrev Lanes := BitVec 128

/-- A set of slices of one gang (at most 16, R38). -/
abbrev Slices := BitVec 16

end Sys2Proof
end

