-- ==== Sys2Proof/Syntax.lean ====
section
/-!
DEFINITION. The syntax of Ghenal instructions and of the machine's transitions: one constructor of `Instr` per row of the
opcode table. An instruction carries the fields of its format (R73, R230, R249, R281, R307); a transition carries the
agent it concerns and any input from outside the machine. An unused field holds the value its zero encoding has (R75).
-/
namespace Sys2Proof

/-- TYPE (R70). -/
inductive Ty
  | b8 | b16 | b32 | b64 | i8 | i16 | i32 | i64 | n8 | n16 | n32 | n64 | f16 | bf16 | f32 | f64
deriving DecidableEq, Repr, Inhabited

/-- DTYPE and STYPE of the conversions (R72). -/
inductive CTy
  | i4 | i8 | i16 | i32 | i64 | n8 | n16 | n32 | n64 | f64 | f32 | f16 | bf16 | e4m3 | e5m2 | e2m1 | e8m0 | o4
deriving DecidableEq, Repr, Inhabited

/-- RND (R70). -/
inductive Rnd
  | rne | rtz | rdn | rup
deriving DecidableEq, Repr, Inhabited

/-- COND (R70). -/
inductive Cond
  | z | nz
deriving DecidableEq, Repr, Inhabited

/-- SCOPE (R70). -/
inductive Scope
  | block | cluster | device | domain
deriving DecidableEq, Repr, Inhabited

/-- LVL (R70). -/
inductive Lvl
  | gang | block | cluster | device | domain
deriving DecidableEq, Repr, Inhabited

/-- Engine class of a clause (R11, R63). -/
inductive Cls
  | press | matrix | request | debug | compositor
deriving DecidableEq, Repr, Inhabited

/-- The special registers (R68), in the order of their codes 0xC0 to 0xD1. -/
inductive SReg
  | laneid | gangid | blockid | clusterid | role | measure | gangmask | launchw | coreid
  | dieid | cycles | astatus | tvec | tcause | tval | tret | pendmask | crank
deriving DecidableEq, Repr, Inhabited

/-- An operand code (R66, R67). -/
inductive Opd
  | v (n : BitVec 8)
  | s (n : BitVec 9)
  | imm (i : BitVec 7)
  | em
  | m (n : BitVec 4)
  | sr (r : SReg)
deriving DecidableEq, Repr, Inhabited

/-- MASK (R70). -/
inductive MaskSel
  | em
  | m (n : BitVec 4)
deriving DecidableEq, Repr, Inhabited

/-- Format A3 (R73). -/
structure FmtA3 where
  (dst a b c : Opd)
  (ty : Ty)
  (rnd : Rnd)
  (sat : Bool)
  (mask : MaskSel)
  (gang : Bool)
  (keep : Bool)
deriving DecidableEq, Repr, Inhabited

/-- Format F2 (R73). -/
structure FmtF2 where
  (dst a b : Opd)
  (ty : Ty)
  (rnd : Rnd)
  (sat : Bool)
  (mask : MaskSel)
  (gang : Bool)
  (keep : Bool)
deriving DecidableEq, Repr, Inhabited

/-- Format A2 (R73). -/
structure FmtA2 where
  (dst a b : Opd)
  (ty : Ty)
  (sat : Bool)
  (mask : MaskSel)
  (gang : Bool)
deriving DecidableEq, Repr, Inhabited

/-- Format A2S (R73). -/
structure FmtA2S where
  (dst a b : Opd)
  (sel : BitVec 6)
  (ty : Ty)
  (sat : Bool)
  (mask : MaskSel)
  (gang : Bool)
deriving DecidableEq, Repr, Inhabited

/-- Format A3S (R73). -/
structure FmtA3S where
  (dst a b c : Opd)
  (ty : Ty)
  (sel : BitVec 4)
  (mask : MaskSel)
  (gang : Bool)
deriving DecidableEq, Repr, Inhabited

/-- Format CV (R73). -/
structure FmtCV where
  (dst a b : Opd)
  (dty sty : CTy)
  (rnd : Rnd)
  (sat : Bool)
  (mask : MaskSel)
  (gang : Bool)
deriving DecidableEq, Repr, Inhabited

/-- Format S (R73). -/
structure FmtS where
  (dst a b c : Opd)
  (ty : Ty)
  (sel : BitVec 6)
deriving DecidableEq, Repr, Inhabited

/-- Format I (R73). -/
structure FmtI where
  (dst : Opd)
  (mask : MaskSel)
  (gang : Bool)
  (ty : Ty)
  (imm : BitVec 32)
deriving DecidableEq, Repr, Inhabited

/-- Format B (R73). -/
structure FmtB where
  (a : Opd)
  (mask : MaskSel)
  (cond : Cond)
  (target : BitVec 24)
deriving DecidableEq, Repr, Inhabited

/-- Format BL (R73). -/
structure FmtBL where
  (dst : Opd)
  (target : BitVec 24)
deriving DecidableEq, Repr, Inhabited

/-- Format K (R73). -/
structure FmtK where
  (a : Opd)
  (gang : Bool)
  (imm : BitVec 32)
deriving DecidableEq, Repr, Inhabited

/-- Format M (R73). -/
structure FmtM where
  (dst : Opd)
  (base : BitVec 9)
  (voff : Option (BitVec 8))
  (ty : Ty)
  (mask : MaskSel)
  (gang : Bool)
  (imm : BitVec 16)
deriving DecidableEq, Repr, Inhabited

/-- Format MA (R73). -/
structure FmtMA where
  (dst : Opd)
  (base : BitVec 9)
  (voff : Option (BitVec 8))
  (b : Opd)
  (ty : Ty)
  (sel : BitVec 4)
  (scope : Scope)
  (mask : MaskSel)
deriving DecidableEq, Repr, Inhabited

/-- Format Y (R73). -/
structure FmtY where
  (dst a b : Opd)
  (sel : BitVec 6)
  (lvl : Lvl)
deriving DecidableEq, Repr, Inhabited

/-- Format MX (R230). -/
structure FmtMX where
  (dst a b c e : Opd)
  (sat reuse : Bool)
deriving DecidableEq, Repr, Inhabited

/-- Format RQ (R249). -/
structure FmtRQ where
  (dst a b c : Opd)
  (sel : BitVec 6)
  (bar : BitVec 5)
  (bv rel : Bool)
deriving DecidableEq, Repr, Inhabited

/-- Format Q (the layout shared by MQ (R230), CP (R281) and DB (R307)). -/
structure FmtQ where
  (dst a b c : Opd)
  (sel : BitVec 6)
deriving DecidableEq, Repr, Inhabited

/-- What an ATS completion says of a page (R205, R206): the frame's address, the page's size as a power of two
(12, 21 or 30), whether the frame lies in this device's DRAM, and the rights; or no translation. -/
inductive AtsAnswer
  | none
  | page (log2 : Nat) (own : Bool) (frame : Nat) (r w : Bool)
deriving DecidableEq, Repr, Inhabited

/-- The outcome of a page request (R207). -/
inductive PriAnswer
  | success | invalid | failure
deriving DecidableEq, Repr, Inhabited

/-- The instructions and transitions of the 8400, one constructor per row of the opcode table. -/
inductive Instr
  /-- CLAUSE_START (R54). -/
  | clauseStart (core part port : Nat)
  /-- MERGE (R48). -/
  | merge (gang : Nat)
  /-- JOIN_RELEASE (R49). -/
  | joinRelease (gang : Nat)
  /-- COLLECTIVE_WAIT_END (R50). -/
  | collectiveWaitEnd (gang : Nat)
  /-- BUDGET_REFILL (R55). -/
  | budgetRefill (core part : Nat)
  /-- TEMP_REFRESH (R56). -/
  | tempRefresh (core temp : Nat)
  /-- BLOCK_PLACE (R56). -/
  | blockPlace (die : Nat)
  /-- ROOM_ADVERTISE (R57). -/
  | roomAdvertise (die : Nat)
  /-- BLOCK_PASS (R57). -/
  | blockPass (die : Nat)
  /-- QUANTUM_EXPIRY (R58). -/
  | quantumExpiry (grid : Nat)
  /-- DUE_CLOCK (R60). -/
  | dueClock (root : Nat)
  /-- RESOLVE (R161). -/
  | resolve (gang op : Nat)
  /-- GRANT (R168). -/
  | grant (gang : Nat)
  /-- ATOMIC (R175). -/
  | atomic (gang op addr : Nat)
  /-- CABORT (R172). -/
  | cabort (lvl : Lvl) (uid : Nat)
  /-- LAND (R188). -/
  | land (gang op : Nat)
  /-- PHASE (R183). -/
  | phase (owner bar : Nat)
  /-- DELIVER (R194). -/
  | deliver (src dst lane : Nat)
  /-- GANG_RETIRE (R188). -/
  | gangRetire (gang : Nat)
  /-- BLOCK_RETIRE (R162). -/
  | blockRetire (block : Nat)
  /-- CLUSTER_RETIRE (R162). -/
  | clusterRetire (cluster : Nat)
  /-- BLOCK_COMPLETION_EVENT (R41). -/
  | blockCompletionEvent (block : Nat)
  /-- TRAP_ENTRY (R197). -/
  | trapEntry (gang : Nat)
  /-- ATS_COMPLETION (R206): of a request for reading, or for writing too, and its answer. -/
  | atsCompletion (pasid page : Nat) (ans : Bool × AtsAnswer)
  /-- PRI_RESPONSE (R207): of a request for reading, or for writing too, and its answer. -/
  | priResponse (pasid page : Nat) (ans : Bool × PriAnswer)
  /-- INVALIDATION (R208). -/
  | invalidation (pasid lo hi : Nat)
  /-- INVALIDATION_COMPLETION (R208). -/
  | invalidationCompletion (pasid lo hi : Nat)
  /-- PREEMPT_REQUEST (R210). -/
  | preemptRequest (pasid : Nat) (queue : Option Nat)
  /-- CONTEXT_SAVE (R211). -/
  | contextSave (block : Nat)
  /-- BLOCK_RESTORE (R213). -/
  | blockRestore (die : Nat)
  /-- MSTART (R246). -/
  | mstart (core part : Nat)
  /-- RQMOVE (R255). -/
  | rqmove (core req unit : Nat)
  /-- RQSIGNAL (R256). -/
  | rqsignal (core req : Nat)
  /-- RQLIST_BLOCK_FETCH (R258). -/
  | rqlistBlockFetch (core : Nat)
  /-- KICK (R271). -/
  | kick (queue : Nat) (x : BitVec 64)
  /-- PACKET_COMPLETE (R263). -/
  | packetComplete (queue idx : Nat)
  /-- PENDSCAN_WAKE (R283). -/
  | pendscanWake (comp : Nat)
  /-- SIGNAL_RECHECK (R274). -/
  | signalRecheck (comp : Nat)
  /-- BANK_SWITCH (R280). -/
  | bankSwitch (comp : Nat)
  /-- FW_VERIFY_DONE (R323). -/
  | fwVerifyDone (unchanged : Bool)
  /-- UNLOCK_VERIFY_DONE (R323). -/
  | unlockVerifyDone (unchanged : Bool)
  /-- PULL (R290). -/
  | pull (gang : Nat)
  /-- GUEST_RETURN (R291). -/
  | guestReturn (gang : Nat)
  /-- ARRIVAL_MESSAGE (R292). -/
  | arrivalMessage (gang : Nat)
  /-- RELEASE_MESSAGE (R292). -/
  | releaseMessage (gang : Nat)
  /-- CLAUSE_COUNT_MESSAGE (R294). -/
  | clauseCountMessage (guest gang : Nat)
  /-- DEBUG_HANDLER_ENTRY (R296). -/
  | debugHandlerEntry (core : Nat)
  /-- TRACE_DRAIN (R299). -/
  | traceDrain (core : Nat)
  /-- FRAME_ARRIVAL (R327). -/
  | frameArrival (port : Nat) (bytes : List (BitVec 8)) (fcsOk : Bool)
  /-- FRAME_PUBLISH (R331). -/
  | framePublish (port : Nat)
  /-- PORT_DOWN (R326). -/
  | portDown (port : Nat)
  /-- LINK_RETRY_TIMEOUT (R326). -/
  | linkRetryTimeout (dev : Nat)
  /-- DOMAIN_TABLE_INSTALL (R324). -/
  | domainTableInstall
  /-- POWER_ON_START (R333). -/
  | powerOnStart (fails : List Nat)
  /-- FUNCTION_LEVEL_RESET (R318). -/
  | functionLevelReset
  /-- CORRECTED_ERROR (R338). -/
  | correctedError (unit : Nat)
  /-- ERROR_WINDOW (R338). -/
  | errorWindow (owner : Nat)
  /-- THERMAL_LIMIT (R339). -/
  | thermalLimit (die : Nat)
  /-- THERMAL_STOP (R339). -/
  | thermalStop (die : Nat)
  /-- FEATACC_WRITE (R320). -/
  | featAccWrite (x : BitVec 128)
  /-- REGISTER_QUEUE (R322). -/
  | registerQueue (tag : BitVec 8) (arg : BitVec 48)
  /-- TEARDOWN_PASID (R279). -/
  | teardownPasid (tag : BitVec 8) (arg : BitVec 48)
  /-- DESTROY_CTX (R279). -/
  | destroyCtx (tag : BitVec 8) (arg : BitVec 48)
  /-- PREEMPT (R322). -/
  | preempt (tag : BitVec 8) (arg : BitVec 48)
  /-- LOAD_FW (R280). -/
  | loadFw (tag : BitVec 8) (arg : BitVec 48)
  /-- KEYSLOT_WRITE (R337). -/
  | keyslotWrite (tag : BitVec 8) (arg : BitVec 48) (unchanged : Bool)
  /-- UNLOCK (R305). -/
  | unlock (tag : BitVec 8) (arg : BitVec 48)
  /-- DOMAIN_SET (R324). -/
  | domainSet (tag : BitVec 8) (arg : BitVec 48)
  /-- STREAM_SET (R330). -/
  | streamSet (tag : BitVec 8) (arg : BitVec 48)
  /-- STREAM_MAP (R329). -/
  | streamMap (tag : BitVec 8) (arg : BitVec 48)
  /-- START_CLEAR (R334). -/
  | startClear (tag : BitVec 8) (arg : BitVec 48)
  /-- HCMD_UNKNOWN_OP (R322). -/
  | hcmdUnknownOp (op tag : BitVec 8) (arg : BitVec 48)
  /-- HCMD_IGNORED (R321). -/
  | hcmdIgnored (w : BitVec 64)
  /-- COMMAND_DONE (R321). -/
  | commandDone
  /-- DBGATTN_WRITE (R316). -/
  | dbgAttnWrite (w : BitVec 64)
  /-- DBGREVOKE_WRITE (R306). -/
  | dbgRevokeWrite (w : BitVec 64)
  /-- TRIGGER_REGISTER_WRITE (R316). -/
  | triggerRegisterWrite (core trig reg : Nat) (w : BitVec 64)
  /-- PTPSEC_READ (R328). -/
  | ptpsecRead (port : Nat)
  /-- PTPADJ_WRITE (R328). -/
  | ptpadjWrite (port : Nat) (w : BitVec 64)
  /-- REGISTER_WRITE (R5). -/
  | registerWrite (off : Nat) (w : BitVec 64)
  /-- SMOV (R107). -/
  | smov (f : FmtS)
  /-- SMOVI (R108). -/
  | smovi (f : FmtI)
  /-- SADD (R107). -/
  | sadd (f : FmtS)
  /-- SSUB (R107). -/
  | ssub (f : FmtS)
  /-- SMUL (R107). -/
  | smul (f : FmtS)
  /-- SMULH (R107). -/
  | smulh (f : FmtS)
  /-- SAND (R107). -/
  | sand (f : FmtS)
  /-- SOR (R107). -/
  | sor (f : FmtS)
  /-- SXOR (R107). -/
  | sxor (f : FmtS)
  /-- SSHL (R107). -/
  | sshl (f : FmtS)
  /-- SSHR (R107). -/
  | sshr (f : FmtS)
  /-- SSRA (R107). -/
  | ssra (f : FmtS)
  /-- SMIN (R107). -/
  | smin (f : FmtS)
  /-- SMAX (R107). -/
  | smax (f : FmtS)
  /-- SCMP (R109). -/
  | scmp (f : FmtS)
  /-- SSEL (R107). -/
  | ssel (f : FmtS)
  /-- SCLZ (R107). -/
  | sclz (f : FmtS)
  /-- SPOPC (R107). -/
  | spopc (f : FmtS)
  /-- SBFE (R110). -/
  | sbfe (f : FmtS)
  /-- SBFI (R110). -/
  | sbfi (f : FmtS)
  /-- BRA (R114). -/
  | bra (f : FmtB)
  /-- BRU (R114). -/
  | bru (f : FmtB)
  /-- BRV (R115). -/
  | brv (f : FmtB)
  /-- BRAU (R115). -/
  | brau (f : FmtB)
  /-- SKIP (R120). -/
  | skip (f : FmtK)
  /-- CALL (R119). -/
  | call (f : FmtBL)
  /-- RET (R119). -/
  | ret (f : FmtB)
  /-- JOIN (R117). -/
  | join (f : FmtB)
  /-- GANG_ALL (R121). -/
  | gangAll (f : FmtK)
  /-- EXIT (R121). -/
  | exit (f : FmtK)
  /-- TRAP (R121). -/
  | trap (f : FmtK)
  /-- YIELD (R122). -/
  | yield (f : FmtB)
  /-- NOP (R121). -/
  | nop (f : FmtK)
  /-- MAND (R112). -/
  | mand (f : FmtS)
  /-- MOR (R112). -/
  | mor (f : FmtS)
  /-- MXOR (R112). -/
  | mxor (f : FmtS)
  /-- MNOT (R112). -/
  | mnot (f : FmtS)
  /-- MMOV (R112). -/
  | mmov (f : FmtS)
  /-- MPOPC (R112). -/
  | mpopc (f : FmtS)
  /-- MFIRST (R112). -/
  | mfirst (f : FmtS)
  /-- MEASURE (R123). -/
  | measure (f : FmtS)
  /-- SRD (R123). -/
  | srd (f : FmtS)
  /-- SWR (R124). -/
  | swr (f : FmtS)
  /-- VADD (R133). -/
  | vadd (f : FmtA2)
  /-- VSUB (R133). -/
  | vsub (f : FmtA2)
  /-- VMUL (R133). -/
  | vmul (f : FmtA2)
  /-- VMULH (R133). -/
  | vmulh (f : FmtA2)
  /-- VMAD (R133). -/
  | vmad (f : FmtA3)
  /-- VAND (R133). -/
  | vand (f : FmtA2)
  /-- VOR (R133). -/
  | vor (f : FmtA2)
  /-- VXOR (R133). -/
  | vxor (f : FmtA2)
  /-- VNOT (R133). -/
  | vnot (f : FmtA2)
  /-- VSHL (R133). -/
  | vshl (f : FmtA2)
  /-- VSHR (R133). -/
  | vshr (f : FmtA2)
  /-- VSRA (R133). -/
  | vsra (f : FmtA2)
  /-- VMIN (R133). -/
  | vmin (f : FmtA2)
  /-- VMAX (R133). -/
  | vmax (f : FmtA2)
  /-- VABS (R133). -/
  | vabs (f : FmtA2)
  /-- VCLZ (R133). -/
  | vclz (f : FmtA2)
  /-- VPOPC (R133). -/
  | vpopc (f : FmtA2)
  /-- VBFE (R133). -/
  | vbfe (f : FmtA3)
  /-- VBFI (R133). -/
  | vbfi (f : FmtA3)
  /-- VSEL (R133). -/
  | vsel (f : FmtA3)
  /-- VCMP (R134). -/
  | vcmp (f : FmtA2S)
  /-- VMOV (R133). -/
  | vmov (f : FmtA2)
  /-- VMOVI (R135). -/
  | vmovi (f : FmtI)
  /-- VADD2 (R137). -/
  | vadd2 (f : FmtA2)
  /-- VSUB2 (R137). -/
  | vsub2 (f : FmtA2)
  /-- VMAC2 (R137). -/
  | vmac2 (f : FmtA3)
  /-- VDOT4 (R137). -/
  | vdot4 (f : FmtA3)
  /-- VQADD (R137). -/
  | vqadd (f : FmtA2)
  /-- VQSUB (R137). -/
  | vqsub (f : FmtA2)
  /-- VSHRR (R137). -/
  | vshrr (f : FmtA2)
  /-- VPACK (R138). -/
  | vpack (f : FmtA2)
  /-- VUNPACK (R138). -/
  | vunpack (f : FmtA2S)
  /-- VFADD (R140). -/
  | vfadd (f : FmtF2)
  /-- VFSUB (R140). -/
  | vfsub (f : FmtF2)
  /-- VFMUL (R140). -/
  | vfmul (f : FmtF2)
  /-- VFMA (R140). -/
  | vfma (f : FmtA3)
  /-- VFMIN (R95). -/
  | vfmin (f : FmtF2)
  /-- VFMAX (R95). -/
  | vfmax (f : FmtF2)
  /-- VFRCP (R140). -/
  | vfrcp (f : FmtF2)
  /-- VFRSQ (R140). -/
  | vfrsq (f : FmtF2)
  /-- VFSQRT (R140). -/
  | vfsqrt (f : FmtF2)
  /-- VFEXP2 (R140). -/
  | vfexp2 (f : FmtF2)
  /-- VFLOG2 (R140). -/
  | vflog2 (f : FmtF2)
  /-- VFCMP (R141). -/
  | vfcmp (f : FmtA2S)
  /-- VFCLASS (R141). -/
  | vfclass (f : FmtA2)
  /-- VCVT (R144). -/
  | vcvt (f : FmtCV)
  /-- VFCVT (R144). -/
  | vfcvt (f : FmtCV)
  /-- VFTOI (R144). -/
  | vftoi (f : FmtCV)
  /-- VITOF (R144). -/
  | vitof (f : FmtCV)
  /-- VSHFL (R147). -/
  | vshfl (f : FmtA3S)
  /-- VSHFLX (R147). -/
  | vshflx (f : FmtA3S)
  /-- VSLIDE (R148). -/
  | vslide (f : FmtA3S)
  /-- VBCAST (R149). -/
  | vbcast (f : FmtA3S)
  /-- VVOTE (R150). -/
  | vvote (f : FmtA2S)
  /-- VREDUCE (R151). -/
  | vreduce (f : FmtA2S)
  /-- VSCAN (R151). -/
  | vscan (f : FmtA2S)
  /-- LD (R164). -/
  | ld (f : FmtM)
  /-- ST (R164). -/
  | st (f : FmtM)
  /-- LDS (R165). -/
  | lds (f : FmtM)
  /-- STS (R165). -/
  | sts (f : FmtM)
  /-- PREFETCH (R166). -/
  | prefetch (f : FmtM)
  /-- ATOM (R176). -/
  | atom (f : FmtMA)
  /-- ATOMF (R177). -/
  | atomf (f : FmtMA)
  /-- ATOMCAS (R178). -/
  | atomcas (f : FmtMA)
  /-- COMMIT (R168). -/
  | commit (f : FmtY)
  /-- COMMITC (R171). -/
  | commitc (f : FmtY)
  /-- MARK (R170). -/
  | mark (f : FmtY)
  /-- ABORT (R172). -/
  | abort (f : FmtY)
  /-- WAITCNT (R180). -/
  | waitcnt (f : FmtY)
  /-- BARA (R183). -/
  | bara (f : FmtY)
  /-- BARW (R183). -/
  | barw (f : FmtY)
  /-- BARS (R183). -/
  | bars (f : FmtY)
  /-- BARX (R184). -/
  | barx (f : FmtY)
  /-- VRALLOC (R204). -/
  | vralloc (f : FmtS)
  /-- RTE (R200). -/
  | rte (f : FmtK)
  /-- LAUNCH (R216). -/
  | launch (f : FmtS)
  /-- SIGOP (R219). -/
  | sigop (f : FmtS)
  /-- MMA (R238). -/
  | mma (f : FmtMX)
  /-- MMAS (R239). -/
  | mmas (f : FmtMX)
  /-- MMAC (R240). -/
  | mmac (f : FmtMX)
  /-- MMAG (R241). -/
  | mmag (f : FmtMX)
  /-- QHIST (R242). -/
  | qhist (f : FmtQ)
  /-- QSCALE (R243). -/
  | qscale (f : FmtQ)
  /-- QCVT (R244). -/
  | qcvt (f : FmtQ)
  /-- QCLR (R242). -/
  | qclr (f : FmtQ)
  /-- RQCOPY (R253). -/
  | rqcopy (f : FmtRQ)
  /-- RQFILL (R253). -/
  | rqfill (f : FmtRQ)
  /-- RQGATHER (R253). -/
  | rqgather (f : FmtRQ)
  /-- RQSCATTER (R253). -/
  | rqscatter (f : FmtRQ)
  /-- RQPUTS (R256). -/
  | rqputs (f : FmtRQ)
  /-- RQRED (R253). -/
  | rqred (f : FmtRQ)
  /-- RQLIST (R258). -/
  | rqlist (f : FmtRQ)
  /-- RQSWAP (R253). -/
  | rqswap (f : FmtRQ)
  /-- PKTLD (R282). -/
  | pktld (f : FmtQ)
  /-- PKTDONE (R282). -/
  | pktdone (f : FmtQ)
  /-- SIGRMW (R282). -/
  | sigrmw (f : FmtQ)
  /-- QSAVE (R282). -/
  | qsave (f : FmtQ)
  /-- QLOAD (R282). -/
  | qload (f : FmtQ)
  /-- DISPATCH (R282). -/
  | dispatch (f : FmtQ)
  /-- PENDSCAN (R283). -/
  | pendscan (f : FmtQ)
  /-- QARM (R282). -/
  | qarm (f : FmtQ)
  /-- DBGRD (R308). -/
  | dbgrd (f : FmtQ)
  /-- DBGWR (R300). -/
  | dbgwr (f : FmtQ)
  /-- DSTEP (R309). -/
  | dstep (f : FmtQ)
  /-- DRESUME (R309). -/
  | dresume (f : FmtQ)
  /-- DRETURN (R291). -/
  | dreturn (f : FmtQ)
  /-- WPSET (R297). -/
  | wpset (f : FmtQ)
  /-- TRCTL (R309). -/
  | trctl (f : FmtQ)
  /-- VHRD (R299). -/
  | vhrd (f : FmtQ)
  /-- CHILD_LAUNCH (R278). -/
  | childLaunch (gang op : Nat)
  /-- POWER_AVERAGE_WINDOW (R339). -/
  | powerAverageWindow (watts : Nat)
  /-- POWER_LOSS (R334). -/
  | powerLoss (torn : Option Bool)
deriving DecidableEq, Repr, Inhabited

/-- The engine class of an instruction (R77, R231, R250, R281, R307), `none` for a transition. -/
def Instr.cls : Instr → Option Cls
  | .clauseStart _ _ _ => none
  | .merge _ => none
  | .joinRelease _ => none
  | .collectiveWaitEnd _ => none
  | .budgetRefill _ _ => none
  | .tempRefresh _ _ => none
  | .blockPlace _ => none
  | .roomAdvertise _ => none
  | .blockPass _ => none
  | .quantumExpiry _ => none
  | .dueClock _ => none
  | .resolve _ _ => none
  | .grant _ => none
  | .atomic _ _ _ => none
  | .cabort _ _ => none
  | .land _ _ => none
  | .phase _ _ => none
  | .deliver _ _ _ => none
  | .gangRetire _ => none
  | .blockRetire _ => none
  | .clusterRetire _ => none
  | .blockCompletionEvent _ => none
  | .trapEntry _ => none
  | .atsCompletion _ _ _ => none
  | .priResponse _ _ _ => none
  | .invalidation _ _ _ => none
  | .invalidationCompletion _ _ _ => none
  | .preemptRequest _ _ => none
  | .contextSave _ => none
  | .blockRestore _ => none
  | .mstart _ _ => none
  | .rqmove _ _ _ => none
  | .rqsignal _ _ => none
  | .rqlistBlockFetch _ => none
  | .kick _ _ => none
  | .packetComplete _ _ => none
  | .pendscanWake _ => none
  | .signalRecheck _ => none
  | .bankSwitch _ => none
  | .fwVerifyDone _ => none
  | .unlockVerifyDone _ => none
  | .pull _ => none
  | .guestReturn _ => none
  | .arrivalMessage _ => none
  | .releaseMessage _ => none
  | .clauseCountMessage _ _ => none
  | .debugHandlerEntry _ => none
  | .traceDrain _ => none
  | .frameArrival _ _ _ => none
  | .framePublish _ => none
  | .portDown _ => none
  | .linkRetryTimeout _ => none
  | .domainTableInstall => none
  | .powerOnStart _ => none
  | .functionLevelReset => none
  | .correctedError _ => none
  | .errorWindow _ => none
  | .thermalLimit _ => none
  | .thermalStop _ => none
  | .featAccWrite _ => none
  | .registerQueue _ _ => none
  | .teardownPasid _ _ => none
  | .destroyCtx _ _ => none
  | .preempt _ _ => none
  | .loadFw _ _ => none
  | .keyslotWrite _ _ _ => none
  | .unlock _ _ => none
  | .domainSet _ _ => none
  | .streamSet _ _ => none
  | .streamMap _ _ => none
  | .startClear _ _ => none
  | .hcmdUnknownOp _ _ _ => none
  | .hcmdIgnored _ => none
  | .commandDone => none
  | .dbgAttnWrite _ => none
  | .dbgRevokeWrite _ => none
  | .triggerRegisterWrite _ _ _ _ => none
  | .ptpsecRead _ => none
  | .ptpadjWrite _ _ => none
  | .registerWrite _ _ => none
  | .smov _ => some .press
  | .smovi _ => some .press
  | .sadd _ => some .press
  | .ssub _ => some .press
  | .smul _ => some .press
  | .smulh _ => some .press
  | .sand _ => some .press
  | .sor _ => some .press
  | .sxor _ => some .press
  | .sshl _ => some .press
  | .sshr _ => some .press
  | .ssra _ => some .press
  | .smin _ => some .press
  | .smax _ => some .press
  | .scmp _ => some .press
  | .ssel _ => some .press
  | .sclz _ => some .press
  | .spopc _ => some .press
  | .sbfe _ => some .press
  | .sbfi _ => some .press
  | .bra _ => some .press
  | .bru _ => some .press
  | .brv _ => some .press
  | .brau _ => some .press
  | .skip _ => some .press
  | .call _ => some .press
  | .ret _ => some .press
  | .join _ => some .press
  | .gangAll _ => some .press
  | .exit _ => some .press
  | .trap _ => some .press
  | .yield _ => some .press
  | .nop _ => some .press
  | .mand _ => some .press
  | .mor _ => some .press
  | .mxor _ => some .press
  | .mnot _ => some .press
  | .mmov _ => some .press
  | .mpopc _ => some .press
  | .mfirst _ => some .press
  | .measure _ => some .press
  | .srd _ => some .press
  | .swr _ => some .press
  | .vadd _ => some .press
  | .vsub _ => some .press
  | .vmul _ => some .press
  | .vmulh _ => some .press
  | .vmad _ => some .press
  | .vand _ => some .press
  | .vor _ => some .press
  | .vxor _ => some .press
  | .vnot _ => some .press
  | .vshl _ => some .press
  | .vshr _ => some .press
  | .vsra _ => some .press
  | .vmin _ => some .press
  | .vmax _ => some .press
  | .vabs _ => some .press
  | .vclz _ => some .press
  | .vpopc _ => some .press
  | .vbfe _ => some .press
  | .vbfi _ => some .press
  | .vsel _ => some .press
  | .vcmp _ => some .press
  | .vmov _ => some .press
  | .vmovi _ => some .press
  | .vadd2 _ => some .press
  | .vsub2 _ => some .press
  | .vmac2 _ => some .press
  | .vdot4 _ => some .press
  | .vqadd _ => some .press
  | .vqsub _ => some .press
  | .vshrr _ => some .press
  | .vpack _ => some .press
  | .vunpack _ => some .press
  | .vfadd _ => some .press
  | .vfsub _ => some .press
  | .vfmul _ => some .press
  | .vfma _ => some .press
  | .vfmin _ => some .press
  | .vfmax _ => some .press
  | .vfrcp _ => some .press
  | .vfrsq _ => some .press
  | .vfsqrt _ => some .press
  | .vfexp2 _ => some .press
  | .vflog2 _ => some .press
  | .vfcmp _ => some .press
  | .vfclass _ => some .press
  | .vcvt _ => some .press
  | .vfcvt _ => some .press
  | .vftoi _ => some .press
  | .vitof _ => some .press
  | .vshfl _ => some .press
  | .vshflx _ => some .press
  | .vslide _ => some .press
  | .vbcast _ => some .press
  | .vvote _ => some .press
  | .vreduce _ => some .press
  | .vscan _ => some .press
  | .ld _ => some .press
  | .st _ => some .press
  | .lds _ => some .press
  | .sts _ => some .press
  | .prefetch _ => some .press
  | .atom _ => some .press
  | .atomf _ => some .press
  | .atomcas _ => some .press
  | .commit _ => some .press
  | .commitc _ => some .press
  | .mark _ => some .press
  | .abort _ => some .press
  | .waitcnt _ => some .press
  | .bara _ => some .press
  | .barw _ => some .press
  | .bars _ => some .press
  | .barx _ => some .press
  | .vralloc _ => some .press
  | .rte _ => some .press
  | .launch _ => some .press
  | .sigop _ => some .press
  | .mma _ => some .matrix
  | .mmas _ => some .matrix
  | .mmac _ => some .matrix
  | .mmag _ => some .matrix
  | .qhist _ => some .matrix
  | .qscale _ => some .matrix
  | .qcvt _ => some .matrix
  | .qclr _ => some .matrix
  | .rqcopy _ => some .request
  | .rqfill _ => some .request
  | .rqgather _ => some .request
  | .rqscatter _ => some .request
  | .rqputs _ => some .request
  | .rqred _ => some .request
  | .rqlist _ => some .request
  | .rqswap _ => some .request
  | .pktld _ => some .compositor
  | .pktdone _ => some .compositor
  | .sigrmw _ => some .compositor
  | .qsave _ => some .compositor
  | .qload _ => some .compositor
  | .dispatch _ => some .compositor
  | .pendscan _ => some .compositor
  | .qarm _ => some .compositor
  | .dbgrd _ => some .debug
  | .dbgwr _ => some .debug
  | .dstep _ => some .debug
  | .dresume _ => some .debug
  | .dreturn _ => some .debug
  | .wpset _ => some .debug
  | .trctl _ => some .debug
  | .vhrd _ => some .debug
  | .childLaunch _ _ => none
  | .powerAverageWindow _ => none
  | .powerLoss _ => none

end Sys2Proof
end

