-- ==== Sys2Proof/WellFormed.lean ====
section
/-!
DEFINITION. Which instructions are well formed: what the decoder checks of one word by itself (R66 to R79 and the operand
tables of each chapter). What needs more than the word (the allotment, the measure, the place in the clause, the features,
the privilege) is checked when a clause starts (R80, Sys2Proof.Machine.ClauseCheck).
-/
namespace Sys2Proof

/-! ## Types -/

def Ty.is64 : Ty → Bool
  | .b64 | .i64 | .n64 | .f64 => true
  | _ => false

/-- Float types, 0xC to 0xF (R70). -/
def Ty.isFl : Ty → Bool
  | .f16 | .bf16 | .f32 | .f64 => true
  | _ => false

/-- Integer types, 0x0 to 0xB. -/
def Ty.isInt (t : Ty) : Bool := !t.isFl

def Ty.isB : Ty → Bool
  | .b8 | .b16 | .b32 | .b64 => true
  | _ => false

/-- Signed types, 0x4 to 0x7. -/
def Ty.isI : Ty → Bool
  | .i8 | .i16 | .i32 | .i64 => true
  | _ => false

/-- Unsigned types, 0x8 to 0xB. -/
def Ty.isN : Ty → Bool
  | .n8 | .n16 | .n32 | .n64 => true
  | _ => false

def Ty.isIN (t : Ty) : Bool := t.isI || t.isN

/-- Width in bits (R83, R85). -/
def Ty.width : Ty → Nat
  | .b8 | .i8 | .n8 => 8
  | .b16 | .i16 | .n16 | .f16 | .bf16 => 16
  | .b32 | .i32 | .n32 | .f32 => 32
  | .b64 | .i64 | .n64 | .f64 => 64

def Ty.bytes (t : Ty) : Nat := t.width / 8

def CTy.isIntC : CTy → Bool
  | .i4 | .i8 | .i16 | .i32 | .i64 | .n8 | .n16 | .n32 | .n64 => true
  | _ => false

/-- Float conversion types, 0x09 to 0x10 (R142); O4 is neither. -/
def CTy.isFlC : CTy → Bool
  | .f64 | .f32 | .f16 | .bf16 | .e4m3 | .e5m2 | .e2m1 | .e8m0 => true
  | _ => false

def CTy.is64 : CTy → Bool
  | .i64 | .n64 | .f64 => true
  | _ => false

/-- Width in bits of a value of the type (R83, R85). -/
def CTy.width : CTy → Nat
  | .i4 | .e2m1 | .o4 => 4
  | .i8 | .n8 | .e4m3 | .e5m2 | .e8m0 => 8
  | .i16 | .n16 | .f16 | .bf16 => 16
  | .i32 | .n32 | .f32 => 32
  | .i64 | .n64 | .f64 => 64

/-- Slots of the type in a register (R143). -/
def CTy.slots (t : CTy) : Nat := if t.width ≤ 32 then 32 / t.width else 1

/-! ## Operand classes (R66 to R69) -/

/-- The zero code, which every unused field holds (R75). -/
def Opd.unused (o : Opd) : Bool := o == .v 0

def Opd.isV : Opd → Bool
  | .v _ => true
  | _ => false

def Opd.isS : Opd → Bool
  | .s _ => true
  | _ => false

def Opd.isImm : Opd → Bool
  | .imm _ => true
  | _ => false

/-- A lane mask `m0` to `m15`. -/
def Opd.isM : Opd → Bool
  | .m _ => true
  | _ => false

/-- `em` or a lane mask. -/
def Opd.isEM : Opd → Bool
  | .em | .m _ => true
  | _ => false

def Opd.vPair : Opd → Bool
  | .v n => n.toNat % 2 == 0
  | _ => false

def Opd.sPair : Opd → Bool
  | .s n => n.toNat % 2 == 0
  | _ => false

/-- A vector register whose number is a multiple of k. -/
def Opd.vMul (k : Nat) : Opd → Bool
  | .v n => n.toNat % k == 0
  | _ => false

def Opd.sMul (k : Nat) : Opd → Bool
  | .s n => n.toNat % k == 0
  | _ => false

/-- A vector operand of a type: an even pair for the 64-bit types (R129). -/
def Opd.vT (w64 : Bool) (o : Opd) : Bool := if w64 then o.vPair else o.isV
/-- A scalar operand of a type (R106). -/
def Opd.sT (w64 : Bool) (o : Opd) : Bool := if w64 then o.sPair else o.isS
/-- Scalar or small immediate. -/
def Opd.si (w64 : Bool) (o : Opd) : Bool := o.sT w64 || o.isImm
/-- Vector or scalar. -/
def Opd.vs (w64 : Bool) (o : Opd) : Bool := o.vT w64 || o.sT w64
/-- Vector, scalar or small immediate. -/
def Opd.vsi (w64 : Bool) (o : Opd) : Bool := o.vs w64 || o.isImm
/-- Destination of a compare: a vector register, a mask or `em` (R132). -/
def Opd.vem (o : Opd) : Bool := o.isV || o.isEM
/-- A condition of `vsel` and `skip`: `em`, mask, vector or scalar. -/
def Opd.cond (o : Opd) : Bool := o.isEM || o.isV || o.isS

/-- The register class `srd` writes and `swr` reads for a special register (R68). -/
def SReg.accepts (r : SReg) (o : Opd) : Bool :=
  match r with
  | .laneid => o.isV
  | .gangmask | .pendmask => o.isM
  | .cycles | .tvec | .tval | .tret => o.sPair
  | .gangid | .blockid | .clusterid | .role | .measure | .launchw | .coreid | .dieid | .astatus | .tcause | .crank => o.isS

/-! ## Groups of forms -/

/-- A scalar form of R106: the type set, the classes of A, B and C, and whether DST is fixed to 32 bits. -/
def FmtS.wfScalar (f : FmtS) (ty d32 : Bool) (b c : Opd → Bool) : Bool :=
  ty && f.dst.sT (f.ty.is64 && !d32) && f.a.si f.ty.is64 && b f.b && c f.c

/-- Scalar, `sadd` and its like (R106). -/
def FmtS.wfBin (f : FmtS) (ty : Bool) : Bool :=
  f.wfScalar ty false (Opd.si f.ty.is64) Opd.unused && f.sel == 0

/-- The shifts, whose count is a fixed 32-bit operand (R106). -/
def FmtS.wfShift (f : FmtS) : Bool := f.wfScalar f.ty.isInt false (Opd.si false) Opd.unused && f.sel == 0

def FmtS.wfUn (f : FmtS) (d32 : Bool) : Bool := f.wfScalar f.ty.isInt d32 Opd.unused Opd.unused && f.sel == 0

/-- CMP values by type (R71): EQ and NE for all, the orders for `i` and `n` and floats, ORD and UNO for floats only. -/
def cmpOk (sel : BitVec 6) (t : Ty) : Bool :=
  sel.toNat < 2 || (sel.toNat < 6 && !t.isB) || (sel.toNat < 8 && t.isFl)

/-- Format S with TYPE and SEL unused. -/
def FmtS.plain (f : FmtS) : Bool := f.ty == .b8 && f.sel == 0

def FmtS.wfMask2 (f : FmtS) : Bool := f.plain && f.dst.isEM && f.a.isEM && f.b.isEM && f.c.unused
def FmtS.wfMask1 (f : FmtS) : Bool := f.plain && f.dst.isEM && f.a.isEM && f.b.unused && f.c.unused
def FmtS.wfMaskCount (f : FmtS) : Bool := f.plain && f.dst.isS && f.a.isEM && f.b.unused && f.c.unused

/-- A two-source vector form of format A2. -/
def FmtA2.wf2 (f : FmtA2) (ty sat : Bool) (b : Opd → Bool) : Bool :=
  ty && (sat || !f.sat) && f.dst.vT f.ty.is64 && f.a.vsi f.ty.is64 && b f.b

/-- A one-source vector form of format A2; d32: DST is one register whatever the type. -/
def FmtA2.wf1 (f : FmtA2) (ty sat d32 : Bool) : Bool :=
  ty && (sat || !f.sat) && f.dst.vT (f.ty.is64 && !d32) && f.a.vsi f.ty.is64 && f.b.unused

/-- A three-source integer form of format A3 (RND unused). -/
def FmtA3.wf3 (f : FmtA3) (ty sat : Bool) (b c : Opd → Bool) : Bool :=
  ty && (sat || !f.sat) && f.rnd == .rne && f.dst.vT f.ty.is64 && f.a.vsi f.ty.is64 && b f.b && c f.c

/-- `vmac2` and `vdot4` (R136). -/
def FmtA3.wfMac (f : FmtA3) (ty : Bool) : Bool :=
  ty && f.rnd == .rne && f.dst.isV && f.a.vs false && f.b.vs false && f.c.vsi false

/-- A float form of format F2 (R139). -/
def FmtF2.wfF (f : FmtF2) (ty used two : Bool) : Bool :=
  ty && (used || (f.rnd == .rne && !f.sat)) && f.dst.vT f.ty.is64 && f.a.vsi f.ty.is64 &&
    (if two then f.b.vsi f.ty.is64 else f.b.unused)

/-- Slot operand and classes of the conversions (R142, R143). -/
def FmtCV.wfCV (f : FmtCV) (src dst rnd sat : Bool) : Bool :=
  src && dst && (rnd || f.rnd == .rne) && (sat || !f.sat) && f.dst.vT f.dty.is64 && f.a.vs f.sty.is64 &&
    (match f.b with
     | .imm i => i.toNat < 64 && i.toNat % 8 < f.dty.slots && i.toNat / 8 < f.sty.slots
     | _ => false)

/-- `vshfl` and `vshflx`; mode is MODE[1:0] (R145). -/
def FmtA3S.wfShfl (f : FmtA3S) : Bool :=
  (f.ty == .b32 || f.ty == .b64) && f.dst.vT f.ty.is64 && f.a.vT f.ty.is64 &&
    (if f.sel.toNat % 4 == 0 then f.b.vsi false else f.b.si false) && f.c.vsi f.ty.is64

/-- `vslide` and `vbcast` (R145). -/
def FmtA3S.wfMove (f : FmtA3S) (ty : Bool) : Bool :=
  ty && f.sel.toNat < 2 && f.dst.vT f.ty.is64 && f.a.vT f.ty.is64 && f.b.si false && f.c.vsi f.ty.is64

/-- The types of a reduction: ADD, MIN and MAX take `i`, `n` and floats; AND, OR and XOR take `b`, `i`, `n` (R145). -/
def redTy (op : Nat) (t : Ty) : Bool := if op < 3 then !t.isB else t.isInt

def FmtM.base64 (f : FmtM) : Bool := f.base.toNat % 2 == 0

/-- The types of an integer atomic by OP (R174). -/
def atomTy (op : Nat) (t : Ty) : Bool :=
  match t with
  | .i32 | .n32 | .i64 | .n64 => op < 7
  | .b32 | .b64 => 3 ≤ op && op < 7
  | _ => false

/-- The memory operand, B and the destination (a vector, or `s0` to discard where allowed) of an atomic (R174). -/
def FmtMA.wfA (f : FmtMA) (ty s0 : Bool) : Bool :=
  ty && f.base.toNat % 2 == 0 && f.b.vsi f.ty.is64 && (f.dst.vT f.ty.is64 || (s0 && f.dst == .s 0))

/-- LVL as a number (R70). -/
def Lvl.rank : Lvl → Nat
  | .gang => 0
  | .block => 1
  | .cluster => 2
  | .device => 3
  | .domain => 4

/-- Barrier forms: the number at SEL[4:0], C at SEL[5] (R182). -/
def FmtY.wfBar (f : FmtY) (commit : Bool) (a : Bool) : Bool :=
  f.sel.toNat % 32 ≤ 21 && (if f.sel.toNat / 32 == 1 then commit && f.lvl.rank ≤ 3 else f.lvl == .gang) &&
    f.dst.unused && a && f.b.unused

/-- Format K with only the unused fields. -/
def FmtK.zero (f : FmtK) : Bool := f.a.unused && !f.gang && f.imm == 0

/-- `skip`: IMM[31:17] zero, and A present exactly when IMM[16] is set (R79). -/
def FmtK.wfSkip (f : FmtK) : Bool :=
  !f.gang && f.imm.toNat < 0x20000 && (if f.imm.toNat / 0x10000 == 1 then f.a.cond else f.a.unused)

/-- The common operands of the product forms (R231). -/
def FmtMX.wfM (f : FmtMX) (e : Bool) : Bool :=
  f.dst.vMul 8 && f.a.vMul 4 && f.b.si false && f.c.sPair && e

/-- BAR and BV of a request word (R249). -/
def FmtRQ.wfBar (f : FmtRQ) : Bool := if f.bv then f.bar.toNat ≤ 21 else f.bar == 0

/-- The sizes, operations and types of `rqred`'s SEL (R250). -/
def rqredSel (sel : BitVec 6) : Bool :=
  sel.toNat / 8 < 6 && sel.toNat % 8 < 5 && (sel.toNat / 8 < 3 || sel.toNat % 8 < 2)

/-! ## The instructions -/

/-- What the decoder accepts of a word by itself. A transition is not a word, and counts as well formed. -/
def Instr.wf : Instr → Bool
  -- R106, R108, R109
  | .smov f => f.wfUn false
  | .smovi f => f.mask == .em && !f.gang && f.dst.sT f.ty.is64 &&
      (match f.ty with | .b32 | .i32 | .n32 | .i64 | .n64 => true | _ => false)
  | .sadd f | .ssub f | .smul f | .sand f | .sor f | .sxor f => f.wfBin f.ty.isInt
  | .smulh f | .smin f | .smax f => f.wfBin f.ty.isIN
  | .sshl f | .sshr f | .ssra f => f.wfShift
  | .scmp f => f.wfScalar f.ty.isInt true (Opd.si f.ty.is64) Opd.unused && cmpOk f.sel f.ty
  | .ssel f => f.wfScalar f.ty.isInt false (Opd.si f.ty.is64) (Opd.si false) && f.sel == 0
  | .sclz f | .spopc f => f.wfUn true
  | .sbfe f => f.wfShift
  | .sbfi f => f.wfScalar f.ty.isInt false (Opd.si f.ty.is64) (Opd.si false) && f.sel == 0
  -- R113
  | .bra f => f.a.unused && f.mask == .em && f.cond == .z
  | .bru f => f.a.isS && f.mask == .em
  | .brv f | .brau f => (f.a.isEM || f.a.isV) && f.mask == .em
  | .skip f => f.wfSkip
  | .call f => f.dst.sPair
  | .ret f => f.a.sPair && f.mask == .em && f.cond == .z && f.target == 0
  | .join f => f.a.unused && f.mask == .em && f.cond == .z
  | .gangAll f => f.a.unused && f.gang && f.imm == 0
  | .exit f | .nop f => f.zero
  | .trap f => f.a.unused && !f.gang && f.imm.toNat < 0x10000
  | .yield f => f.a.si false && f.mask == .em && f.cond == .z
  -- R112
  | .mand f | .mor f | .mxor f => f.wfMask2
  | .mnot f | .mmov f => f.wfMask1
  | .mpopc f | .mfirst f => f.wfMaskCount
  -- R123
  | .measure f => f.plain && f.dst.isS && f.a.unused && f.b.unused && f.c.unused
  | .srd f => f.plain && f.b.unused && f.c.unused &&
      (match f.a with | .sr r => r.accepts f.dst | _ => false)
  | .swr f => f.plain && f.b.unused && f.c.unused &&
      (match f.dst with | .sr r => r.accepts f.a | _ => false)
  -- R132
  | .vadd f | .vsub f | .vmul f => f.wf2 f.ty.isInt f.ty.isIN (Opd.vsi f.ty.is64)
  | .vmulh f => f.wf2 f.ty.isIN false (Opd.vsi f.ty.is64)
  | .vmad f => f.wf3 f.ty.isInt f.ty.isIN (Opd.vsi f.ty.is64) (Opd.vsi f.ty.is64)
  | .vand f | .vor f | .vxor f => f.wf2 f.ty.isInt false (Opd.vsi f.ty.is64)
  | .vnot f => f.wf1 f.ty.isInt false false
  | .vshl f => f.wf2 f.ty.isInt f.ty.isIN (Opd.vsi false)
  | .vshr f | .vsra f => f.wf2 f.ty.isInt false (Opd.vsi false)
  | .vmin f | .vmax f => f.wf2 f.ty.isIN false (Opd.vsi f.ty.is64)
  | .vabs f => f.wf1 f.ty.isI true false
  | .vclz f | .vpopc f => f.wf1 f.ty.isInt false true
  | .vbfe f => f.wf3 f.ty.isInt false (Opd.vsi false) Opd.unused
  | .vbfi f => f.wf3 f.ty.isInt false (Opd.vsi f.ty.is64) (Opd.vsi false)
  | .vsel f => f.wf3 true false (Opd.vsi f.ty.is64) Opd.cond
  | .vcmp f => f.ty.isInt && cmpOk f.sel f.ty && !f.sat && f.dst.vem && f.a.vsi f.ty.is64 && f.b.vsi f.ty.is64
  | .vmov f => f.wf1 true false false
  -- R135
  | .vmovi f => f.dst.vT f.ty.is64 &&
      (match f.ty with
       | .b32 | .i32 | .n32 | .f32 | .i64 | .n64 | .f64 => true
       | .b16 | .i16 | .n16 | .f16 | .bf16 => f.imm.toNat < 0x10000
       | _ => false)
  -- R136
  | .vadd2 f | .vsub2 f => f.wf2 (f.ty == .i16 || f.ty == .n16) true (Opd.vsi false)
  | .vmac2 f => f.wfMac (f.ty == .i16 || f.ty == .n16)
  | .vdot4 f => f.wfMac (f.ty == .i8 || f.ty == .n8)
  | .vqadd f | .vqsub f => f.wf2 (f.ty.isIN && !f.ty.is64) false (Opd.vsi false)
  | .vshrr f => (f.ty == .i16 || f.ty == .i32 || f.ty == .n16 || f.ty == .n32) &&
      f.dst.isV && f.a.vs false && f.b.vsi false
  | .vpack f => (f.ty == .i8 || f.ty == .i16 || f.ty == .n8 || f.ty == .n16) &&
      f.dst.isV && f.a.vs false && f.b.vs false
  | .vunpack f => (f.ty == .i8 || f.ty == .i16 || f.ty == .n8 || f.ty == .n16) && !f.sat &&
      f.sel.toNat < 2 && f.dst.isV && f.a.vs false && f.b.unused
  -- R139
  | .vfadd f | .vfsub f | .vfmul f => f.wfF f.ty.isFl true true
  | .vfma f => f.ty.isFl && f.dst.vT f.ty.is64 && f.a.vsi f.ty.is64 && f.b.vsi f.ty.is64 && f.c.vsi f.ty.is64
  | .vfmin f | .vfmax f => f.wfF f.ty.isFl false true
  | .vfrcp f | .vfrsq f | .vfsqrt f => f.wfF f.ty.isFl true false
  | .vfexp2 f | .vflog2 f => f.wfF (f.ty.isFl && !f.ty.is64) true false
  | .vfcmp f => f.ty.isFl && cmpOk f.sel f.ty && !f.sat && f.dst.vem && f.a.vsi f.ty.is64 && f.b.vsi f.ty.is64
  | .vfclass f => f.wf1 f.ty.isFl false true
  -- R142
  | .vcvt f => f.wfCV f.sty.isIntC f.dty.isIntC false true
  | .vfcvt f => f.wfCV f.sty.isFlC f.dty.isFlC true true
  | .vftoi f => f.wfCV f.sty.isFlC f.dty.isIntC true false
  | .vitof f => f.wfCV f.sty.isIntC f.dty.isFlC true true
  -- R145
  | .vshfl f => f.wfShfl && f.sel.toNat < 4
  | .vshflx f => f.wfShfl
  | .vslide f => f.wfMove f.ty.isB
  | .vbcast f => f.wfMove (f.ty == .b32 || f.ty == .b64)
  | .vvote f => f.sel.toNat < 5 && (f.ty == .b32 || (f.ty == .b64 && f.sel == 3)) && !f.sat && f.b.unused &&
      (if f.sel == 3 then f.a.vT f.ty.is64 else f.a.isEM || f.a.isV) && (if f.sel == 0 then f.dst.isM else f.dst.isS)
  | .vreduce f => f.sel.toNat < 6 && redTy f.sel.toNat f.ty && f.a.vT f.ty.is64 && f.b.unused && f.dst.vs f.ty.is64
  | .vscan f => f.sel.toNat < 16 && f.sel.toNat % 8 < 6 && redTy (f.sel.toNat % 8) f.ty && f.a.vT f.ty.is64 &&
      f.b.unused && f.dst.vT f.ty.is64
  -- R163
  | .ld f => f.base64 && f.dst.vT f.ty.is64
  | .st f => f.base64 && f.dst.vsi f.ty.is64
  | .lds f => f.base64 && f.dst.sT f.ty.is64 && f.voff == none && f.mask == .em && !f.gang
  | .sts f => f.base64 && f.dst.si f.ty.is64 && f.voff == none && f.mask == .em && !f.gang
  | .prefetch f => f.base64 && f.dst.unused && f.ty == .b8 && !f.gang
  -- R174
  | .atom f => f.wfA (atomTy f.sel.toNat f.ty) true
  | .atomf f => f.wfA ((f.ty == .f32 || f.ty == .f64) && f.sel.toNat < 3) true
  | .atomcas f => f.wfA (f.sel == 0 && atomTy 6 f.ty) false
  -- R167
  | .commit f => f.sel == 0 && f.lvl.rank ≤ 3 && f.dst.unused && f.a.unused && f.b.unused
  | .commitc f => f.sel == 0 && f.lvl.rank ≤ 2 && f.dst.isS && f.a.unused && f.b.unused
  | .mark f => f.sel.toNat < 2 && f.lvl.rank ≤ 2 && (f.sel == 0 || f.lvl == .gang) && f.dst.unused && f.a.unused &&
      f.b.unused
  | .abort f => f.sel.toNat < 2 && f.lvl.rank ≤ 2 && f.dst.unused && f.a.unused && f.b.unused
  | .waitcnt f => f.sel.toNat < 6 && f.lvl == .gang && f.dst.unused && f.a.si false && f.b.unused
  -- R182
  | .bara f | .bars f => f.wfBar true f.a.unused
  | .barw f => f.wfBar false f.a.unused
  | .barx f => f.wfBar false (f.a.si false)
  -- R203, R199, R215, R218
  | .vralloc f => f.ty == .b8 && f.sel.toNat < 2 && f.dst.isS && f.b.unused && f.c.unused &&
      (match f.a with | .s _ => true | .imm i => 1 ≤ i.toNat && i.toNat ≤ 32 | _ => false)
  | .rte f => f.zero
  | .launch f => f.plain && f.dst.isV && f.a.vs true && f.b.unused && f.c.unused
  | .sigop f => f.ty == .b8 && f.sel.toNat < 3 && f.dst.sPair && f.a.sPair && f.c.unused &&
      (if f.sel == 2 then f.b.unused else f.b.si true)
  -- R231
  | .mma f => f.wfM f.e.unused
  | .mmas f => f.wfM f.e.sPair
  | .mmac f => f.wfM f.e.unused && !f.sat
  | .mmag f => f.wfM (f.e.si false)
  | .qhist f => f.sel.toNat < 3 && f.dst.vPair && f.a.isV && f.c.unused &&
      (match f.b with | .s _ => true | .imm i => i.toNat ≤ 32 | _ => false)
  | .qscale f => f.dst.isS && f.a.vPair && f.b.si false && f.c.unused &&
      (f.sel == 0x01 || f.sel == 0x0D || f.sel == 0x0E || f.sel == 0x0F || f.sel == 0x11)
  | .qcvt f => f.dst.vMul 4 && f.a.isV && f.b.si false && f.c.si false && f.sel.toNat / 16 < 3 &&
      f.sel.toNat / 2 % 8 < 5 && !(f.sel.toNat / 2 % 8 == 4 && f.sel.toNat % 2 == 1)
  | .qclr f => f.sel == 0 && f.dst.vPair && f.a.unused && f.b.unused && f.c.unused
  -- R249, R250
  | .rqcopy f => f.wfBar && f.sel == 0 && f.dst.sPair && f.a.sPair && f.b.si false && f.c.unused
  | .rqfill f => f.wfBar && f.sel == 0 && f.dst.sPair && f.a.si false && f.b.si false && f.c.unused
  | .rqgather f | .rqscatter f => f.wfBar && f.sel.toNat < 6 && f.dst.sPair && f.a.sPair && f.b.si false && f.c.si false
  | .rqputs f => f.wfBar && f.sel.toNat < 2 && f.dst.sPair && f.a.sPair && f.b.si false && f.c.sMul 4
  | .rqred f => f.wfBar && rqredSel f.sel && f.dst.sPair && f.a.sPair && f.b.si false && (f.c.unused || f.c.sMul 4)
  | .rqlist f => !f.bv && f.bar == 0 && f.sel == 0 && f.dst.unused && f.a.si false && f.b.si false && f.c.unused
  | .rqswap f => f.wfBar && f.sel.toNat < 2 && !f.rel && f.dst.sPair && f.a.sPair && f.b.unused && f.c.unused
  -- R281
  | .pktld f => f.sel == 0 && f.dst.vMul 8 && f.a.isM && f.b.unused && f.c.unused
  | .pktdone f => f.sel.toNat < 3 && f.dst.isV && f.a.isV && f.b.unused && f.c.unused
  | .sigrmw f => f.sel.toNat < 16 && f.sel.toNat % 4 < 3 && f.sel.toNat / 4 < 3 && f.dst.vPair && f.a.vPair &&
      (if f.sel.toNat % 4 == 2 then f.b.unused else f.b.vPair || f.b.isImm) && f.c.unused
  | .qsave f => f.sel == 0 && f.dst.unused && f.a.vPair && f.b.unused && f.c.unused
  | .qload f => f.sel == 0 && f.dst.isV && f.a.vPair && f.b.unused && f.c.unused
  | .dispatch f => f.sel.toNat < 2 && f.dst.isV && f.a.isV && f.b.unused && f.c.unused
  | .pendscan f => f.sel.toNat < 4 && f.dst.isS && (if f.sel.toNat % 2 == 0 then f.a.si false else f.a.unused) &&
      f.b.unused && f.c.unused
  | .qarm f => f.sel.toNat < 2 && f.dst.isV && f.a.unused && f.b.unused && f.c.unused
  -- R307
  | .dbgrd f => f.sel == 0 && f.dst.isS && f.a.isS && f.b.unused && f.c.unused
  | .dbgwr f => f.sel == 0 && f.dst.unused && f.a.isS && f.b.si false && f.c.unused
  | .dstep f | .dresume f | .dreturn f => f.sel == 0 && f.dst.unused && f.a.si false && f.b.unused && f.c.unused
  | .wpset f => f.sel.toNat < 3 && f.dst.unused && f.a.si false && f.b.sMul 8 && f.c.unused
  | .trctl f => f.sel.toNat < 4 && f.dst.unused && f.a.si false && f.b.unused && f.c.unused
  | .vhrd f => f.sel == 0 && f.dst.sMul 8 && f.a.si false && f.b.unused && f.c.unused
  -- the transitions
  | .clauseStart _ _ _ => true
  | .merge _ => true
  | .joinRelease _ => true
  | .collectiveWaitEnd _ => true
  | .budgetRefill _ _ => true
  | .tempRefresh _ _ => true
  | .blockPlace _ => true
  | .roomAdvertise _ => true
  | .blockPass _ => true
  | .quantumExpiry _ => true
  | .dueClock _ => true
  | .resolve _ _ => true
  | .grant _ => true
  | .atomic _ _ _ => true
  | .cabort _ _ => true
  | .land _ _ => true
  | .phase _ _ => true
  | .deliver _ _ _ => true
  | .gangRetire _ => true
  | .blockRetire _ => true
  | .clusterRetire _ => true
  | .blockCompletionEvent _ => true
  | .trapEntry _ => true
  | .atsCompletion _ _ _ => true
  | .priResponse _ _ _ => true
  | .invalidation _ _ _ => true
  | .invalidationCompletion _ _ _ => true
  | .preemptRequest _ _ => true
  | .contextSave _ => true
  | .blockRestore _ => true
  | .mstart _ _ => true
  | .rqmove _ _ _ => true
  | .rqsignal _ _ => true
  | .rqlistBlockFetch _ => true
  | .kick _ _ => true
  | .packetComplete _ _ => true
  | .pendscanWake _ => true
  | .signalRecheck _ => true
  | .bankSwitch _ => true
  | .fwVerifyDone _ => true
  | .unlockVerifyDone _ => true
  | .pull _ => true
  | .guestReturn _ => true
  | .arrivalMessage _ => true
  | .releaseMessage _ => true
  | .clauseCountMessage _ _ => true
  | .debugHandlerEntry _ => true
  | .traceDrain _ => true
  | .frameArrival _ _ _ => true
  | .framePublish _ => true
  | .portDown _ => true
  | .linkRetryTimeout _ => true
  | .domainTableInstall => true
  | .powerOnStart _ => true
  | .functionLevelReset => true
  | .correctedError _ => true
  | .errorWindow _ => true
  | .thermalLimit _ => true
  | .thermalStop _ => true
  | .featAccWrite _ => true
  | .registerQueue _ _ => true
  | .teardownPasid _ _ => true
  | .destroyCtx _ _ => true
  | .preempt _ _ => true
  | .loadFw _ _ => true
  | .keyslotWrite _ _ _ => true
  | .unlock _ _ => true
  | .domainSet _ _ => true
  | .streamSet _ _ => true
  | .streamMap _ _ => true
  | .startClear _ _ => true
  | .hcmdUnknownOp _ _ _ => true
  | .hcmdIgnored _ => true
  | .commandDone => true
  | .dbgAttnWrite _ => true
  | .dbgRevokeWrite _ => true
  | .triggerRegisterWrite _ _ _ _ => true
  | .ptpsecRead _ => true
  | .ptpadjWrite _ _ => true
  | .registerWrite _ _ => true
  | .childLaunch _ _ => true
  | .powerAverageWindow _ => true
  | .powerLoss _ => true

end Sys2Proof
end

