-- ==== Sys2Proof/Decode.lean ====
section
/-!
DEFINITION. The decoder: total on any 64-bit word of any engine class, refusing by name; and the encoder, from the same
tables of the spec (R63, R66 to R73, R77, R230, R231, R249, R250, R281, R307).
-/
namespace Sys2Proof

/-- Why a word is no instruction. All of them are ILLEGAL_INSTRUCTION (R80). -/
inductive Reject
  | reservedOpcode | reservedBit | reservedCode | illFormed
deriving DecidableEq, Repr, Inhabited

/-- A field of a word at its place. -/
def put {n : Nat} (lo : Nat) (x : BitVec n) : Nat := x.toNat * 2 ^ lo

def encBool (b : Bool) : BitVec 1 := if b then 1 else 0

/-- TYPE (R70). -/
def decTy (c : BitVec 4) : Ty :=
  match c.toNat with
  | 0 => .b8 | 1 => .b16 | 2 => .b32 | 3 => .b64 | 4 => .i8 | 5 => .i16 | 6 => .i32 | 7 => .i64
  | 8 => .n8 | 9 => .n16 | 10 => .n32 | 11 => .n64 | 12 => .f16 | 13 => .bf16 | 14 => .f32 | _ => .f64

def encTy : Ty → BitVec 4
  | .b8 => 0 | .b16 => 1 | .b32 => 2 | .b64 => 3 | .i8 => 4 | .i16 => 5 | .i32 => 6 | .i64 => 7
  | .n8 => 8 | .n16 => 9 | .n32 => 10 | .n64 => 11 | .f16 => 12 | .bf16 => 13 | .f32 => 14 | .f64 => 15

/-- RND (R70). -/
def decRnd (c : BitVec 2) : Rnd :=
  match c.toNat with
  | 0 => .rne | 1 => .rtz | 2 => .rdn | _ => .rup

def encRnd : Rnd → BitVec 2
  | .rne => 0 | .rtz => 1 | .rdn => 2 | .rup => 3

/-- SCOPE (R70). -/
def decScope (c : BitVec 2) : Scope :=
  match c.toNat with
  | 0 => .block | 1 => .cluster | 2 => .device | _ => .domain

def encScope : Scope → BitVec 2
  | .block => 0 | .cluster => 1 | .device => 2 | .domain => 3

/-- COND (R70); 010 to 111 are reserved. -/
def decCond (c : BitVec 3) : Option Cond :=
  match c.toNat with
  | 0 => some .z | 1 => some .nz | _ => none

def encCond : Cond → BitVec 3
  | .z => 0 | .nz => 1

/-- LVL (R70); 101 to 111 are reserved. -/
def decLvl (c : BitVec 3) : Option Lvl :=
  match c.toNat with
  | 0 => some .gang | 1 => some .block | 2 => some .cluster | 3 => some .device | 4 => some .domain | _ => none

def encLvl : Lvl → BitVec 3
  | .gang => 0 | .block => 1 | .cluster => 2 | .device => 3 | .domain => 4

/-- DTYPE and STYPE (R72); 0x12 to 0x1F are reserved. -/
def decCTy (c : BitVec 5) : Option CTy :=
  match c.toNat with
  | 0x00 => some .i4 | 0x01 => some .i8 | 0x02 => some .i16 | 0x03 => some .i32 | 0x04 => some .i64 | 0x05 => some .n8
  | 0x06 => some .n16 | 0x07 => some .n32 | 0x08 => some .n64 | 0x09 => some .f64 | 0x0A => some .f32 | 0x0B => some .f16
  | 0x0C => some .bf16 | 0x0D => some .e4m3 | 0x0E => some .e5m2 | 0x0F => some .e2m1 | 0x10 => some .e8m0
  | 0x11 => some .o4 | _ => none

def encCTy : CTy → BitVec 5
  | .i4 => 0x00 | .i8 => 0x01 | .i16 => 0x02 | .i32 => 0x03 | .i64 => 0x04 | .n8 => 0x05 | .n16 => 0x06 | .n32 => 0x07
  | .n64 => 0x08 | .f64 => 0x09 | .f32 => 0x0A | .f16 => 0x0B | .bf16 => 0x0C | .e4m3 => 0x0D | .e5m2 => 0x0E
  | .e2m1 => 0x0F | .e8m0 => 0x10 | .o4 => 0x11

/-- MASK (R70); 0x01 to 0x0F are reserved. -/
def decMask (c : BitVec 5) : Option MaskSel :=
  if c == 0 then some .em else if c.toNat < 16 then none else some (.m (c.extractLsb' 0 4))

def encMask : MaskSel → BitVec 5
  | .em => 0
  | .m n => BitVec.ofNat 5 (16 + n.toNat)

/-- VOFF with its valid bit (R74). -/
def decVoff (c : BitVec 9) : Option (Option (BitVec 8)) :=
  if c == 0 then some none else if c.getLsbD 8 then some (some (c.extractLsb' 0 8)) else none

def encVoff : Option (BitVec 8) → BitVec 9
  | none => 0
  | some n => BitVec.ofNat 9 (256 + n.toNat)

/-- The special-register codes, the low byte (R68). -/
def decSReg (c : Nat) : Option SReg :=
  match c with
  | 0xC0 => some .laneid | 0xC1 => some .gangid | 0xC2 => some .blockid | 0xC3 => some .clusterid | 0xC4 => some .role
  | 0xC5 => some .measure | 0xC6 => some .gangmask | 0xC7 => some .launchw | 0xC8 => some .coreid | 0xC9 => some .dieid
  | 0xCA => some .cycles | 0xCB => some .astatus | 0xCC => some .tvec | 0xCD => some .tcause | 0xCE => some .tval
  | 0xCF => some .tret | 0xD0 => some .pendmask | 0xD1 => some .crank | _ => none

def encSReg : SReg → Nat
  | .laneid => 0xC0 | .gangid => 0xC1 | .blockid => 0xC2 | .clusterid => 0xC3 | .role => 0xC4 | .measure => 0xC5
  | .gangmask => 0xC6 | .launchw => 0xC7 | .coreid => 0xC8 | .dieid => 0xC9 | .cycles => 0xCA | .astatus => 0xCB
  | .tvec => 0xCC | .tcause => 0xCD | .tval => 0xCE | .tret => 0xCF | .pendmask => 0xD0 | .crank => 0xD1

/-- The 10-bit operand code (R66, R67). -/
def decOpd (c : BitVec 10) : Option Opd :=
  let k := c.toNat
  if k < 0x100 then some (.v (BitVec.ofNat 8 k))
  else if k < 0x300 then some (.s (BitVec.ofNat 9 (k - 0x100)))
  else if k < 0x380 then some (.imm (BitVec.ofNat 7 (k - 0x300)))
  else if k = 0x380 then some .em
  else if 0x390 ≤ k ∧ k < 0x3A0 then some (.m (BitVec.ofNat 4 (k - 0x390)))
  else (decSReg (k - 0x300)).map .sr

def encOpd : Opd → BitVec 10
  | .v n => BitVec.ofNat 10 n.toNat
  | .s n => BitVec.ofNat 10 (0x100 + n.toNat)
  | .imm i => BitVec.ofNat 10 (0x300 + i.toNat)
  | .em => 0x380
  | .m n => BitVec.ofNat 10 (0x390 + n.toNat)
  | .sr r => BitVec.ofNat 10 (0x300 + encSReg r)

/-- Format A3 (R73): the fields of a word, refused by name where a reserved bit or code is set. -/
def decA3 (w : W64) : Except Reject FmtA3 :=
  match decOpd (w.extractLsb' 44 10), decOpd (w.extractLsb' 34 10), decOpd (w.extractLsb' 24 10),
      decOpd (w.extractLsb' 14 10), decMask (w.extractLsb' 2 5) with
  | some dst, some a, some b, some c, some mask => .ok
      { dst, a, b, c, ty := decTy (w.extractLsb' 10 4), rnd := decRnd (w.extractLsb' 8 2),
        sat := w.getLsbD 7, mask, gang := w.getLsbD 1, keep := w.getLsbD 0 }
  | _, _, _, _, _ => .error .reservedCode

/-- The word of a format A3 instruction with the given opcode. -/
def encA3 (op : BitVec 10) (f : FmtA3) : W64 :=
  BitVec.ofNat 64 (put 54 op + put 44 (encOpd f.dst) + put 34 (encOpd f.a) + put 24 (encOpd f.b) + put 14 (encOpd f.c)
    + put 10 (encTy f.ty) + put 8 (encRnd f.rnd) + put 7 (encBool f.sat)
    + put 2 (encMask f.mask) + put 1 (encBool f.gang) + put 0 (encBool f.keep))

/-- Format F2 (R73): the fields of a word, refused by name where a reserved bit or code is set. -/
def decF2 (w : W64) : Except Reject FmtF2 :=
  if w &&& 0x0000000000FFC000 != 0 then .error .reservedBit else
  match decOpd (w.extractLsb' 44 10), decOpd (w.extractLsb' 34 10), decOpd (w.extractLsb' 24 10),
      decMask (w.extractLsb' 2 5) with
  | some dst, some a, some b, some mask => .ok
      { dst, a, b, ty := decTy (w.extractLsb' 10 4), rnd := decRnd (w.extractLsb' 8 2), sat := w.getLsbD 7,
        mask, gang := w.getLsbD 1, keep := w.getLsbD 0 }
  | _, _, _, _ => .error .reservedCode

/-- The word of a format F2 instruction with the given opcode. -/
def encF2 (op : BitVec 10) (f : FmtF2) : W64 :=
  BitVec.ofNat 64 (put 54 op + put 44 (encOpd f.dst) + put 34 (encOpd f.a) + put 24 (encOpd f.b) + put 10 (encTy f.ty)
    + put 8 (encRnd f.rnd) + put 7 (encBool f.sat) + put 2 (encMask f.mask)
    + put 1 (encBool f.gang) + put 0 (encBool f.keep))

/-- Format A2 (R73): the fields of a word, refused by name where a reserved bit or code is set. -/
def decA2 (w : W64) : Except Reject FmtA2 :=
  if w &&& 0x0000000000FFC301 != 0 then .error .reservedBit else
  match decOpd (w.extractLsb' 44 10), decOpd (w.extractLsb' 34 10), decOpd (w.extractLsb' 24 10),
      decMask (w.extractLsb' 2 5) with
  | some dst, some a, some b, some mask => .ok
      { dst, a, b, ty := decTy (w.extractLsb' 10 4), sat := w.getLsbD 7, mask, gang := w.getLsbD 1 }
  | _, _, _, _ => .error .reservedCode

/-- The word of a format A2 instruction with the given opcode. -/
def encA2 (op : BitVec 10) (f : FmtA2) : W64 :=
  BitVec.ofNat 64 (put 54 op + put 44 (encOpd f.dst) + put 34 (encOpd f.a) + put 24 (encOpd f.b) + put 10 (encTy f.ty)
    + put 7 (encBool f.sat) + put 2 (encMask f.mask) + put 1 (encBool f.gang))

/-- Format A2S (R73): the fields of a word, refused by name where a reserved bit or code is set. -/
def decA2S (w : W64) : Except Reject FmtA2S :=
  if w &&& 0x000000000003C301 != 0 then .error .reservedBit else
  match decOpd (w.extractLsb' 44 10), decOpd (w.extractLsb' 34 10), decOpd (w.extractLsb' 24 10),
      decMask (w.extractLsb' 2 5) with
  | some dst, some a, some b, some mask => .ok
      { dst, a, b, sel := w.extractLsb' 18 6, ty := decTy (w.extractLsb' 10 4), sat := w.getLsbD 7, mask,
        gang := w.getLsbD 1 }
  | _, _, _, _ => .error .reservedCode

/-- The word of a format A2S instruction with the given opcode. -/
def encA2S (op : BitVec 10) (f : FmtA2S) : W64 :=
  BitVec.ofNat 64 (put 54 op + put 44 (encOpd f.dst) + put 34 (encOpd f.a) + put 24 (encOpd f.b) + put 18 f.sel
    + put 10 (encTy f.ty) + put 7 (encBool f.sat) + put 2 (encMask f.mask)
    + put 1 (encBool f.gang))

/-- Format A3S (R73): the fields of a word, refused by name where a reserved bit or code is set. -/
def decA3S (w : W64) : Except Reject FmtA3S :=
  match decOpd (w.extractLsb' 44 10), decOpd (w.extractLsb' 34 10), decOpd (w.extractLsb' 24 10),
      decOpd (w.extractLsb' 14 10), decMask (w.extractLsb' 1 5) with
  | some dst, some a, some b, some c, some mask => .ok
      { dst, a, b, c, ty := decTy (w.extractLsb' 10 4), sel := w.extractLsb' 6 4, mask,
        gang := w.getLsbD 0 }
  | _, _, _, _, _ => .error .reservedCode

/-- The word of a format A3S instruction with the given opcode. -/
def encA3S (op : BitVec 10) (f : FmtA3S) : W64 :=
  BitVec.ofNat 64 (put 54 op + put 44 (encOpd f.dst) + put 34 (encOpd f.a) + put 24 (encOpd f.b) + put 14 (encOpd f.c)
    + put 10 (encTy f.ty) + put 6 f.sel + put 1 (encMask f.mask) + put 0 (encBool f.gang))

/-- Format CV (R73): the fields of a word, refused by name where a reserved bit or code is set. -/
def decCV (w : W64) : Except Reject FmtCV :=
  if w &&& 0x0000000000003C01 != 0 then .error .reservedBit else
  match decOpd (w.extractLsb' 44 10), decOpd (w.extractLsb' 34 10), decOpd (w.extractLsb' 24 10),
      decCTy (w.extractLsb' 19 5), decCTy (w.extractLsb' 14 5), decMask (w.extractLsb' 2 5) with
  | some dst, some a, some b, some dty, some sty, some mask => .ok
      { dst, a, b, dty, sty, rnd := decRnd (w.extractLsb' 8 2), sat := w.getLsbD 7, mask,
        gang := w.getLsbD 1 }
  | _, _, _, _, _, _ => .error .reservedCode

/-- The word of a format CV instruction with the given opcode. -/
def encCV (op : BitVec 10) (f : FmtCV) : W64 :=
  BitVec.ofNat 64 (put 54 op + put 44 (encOpd f.dst) + put 34 (encOpd f.a) + put 24 (encOpd f.b)
    + put 19 (encCTy f.dty) + put 14 (encCTy f.sty) + put 8 (encRnd f.rnd)
    + put 7 (encBool f.sat) + put 2 (encMask f.mask) + put 1 (encBool f.gang))

/-- Format S (R73): the fields of a word, refused by name where a reserved bit or code is set. -/
def decS (w : W64) : Except Reject FmtS :=
  if w &&& 0x000000000000000F != 0 then .error .reservedBit else
  match decOpd (w.extractLsb' 44 10), decOpd (w.extractLsb' 34 10), decOpd (w.extractLsb' 24 10),
      decOpd (w.extractLsb' 14 10) with
  | some dst, some a, some b, some c => .ok
      { dst, a, b, c, ty := decTy (w.extractLsb' 10 4), sel := w.extractLsb' 4 6 }
  | _, _, _, _ => .error .reservedCode

/-- The word of a format S instruction with the given opcode. -/
def encS (op : BitVec 10) (f : FmtS) : W64 :=
  BitVec.ofNat 64 (put 54 op + put 44 (encOpd f.dst) + put 34 (encOpd f.a) + put 24 (encOpd f.b) + put 14 (encOpd f.c)
    + put 10 (encTy f.ty) + put 4 f.sel)

/-- Format I (R73): the fields of a word, refused by name where a reserved bit or code is set. -/
def decI (w : W64) : Except Reject FmtI :=
  if w &&& 0x0000003000000000 != 0 then .error .reservedBit else
  match decOpd (w.extractLsb' 44 10), decMask (w.extractLsb' 39 5) with
  | some dst, some mask => .ok
      { dst, mask, gang := w.getLsbD 38, ty := decTy (w.extractLsb' 32 4), imm := w.extractLsb' 0 32 }
  | _, _ => .error .reservedCode

/-- The word of a format I instruction with the given opcode. -/
def encI (op : BitVec 10) (f : FmtI) : W64 :=
  BitVec.ofNat 64 (put 54 op + put 44 (encOpd f.dst) + put 39 (encMask f.mask) + put 38 (encBool f.gang)
    + put 32 (encTy f.ty) + put 0 f.imm)

/-- Format B (R73): the fields of a word, refused by name where a reserved bit or code is set. -/
def decB (w : W64) : Except Reject FmtB :=
  if w &&& 0x003FF00003000000 != 0 then .error .reservedBit else
  match decOpd (w.extractLsb' 34 10), decMask (w.extractLsb' 29 5), decCond (w.extractLsb' 26 3) with
  | some a, some mask, some cond => .ok
      { a, mask, cond, target := w.extractLsb' 0 24 }
  | _, _, _ => .error .reservedCode

/-- The word of a format B instruction with the given opcode. -/
def encB (op : BitVec 10) (f : FmtB) : W64 :=
  BitVec.ofNat 64 (put 54 op + put 34 (encOpd f.a) + put 29 (encMask f.mask) + put 26 (encCond f.cond)
    + put 0 f.target)

/-- Format BL (R73): the fields of a word, refused by name where a reserved bit or code is set. -/
def decBL (w : W64) : Except Reject FmtBL :=
  if w &&& 0x00000FFFFF000000 != 0 then .error .reservedBit else
  match decOpd (w.extractLsb' 44 10) with
  | some dst => .ok
      { dst, target := w.extractLsb' 0 24 }
  | _ => .error .reservedCode

/-- The word of a format BL instruction with the given opcode. -/
def encBL (op : BitVec 10) (f : FmtBL) : W64 :=
  BitVec.ofNat 64 (put 54 op + put 44 (encOpd f.dst) + put 0 f.target)

/-- Format K (R73): the fields of a word, refused by name where a reserved bit or code is set. -/
def decK (w : W64) : Except Reject FmtK :=
  if w &&& 0x003FF00200000000 != 0 then .error .reservedBit else
  match decOpd (w.extractLsb' 34 10) with
  | some a => .ok
      { a, gang := w.getLsbD 32, imm := w.extractLsb' 0 32 }
  | _ => .error .reservedCode

/-- The word of a format K instruction with the given opcode. -/
def encK (op : BitVec 10) (f : FmtK) : W64 :=
  BitVec.ofNat 64 (put 54 op + put 34 (encOpd f.a) + put 32 (encBool f.gang) + put 0 f.imm)

/-- Format M (R73): the fields of a word, refused by name where a reserved bit or code is set. -/
def decM (w : W64) : Except Reject FmtM :=
  match decOpd (w.extractLsb' 44 10), decVoff (w.extractLsb' 26 9), decMask (w.extractLsb' 17 5) with
  | some dst, some voff, some mask => .ok
      { dst, base := w.extractLsb' 35 9, voff, ty := decTy (w.extractLsb' 22 4), mask,
        gang := w.getLsbD 16, imm := w.extractLsb' 0 16 }
  | _, _, _ => .error .reservedCode

/-- The word of a format M instruction with the given opcode. -/
def encM (op : BitVec 10) (f : FmtM) : W64 :=
  BitVec.ofNat 64 (put 54 op + put 44 (encOpd f.dst) + put 35 f.base + put 26 (encVoff f.voff) + put 22 (encTy f.ty)
    + put 17 (encMask f.mask) + put 16 (encBool f.gang) + put 0 f.imm)

/-- Format MA (R73): the fields of a word, refused by name where a reserved bit or code is set. -/
def decMA (w : W64) : Except Reject FmtMA :=
  if w &&& 0x0000000000000001 != 0 then .error .reservedBit else
  match decOpd (w.extractLsb' 44 10), decVoff (w.extractLsb' 26 9), decOpd (w.extractLsb' 16 10),
      decMask (w.extractLsb' 1 5) with
  | some dst, some voff, some b, some mask => .ok
      { dst, base := w.extractLsb' 35 9, voff, b, ty := decTy (w.extractLsb' 12 4),
        sel := w.extractLsb' 8 4, scope := decScope (w.extractLsb' 6 2), mask }
  | _, _, _, _ => .error .reservedCode

/-- The word of a format MA instruction with the given opcode. -/
def encMA (op : BitVec 10) (f : FmtMA) : W64 :=
  BitVec.ofNat 64 (put 54 op + put 44 (encOpd f.dst) + put 35 f.base + put 26 (encVoff f.voff) + put 16 (encOpd f.b)
    + put 12 (encTy f.ty) + put 8 f.sel + put 6 (encScope f.scope) + put 1 (encMask f.mask))

/-- Format Y (R73): the fields of a word, refused by name where a reserved bit or code is set. -/
def decY (w : W64) : Except Reject FmtY :=
  if w &&& 0x0000000000007FFF != 0 then .error .reservedBit else
  match decOpd (w.extractLsb' 44 10), decOpd (w.extractLsb' 34 10), decOpd (w.extractLsb' 24 10),
      decLvl (w.extractLsb' 15 3) with
  | some dst, some a, some b, some lvl => .ok
      { dst, a, b, sel := w.extractLsb' 18 6, lvl }
  | _, _, _, _ => .error .reservedCode

/-- The word of a format Y instruction with the given opcode. -/
def encY (op : BitVec 10) (f : FmtY) : W64 :=
  BitVec.ofNat 64 (put 54 op + put 44 (encOpd f.dst) + put 34 (encOpd f.a) + put 24 (encOpd f.b) + put 18 f.sel
    + put 15 (encLvl f.lvl))

/-- Format MX (R230): the fields of a word, refused by name where a reserved bit or code is set. -/
def decMX (w : W64) : Except Reject FmtMX :=
  if w &&& 0x0000000000000003 != 0 then .error .reservedBit else
  match decOpd (w.extractLsb' 44 10), decOpd (w.extractLsb' 34 10), decOpd (w.extractLsb' 24 10),
      decOpd (w.extractLsb' 14 10), decOpd (w.extractLsb' 4 10) with
  | some dst, some a, some b, some c, some e => .ok
      { dst, a, b, c, e, sat := w.getLsbD 3, reuse := w.getLsbD 2 }
  | _, _, _, _, _ => .error .reservedCode

/-- The word of a format MX instruction with the given opcode. -/
def encMX (op : BitVec 10) (f : FmtMX) : W64 :=
  BitVec.ofNat 64 (put 54 op + put 44 (encOpd f.dst) + put 34 (encOpd f.a) + put 24 (encOpd f.b) + put 14 (encOpd f.c)
    + put 4 (encOpd f.e) + put 3 (encBool f.sat) + put 2 (encBool f.reuse))

/-- Format RQ (R249): the fields of a word, refused by name where a reserved bit or code is set. -/
def decRQ (w : W64) : Except Reject FmtRQ :=
  if w &&& 0x0000000000000001 != 0 then .error .reservedBit else
  match decOpd (w.extractLsb' 44 10), decOpd (w.extractLsb' 34 10), decOpd (w.extractLsb' 24 10),
      decOpd (w.extractLsb' 14 10) with
  | some dst, some a, some b, some c => .ok
      { dst, a, b, c, sel := w.extractLsb' 8 6, bar := w.extractLsb' 3 5, bv := w.getLsbD 2,
        rel := w.getLsbD 1 }
  | _, _, _, _ => .error .reservedCode

/-- The word of a format RQ instruction with the given opcode. -/
def encRQ (op : BitVec 10) (f : FmtRQ) : W64 :=
  BitVec.ofNat 64 (put 54 op + put 44 (encOpd f.dst) + put 34 (encOpd f.a) + put 24 (encOpd f.b) + put 14 (encOpd f.c)
    + put 8 f.sel + put 3 f.bar + put 2 (encBool f.bv) + put 1 (encBool f.rel))

/-- Format Q (R230 MQ, R281 CP, R307 DB): the fields of a word, refused by name where a reserved bit or code is set. -/
def decQ (w : W64) : Except Reject FmtQ :=
  if w &&& 0x00000000000000FF != 0 then .error .reservedBit else
  match decOpd (w.extractLsb' 44 10), decOpd (w.extractLsb' 34 10), decOpd (w.extractLsb' 24 10),
      decOpd (w.extractLsb' 14 10) with
  | some dst, some a, some b, some c => .ok
      { dst, a, b, c, sel := w.extractLsb' 8 6 }
  | _, _, _, _ => .error .reservedCode

/-- The word of a format Q instruction with the given opcode. -/
def encQ (op : BitVec 10) (f : FmtQ) : W64 :=
  BitVec.ofNat 64 (put 54 op + put 44 (encOpd f.dst) + put 34 (encOpd f.a) + put 24 (encOpd f.b) + put 14 (encOpd f.c)
    + put 8 f.sel)

/-- The press-class opcode map (R77). -/
def decPress (w : W64) : Except Reject Instr :=
  match (w.extractLsb' 54 10).toNat with
  | 0x000 => (decS w).map .smov
  | 0x001 => (decI w).map .smovi
  | 0x002 => (decS w).map .sadd
  | 0x003 => (decS w).map .ssub
  | 0x004 => (decS w).map .smul
  | 0x005 => (decS w).map .smulh
  | 0x006 => (decS w).map .sand
  | 0x007 => (decS w).map .sor
  | 0x008 => (decS w).map .sxor
  | 0x009 => (decS w).map .sshl
  | 0x00A => (decS w).map .sshr
  | 0x00B => (decS w).map .ssra
  | 0x00C => (decS w).map .smin
  | 0x00D => (decS w).map .smax
  | 0x00E => (decS w).map .scmp
  | 0x00F => (decS w).map .ssel
  | 0x010 => (decS w).map .sclz
  | 0x011 => (decS w).map .spopc
  | 0x012 => (decS w).map .sbfe
  | 0x013 => (decS w).map .sbfi
  | 0x080 => (decB w).map .bra
  | 0x081 => (decB w).map .bru
  | 0x082 => (decB w).map .brv
  | 0x083 => (decB w).map .brau
  | 0x084 => (decK w).map .skip
  | 0x085 => (decBL w).map .call
  | 0x086 => (decB w).map .ret
  | 0x087 => (decB w).map .join
  | 0x088 => (decK w).map .gangAll
  | 0x089 => (decK w).map .exit
  | 0x08A => (decK w).map .trap
  | 0x08B => (decB w).map .yield
  | 0x08C => (decK w).map .nop
  | 0x090 => (decS w).map .mand
  | 0x091 => (decS w).map .mor
  | 0x092 => (decS w).map .mxor
  | 0x093 => (decS w).map .mnot
  | 0x094 => (decS w).map .mmov
  | 0x095 => (decS w).map .mpopc
  | 0x096 => (decS w).map .mfirst
  | 0x097 => (decS w).map .measure
  | 0x098 => (decS w).map .srd
  | 0x099 => (decS w).map .swr
  | 0x100 => (decA2 w).map .vadd
  | 0x101 => (decA2 w).map .vsub
  | 0x102 => (decA2 w).map .vmul
  | 0x103 => (decA2 w).map .vmulh
  | 0x104 => (decA3 w).map .vmad
  | 0x105 => (decA2 w).map .vand
  | 0x106 => (decA2 w).map .vor
  | 0x107 => (decA2 w).map .vxor
  | 0x108 => (decA2 w).map .vnot
  | 0x109 => (decA2 w).map .vshl
  | 0x10A => (decA2 w).map .vshr
  | 0x10B => (decA2 w).map .vsra
  | 0x10C => (decA2 w).map .vmin
  | 0x10D => (decA2 w).map .vmax
  | 0x10E => (decA2 w).map .vabs
  | 0x10F => (decA2 w).map .vclz
  | 0x110 => (decA2 w).map .vpopc
  | 0x111 => (decA3 w).map .vbfe
  | 0x112 => (decA3 w).map .vbfi
  | 0x113 => (decA3 w).map .vsel
  | 0x114 => (decA2S w).map .vcmp
  | 0x115 => (decA2 w).map .vmov
  | 0x116 => (decI w).map .vmovi
  | 0x120 => (decA2 w).map .vadd2
  | 0x121 => (decA2 w).map .vsub2
  | 0x122 => (decA3 w).map .vmac2
  | 0x123 => (decA3 w).map .vdot4
  | 0x124 => (decA2 w).map .vqadd
  | 0x125 => (decA2 w).map .vqsub
  | 0x126 => (decA2 w).map .vshrr
  | 0x127 => (decA2 w).map .vpack
  | 0x128 => (decA2S w).map .vunpack
  | 0x180 => (decF2 w).map .vfadd
  | 0x181 => (decF2 w).map .vfsub
  | 0x182 => (decF2 w).map .vfmul
  | 0x183 => (decA3 w).map .vfma
  | 0x184 => (decF2 w).map .vfmin
  | 0x185 => (decF2 w).map .vfmax
  | 0x186 => (decF2 w).map .vfrcp
  | 0x187 => (decF2 w).map .vfrsq
  | 0x188 => (decF2 w).map .vfsqrt
  | 0x189 => (decF2 w).map .vfexp2
  | 0x18A => (decF2 w).map .vflog2
  | 0x18B => (decA2S w).map .vfcmp
  | 0x18C => (decA2 w).map .vfclass
  | 0x190 => (decCV w).map .vcvt
  | 0x191 => (decCV w).map .vfcvt
  | 0x192 => (decCV w).map .vftoi
  | 0x193 => (decCV w).map .vitof
  | 0x200 => (decA3S w).map .vshfl
  | 0x201 => (decA3S w).map .vshflx
  | 0x202 => (decA3S w).map .vslide
  | 0x203 => (decA3S w).map .vbcast
  | 0x204 => (decA2S w).map .vvote
  | 0x205 => (decA2S w).map .vreduce
  | 0x206 => (decA2S w).map .vscan
  | 0x280 => (decM w).map .ld
  | 0x281 => (decM w).map .st
  | 0x282 => (decM w).map .lds
  | 0x283 => (decM w).map .sts
  | 0x284 => (decM w).map .prefetch
  | 0x288 => (decMA w).map .atom
  | 0x289 => (decMA w).map .atomf
  | 0x28A => (decMA w).map .atomcas
  | 0x300 => (decY w).map .commit
  | 0x301 => (decY w).map .commitc
  | 0x302 => (decY w).map .mark
  | 0x303 => (decY w).map .abort
  | 0x304 => (decY w).map .waitcnt
  | 0x308 => (decY w).map .bara
  | 0x309 => (decY w).map .barw
  | 0x30A => (decY w).map .bars
  | 0x30B => (decY w).map .barx
  | 0x380 => (decS w).map .vralloc
  | 0x381 => (decK w).map .rte
  | 0x382 => (decS w).map .launch
  | 0x383 => (decS w).map .sigop
  | _ => .error .reservedOpcode

/-- The matrix-class opcode map (R231). -/
def decMatrix (w : W64) : Except Reject Instr :=
  match (w.extractLsb' 54 10).toNat with
  | 0x000 => (decMX w).map .mma
  | 0x001 => (decMX w).map .mmas
  | 0x002 => (decMX w).map .mmac
  | 0x003 => (decMX w).map .mmag
  | 0x010 => (decQ w).map .qhist
  | 0x011 => (decQ w).map .qscale
  | 0x012 => (decQ w).map .qcvt
  | 0x013 => (decQ w).map .qclr
  | _ => .error .reservedOpcode

/-- The request-class opcode map (R250). -/
def decRequest (w : W64) : Except Reject Instr :=
  match (w.extractLsb' 54 10).toNat with
  | 0x000 => (decRQ w).map .rqcopy
  | 0x001 => (decRQ w).map .rqfill
  | 0x002 => (decRQ w).map .rqgather
  | 0x003 => (decRQ w).map .rqscatter
  | 0x004 => (decRQ w).map .rqputs
  | 0x005 => (decRQ w).map .rqred
  | 0x006 => (decRQ w).map .rqlist
  | 0x007 => (decRQ w).map .rqswap
  | _ => .error .reservedOpcode

/-- The debug-class opcode map (R307). -/
def decDebug (w : W64) : Except Reject Instr :=
  match (w.extractLsb' 54 10).toNat with
  | 0x000 => (decQ w).map .dbgrd
  | 0x001 => (decQ w).map .dbgwr
  | 0x002 => (decQ w).map .dstep
  | 0x003 => (decQ w).map .dresume
  | 0x004 => (decQ w).map .dreturn
  | 0x005 => (decQ w).map .wpset
  | 0x006 => (decQ w).map .trctl
  | 0x007 => (decQ w).map .vhrd
  | _ => .error .reservedOpcode

/-- The compositor-class opcode map (R281). -/
def decCompositor (w : W64) : Except Reject Instr :=
  match (w.extractLsb' 54 10).toNat with
  | 0x000 => (decQ w).map .pktld
  | 0x001 => (decQ w).map .pktdone
  | 0x002 => (decQ w).map .sigrmw
  | 0x003 => (decQ w).map .qsave
  | 0x004 => (decQ w).map .qload
  | 0x005 => (decQ w).map .dispatch
  | 0x006 => (decQ w).map .pendscan
  | 0x007 => (decQ w).map .qarm
  | _ => .error .reservedOpcode

/-- One word of a clause of the given class: the format's fields, then what the instruction accepts (R69 to R75). -/
def decodeWord (c : Cls) (w : W64) : Except Reject Instr :=
  let r := match c with
    | .press => decPress w
    | .matrix => decMatrix w
    | .request => decRequest w
    | .debug => decDebug w
    | .compositor => decCompositor w
  match r with
  | .ok i => if i.wf then .ok i else .error .illFormed
  | .error e => .error e

/-- A clause header (R63). -/
structure Header where
  cls : Cls
  count : Nat
  wait : BitVec 12
  fa : Option Nat
  fb : Option Nat
  yield : Bool
deriving DecidableEq, Repr, Inhabited

/-- CLASS (R63). -/
def decCls (c : Nat) : Option Cls :=
  match c with
  | 0 => some .press | 1 => some .matrix | 2 => some .request | 3 => some .debug | 4 => some .compositor | _ => none

def encCls : Cls → Nat
  | .press => 0 | .matrix => 1 | .request => 2 | .debug => 3 | .compositor => 4

/-- One flag field: the valid bit and the number; `none` where it is refused. -/
def decFlag (valid : Bool) (n : BitVec 4) : Option (Option Nat) :=
  if valid then (if n.toNat < 12 then some (some n.toNat) else none) else (if n == 0 then some none else none)

/-- The header's fields, or none where R63 refuses it (R13: A and B must differ). -/
def decodeHeader (w : W64) : Option Header :=
  match decCls (w.extractLsb' 60 4).toNat, decFlag (w.getLsbD 43) (w.extractLsb' 39 4),
      decFlag (w.getLsbD 38) (w.extractLsb' 34 4) with
  | some cls, some fa, some fb =>
    if w.extractLsb' 0 33 != 0 || (fa.isSome && fa == fb) then none
    else some { cls, count := (w.extractLsb' 56 4).toNat + 1, wait := w.extractLsb' 44 12, fa, fb, yield := w.getLsbD 33 }
  | _, _, _ => none

def encFlag : Option Nat → Nat
  | none => 0
  | some n => 16 + n

/-- The word of a header. -/
def encodeHeader (h : Header) : W64 :=
  BitVec.ofNat 64 (encCls h.cls * 2 ^ 60 + (h.count - 1) * 2 ^ 56 + h.wait.toNat * 2 ^ 44 + encFlag h.fa * 2 ^ 39 +
    encFlag h.fb * 2 ^ 34 + (if h.yield then 1 else 0) * 2 ^ 33)

/-- The bytes of a word, lowest address first (R4). -/
def wordBytes (n : Nat) (w : Nat) : List Byte :=
  match n with
  | 0 => []
  | k + 1 => BitVec.ofNat 8 w :: wordBytes k (w / 256)

/-- A little-endian value of bytes (R4). -/
def bytesVal : List Byte → Nat
  | [] => 0
  | b :: bs => b.toNat + 256 * bytesVal bs

/-- The decoder on bytes: the eight bytes of one word, and the rest. -/
def decodeBytes (c : Cls) (bs : List Byte) : Option (Instr × List Byte) :=
  if bs.length < 8 then none
  else
    match decodeWord c (BitVec.ofNat 64 (bytesVal (bs.take 8))) with
    | .ok i => some (i, bs.drop 8)
    | .error _ => none

/-- The instruction of a table row's bits. The table gives no row any bits, so the reading is the model's: up to 64 bits
are one press-class word; 65 to 128 bits are a clause header (which gives the class, R63) and the word that follows it. -/
def decodeTableWord (nbits w : Nat) : Option Instr :=
  if nbits ≤ 64 then (decodeBytes .press (wordBytes 8 (w % 2 ^ nbits))).map (·.1)
  else if nbits ≤ 128 then
    let bs := wordBytes 16 (w % 2 ^ nbits)
    match decodeHeader (BitVec.ofNat 64 (bytesVal (bs.take 8))) with
    | some h => (decodeBytes h.cls (bs.drop 8)).map (·.1)
    | none => none
  else none

/-- The word of an instruction, by the same tables; a transition is no word. -/
def encode : Instr → Option W64
  | .smov f => some (encS 0x000 f)
  | .smovi f => some (encI 0x001 f)
  | .sadd f => some (encS 0x002 f)
  | .ssub f => some (encS 0x003 f)
  | .smul f => some (encS 0x004 f)
  | .smulh f => some (encS 0x005 f)
  | .sand f => some (encS 0x006 f)
  | .sor f => some (encS 0x007 f)
  | .sxor f => some (encS 0x008 f)
  | .sshl f => some (encS 0x009 f)
  | .sshr f => some (encS 0x00A f)
  | .ssra f => some (encS 0x00B f)
  | .smin f => some (encS 0x00C f)
  | .smax f => some (encS 0x00D f)
  | .scmp f => some (encS 0x00E f)
  | .ssel f => some (encS 0x00F f)
  | .sclz f => some (encS 0x010 f)
  | .spopc f => some (encS 0x011 f)
  | .sbfe f => some (encS 0x012 f)
  | .sbfi f => some (encS 0x013 f)
  | .bra f => some (encB 0x080 f)
  | .bru f => some (encB 0x081 f)
  | .brv f => some (encB 0x082 f)
  | .brau f => some (encB 0x083 f)
  | .skip f => some (encK 0x084 f)
  | .call f => some (encBL 0x085 f)
  | .ret f => some (encB 0x086 f)
  | .join f => some (encB 0x087 f)
  | .gangAll f => some (encK 0x088 f)
  | .exit f => some (encK 0x089 f)
  | .trap f => some (encK 0x08A f)
  | .yield f => some (encB 0x08B f)
  | .nop f => some (encK 0x08C f)
  | .mand f => some (encS 0x090 f)
  | .mor f => some (encS 0x091 f)
  | .mxor f => some (encS 0x092 f)
  | .mnot f => some (encS 0x093 f)
  | .mmov f => some (encS 0x094 f)
  | .mpopc f => some (encS 0x095 f)
  | .mfirst f => some (encS 0x096 f)
  | .measure f => some (encS 0x097 f)
  | .srd f => some (encS 0x098 f)
  | .swr f => some (encS 0x099 f)
  | .vadd f => some (encA2 0x100 f)
  | .vsub f => some (encA2 0x101 f)
  | .vmul f => some (encA2 0x102 f)
  | .vmulh f => some (encA2 0x103 f)
  | .vmad f => some (encA3 0x104 f)
  | .vand f => some (encA2 0x105 f)
  | .vor f => some (encA2 0x106 f)
  | .vxor f => some (encA2 0x107 f)
  | .vnot f => some (encA2 0x108 f)
  | .vshl f => some (encA2 0x109 f)
  | .vshr f => some (encA2 0x10A f)
  | .vsra f => some (encA2 0x10B f)
  | .vmin f => some (encA2 0x10C f)
  | .vmax f => some (encA2 0x10D f)
  | .vabs f => some (encA2 0x10E f)
  | .vclz f => some (encA2 0x10F f)
  | .vpopc f => some (encA2 0x110 f)
  | .vbfe f => some (encA3 0x111 f)
  | .vbfi f => some (encA3 0x112 f)
  | .vsel f => some (encA3 0x113 f)
  | .vcmp f => some (encA2S 0x114 f)
  | .vmov f => some (encA2 0x115 f)
  | .vmovi f => some (encI 0x116 f)
  | .vadd2 f => some (encA2 0x120 f)
  | .vsub2 f => some (encA2 0x121 f)
  | .vmac2 f => some (encA3 0x122 f)
  | .vdot4 f => some (encA3 0x123 f)
  | .vqadd f => some (encA2 0x124 f)
  | .vqsub f => some (encA2 0x125 f)
  | .vshrr f => some (encA2 0x126 f)
  | .vpack f => some (encA2 0x127 f)
  | .vunpack f => some (encA2S 0x128 f)
  | .vfadd f => some (encF2 0x180 f)
  | .vfsub f => some (encF2 0x181 f)
  | .vfmul f => some (encF2 0x182 f)
  | .vfma f => some (encA3 0x183 f)
  | .vfmin f => some (encF2 0x184 f)
  | .vfmax f => some (encF2 0x185 f)
  | .vfrcp f => some (encF2 0x186 f)
  | .vfrsq f => some (encF2 0x187 f)
  | .vfsqrt f => some (encF2 0x188 f)
  | .vfexp2 f => some (encF2 0x189 f)
  | .vflog2 f => some (encF2 0x18A f)
  | .vfcmp f => some (encA2S 0x18B f)
  | .vfclass f => some (encA2 0x18C f)
  | .vcvt f => some (encCV 0x190 f)
  | .vfcvt f => some (encCV 0x191 f)
  | .vftoi f => some (encCV 0x192 f)
  | .vitof f => some (encCV 0x193 f)
  | .vshfl f => some (encA3S 0x200 f)
  | .vshflx f => some (encA3S 0x201 f)
  | .vslide f => some (encA3S 0x202 f)
  | .vbcast f => some (encA3S 0x203 f)
  | .vvote f => some (encA2S 0x204 f)
  | .vreduce f => some (encA2S 0x205 f)
  | .vscan f => some (encA2S 0x206 f)
  | .ld f => some (encM 0x280 f)
  | .st f => some (encM 0x281 f)
  | .lds f => some (encM 0x282 f)
  | .sts f => some (encM 0x283 f)
  | .prefetch f => some (encM 0x284 f)
  | .atom f => some (encMA 0x288 f)
  | .atomf f => some (encMA 0x289 f)
  | .atomcas f => some (encMA 0x28A f)
  | .commit f => some (encY 0x300 f)
  | .commitc f => some (encY 0x301 f)
  | .mark f => some (encY 0x302 f)
  | .abort f => some (encY 0x303 f)
  | .waitcnt f => some (encY 0x304 f)
  | .bara f => some (encY 0x308 f)
  | .barw f => some (encY 0x309 f)
  | .bars f => some (encY 0x30A f)
  | .barx f => some (encY 0x30B f)
  | .vralloc f => some (encS 0x380 f)
  | .rte f => some (encK 0x381 f)
  | .launch f => some (encS 0x382 f)
  | .sigop f => some (encS 0x383 f)
  | .mma f => some (encMX 0x000 f)
  | .mmas f => some (encMX 0x001 f)
  | .mmac f => some (encMX 0x002 f)
  | .mmag f => some (encMX 0x003 f)
  | .qhist f => some (encQ 0x010 f)
  | .qscale f => some (encQ 0x011 f)
  | .qcvt f => some (encQ 0x012 f)
  | .qclr f => some (encQ 0x013 f)
  | .rqcopy f => some (encRQ 0x000 f)
  | .rqfill f => some (encRQ 0x001 f)
  | .rqgather f => some (encRQ 0x002 f)
  | .rqscatter f => some (encRQ 0x003 f)
  | .rqputs f => some (encRQ 0x004 f)
  | .rqred f => some (encRQ 0x005 f)
  | .rqlist f => some (encRQ 0x006 f)
  | .rqswap f => some (encRQ 0x007 f)
  | .pktld f => some (encQ 0x000 f)
  | .pktdone f => some (encQ 0x001 f)
  | .sigrmw f => some (encQ 0x002 f)
  | .qsave f => some (encQ 0x003 f)
  | .qload f => some (encQ 0x004 f)
  | .dispatch f => some (encQ 0x005 f)
  | .pendscan f => some (encQ 0x006 f)
  | .qarm f => some (encQ 0x007 f)
  | .dbgrd f => some (encQ 0x000 f)
  | .dbgwr f => some (encQ 0x001 f)
  | .dstep f => some (encQ 0x002 f)
  | .dresume f => some (encQ 0x003 f)
  | .dreturn f => some (encQ 0x004 f)
  | .wpset f => some (encQ 0x005 f)
  | .trctl f => some (encQ 0x006 f)
  | .vhrd f => some (encQ 0x007 f)
  | .clauseStart _ _ _ => none
  | .merge _ => none
  | .joinRelease _ => none
  | .collectiveWaitEnd _ => none
  | .budgetRefill _ _ => none
  | .tempRefresh _ _ => none
  | .blockPlace _ => none
  | .roomAdvertise _ => none
  | .blockPass _ => none
  | .quantumExpiry _ => none
  | .dueClock _ => none
  | .resolve _ _ => none
  | .grant _ => none
  | .atomic _ _ _ => none
  | .cabort _ _ => none
  | .land _ _ => none
  | .phase _ _ => none
  | .deliver _ _ _ => none
  | .gangRetire _ => none
  | .blockRetire _ => none
  | .clusterRetire _ => none
  | .blockCompletionEvent _ => none
  | .trapEntry _ => none
  | .atsCompletion _ _ _ => none
  | .priResponse _ _ _ => none
  | .invalidation _ _ _ => none
  | .invalidationCompletion _ _ _ => none
  | .preemptRequest _ _ => none
  | .contextSave _ => none
  | .blockRestore _ => none
  | .mstart _ _ => none
  | .rqmove _ _ _ => none
  | .rqsignal _ _ => none
  | .rqlistBlockFetch _ => none
  | .kick _ _ => none
  | .packetComplete _ _ => none
  | .pendscanWake _ => none
  | .signalRecheck _ => none
  | .bankSwitch _ => none
  | .fwVerifyDone _ => none
  | .unlockVerifyDone _ => none
  | .pull _ => none
  | .guestReturn _ => none
  | .arrivalMessage _ => none
  | .releaseMessage _ => none
  | .clauseCountMessage _ _ => none
  | .debugHandlerEntry _ => none
  | .traceDrain _ => none
  | .frameArrival _ _ _ => none
  | .framePublish _ => none
  | .portDown _ => none
  | .linkRetryTimeout _ => none
  | .domainTableInstall => none
  | .powerOnStart _ => none
  | .functionLevelReset => none
  | .correctedError _ => none
  | .errorWindow _ => none
  | .thermalLimit _ => none
  | .thermalStop _ => none
  | .featAccWrite _ => none
  | .registerQueue _ _ => none
  | .teardownPasid _ _ => none
  | .destroyCtx _ _ => none
  | .preempt _ _ => none
  | .loadFw _ _ => none
  | .keyslotWrite _ _ _ => none
  | .unlock _ _ => none
  | .domainSet _ _ => none
  | .streamSet _ _ => none
  | .streamMap _ _ => none
  | .startClear _ _ => none
  | .hcmdUnknownOp _ _ _ => none
  | .hcmdIgnored _ => none
  | .commandDone => none
  | .dbgAttnWrite _ => none
  | .dbgRevokeWrite _ => none
  | .triggerRegisterWrite _ _ _ _ => none
  | .ptpsecRead _ => none
  | .ptpadjWrite _ _ => none
  | .registerWrite _ _ => none
  | .childLaunch _ _ => none
  | .powerAverageWindow _ => none
  | .powerLoss _ => none

end Sys2Proof
end

