-- ==== Sys2Proof/Machine/Bits.lean ====
section
/-!
DEFINITION. Bit-field, sign-extension and lane-set helpers (R4, R66, R67, R83, R84).
-/
namespace Sys2Proof.Machine

/-- The low w bits of a natural number read as a two's-complement number (R83). -/
def sintOf (w x : Nat) : Int :=
  let y := x % 2 ^ w
  if w = 0 then 0 else if y < 2 ^ (w - 1) then (y : Int) else (y : Int) - (2 ^ w : Nat)

/-- An integer reduced modulo 2^w (R97). -/
def wrapI (w : Nat) (x : Int) : Nat := (x % ((2 ^ w : Nat) : Int)).toNat

/-- A small immediate as an integer, -64 to 63 (R67). -/
def immInt (i : BitVec 7) : Int := i.toInt

/-- Bits [hi:lo] of a number. -/
def bits (x hi lo : Nat) : Nat := x / 2 ^ lo % 2 ^ (hi + 1 - lo)

def bit (x k : Nat) : Bool := x / 2 ^ k % 2 == 1

/-- Number of one bits among the low w. -/
def popcount (w x : Nat) : Nat := ((List.range w).filter (fun k => bit x k)).length

/-- Number of leading zeros of the low w bits: w for 0 (R107). -/
def leadingZeros (w x : Nat) : Nat := w - (if x % 2 ^ w = 0 then 0 else Nat.log2 (x % 2 ^ w) + 1)

/-! ## Lane sets -/

/-- Lanes of a set in ascending number (R6). -/
def laneList (l : Lanes) : List Nat := (List.range 128).filter (fun k => l.getLsbD k)

def sliceList (x : Slices) : List Nat := (List.range 16).filter (fun k => x.getLsbD k)

/-- The lowest lane of a set, or 128. -/
def lowLane (l : Lanes) : Nat := ((laneList l).head?).getD 128

def lowSlice (x : Slices) : Nat := ((sliceList x).head?).getD 16

/-- The eight lanes of a slice (R38). -/
def lanesOfSlice (k : Nat) : Lanes := (0xFF : Lanes) <<< (8 * k)

/-- All lanes of a set of slices. -/
def lanesOf (x : Slices) : Lanes := (sliceList x).foldl (fun a k => a ||| lanesOfSlice k) 0

/-- The slices that hold a lane of the set. -/
def slicesOf (l : Lanes) : Slices :=
  (List.range 16).foldl (fun (a : Slices) k => if l &&& lanesOfSlice k != 0 then a ||| (1 : Slices) <<< k else a) 0

def laneCount (l : Lanes) : Nat := (laneList l).length
def sliceCount (x : Slices) : Nat := (sliceList x).length

/-- The lowest n lanes. -/
def lowLanes (n : Nat) : Lanes := BitVec.ofNat 128 (2 ^ n - 1)

/-- The lowest n slices. -/
def lowSlices (n : Nat) : Slices := BitVec.ofNat 16 (2 ^ n - 1)

/-- A lane set from its members. -/
def lanesOfList (l : List Nat) : Lanes := l.foldl (fun a k => a ||| (1 : Lanes) <<< k) 0

def Lanes1 (k : Nat) : Lanes := (1 : Lanes) <<< k

/-! ## Words and pairs -/

/-- A pair of registers as one 64-bit value: the even register holds the low half (R84). -/
def pair (lo hi : W32) : W64 := BitVec.ofNat 64 (lo.toNat + hi.toNat * 2 ^ 32)

def loHalf (x : W64) : W32 := BitVec.ofNat 32 x.toNat
def hiHalf (x : W64) : W32 := BitVec.ofNat 32 (x.toNat / 2 ^ 32)

/-- A w-bit value placed in a 32-bit element: sign extension for `i` types, zeros for the others (R84). -/
def extendTy (t : Ty) (x : Nat) : Nat :=
  if t.isI && t.width < 32 then wrapI 32 (sintOf t.width x) else x % 2 ^ t.width

/-- The distinct members of a list, in order of first occurrence. -/
def uniq (l : List Nat) : List Nat := l.foldl (fun acc x => if acc.contains x then acc else acc ++ [x]) []

/-- Ceiling division. -/
def cdiv (a b : Nat) : Nat := (a + b - 1) / b

def roundUp (a k : Nat) : Nat := cdiv a k * k

end Sys2Proof.Machine
end

