-- ==== Sys2Proof/Machine/Float.lean ====
section
/-!
DEFINITION. Floating-point formats, exact values, and the one rounding of R90 to R97: every float result is an exact real
(a dyadic number, with a sticky mark where the exact result is irrational) rounded once.
-/
namespace Sys2Proof.Machine

/-! ## Sticky bits of `%astatus` (R98) -/

def flagNV : W32 := 0x01
def flagDZ : W32 := 0x02
def flagOF : W32 := 0x04
def flagUF : W32 := 0x08
def flagNX : W32 := 0x10
def flagSAT : W32 := 0x20
def flagO4 : W32 := 0x40

/-! ## Formats -/

/-- A format of R85: widths of E and M, bias, whether E all ones is reserved for infinity and NaN, whether only the
all-ones pattern is NaN (E4M3), and whether it has no NaN (E2M1). -/
structure FFmt where
  (ebits mbits : Nat)
  (bias : Int)
  (hasInf onesNaN : Bool)
  (canonNaN : Nat)
deriving DecidableEq, Repr, Inhabited

def fmt64 : FFmt := ⟨11, 52, 1023, true, false, 0x7FF8000000000000⟩
def fmt32 : FFmt := ⟨8, 23, 127, true, false, 0x7FC00000⟩
def fmt16 : FFmt := ⟨5, 10, 15, true, false, 0x7E00⟩
def fmtB16 : FFmt := ⟨8, 7, 127, true, false, 0x7FC0⟩
def fmtE4M3 : FFmt := ⟨4, 3, 7, false, true, 0x7F⟩
def fmtE5M2 : FFmt := ⟨5, 2, 15, true, false, 0x7E⟩
def fmtE2M1 : FFmt := ⟨2, 1, 1, false, false, 0⟩

/-- The format of a float TYPE (R70). -/
def Ty.ffmt : Ty → FFmt
  | .f64 => fmt64
  | .f16 => fmt16
  | .bf16 => fmtB16
  | _ => fmt32

/-- Width of a format in bits. -/
def FFmt.width (f : FFmt) : Nat := 1 + f.ebits + f.mbits

/-- Largest finite magnitude as a bit pattern (R85). -/
def FFmt.maxBits (f : FFmt) : Nat :=
  if f.hasInf then (2 ^ f.ebits - 1) * 2 ^ f.mbits - 1
  else if f.onesNaN then 2 ^ (f.ebits + f.mbits) - 2
  else 2 ^ (f.ebits + f.mbits) - 1

def FFmt.infBits (f : FFmt) : Nat := (2 ^ f.ebits - 1) * 2 ^ f.mbits

/-- Smallest normal exponent. -/
def FFmt.emin (f : FFmt) : Int := 1 - f.bias

/-- An exact value: NaN (signalling or not), an infinity, or ±m × 2^e; a zero has m = 0 and keeps its sign. -/
inductive FVal
  | nan (signalling : Bool)
  | inf (neg : Bool)
  | fin (neg : Bool) (m : Nat) (e : Int)
deriving DecidableEq, Repr, Inhabited

def FVal.zero (neg : Bool) : FVal := .fin neg 0 0

/-- The value of a bit pattern (R85). -/
def FFmt.decode (f : FFmt) (x : Nat) : FVal :=
  let neg := bit x (f.ebits + f.mbits)
  let e := x / 2 ^ f.mbits % 2 ^ f.ebits
  let m := x % 2 ^ f.mbits
  if f.hasInf && e == 2 ^ f.ebits - 1 then
    if m = 0 then .inf neg else .nan (m < 2 ^ (f.mbits - 1))
  else if f.onesNaN && x % 2 ^ (f.ebits + f.mbits) == 2 ^ (f.ebits + f.mbits) - 1 then .nan false
  else if e = 0 then .fin neg m (f.emin - f.mbits)
  else .fin neg (m + 2 ^ f.mbits) (e - f.bias - f.mbits)

/-- E8M0 (R85): 2^(e - 127), NaN for 0xFF. -/
def decodeE8M0 (x : Nat) : FVal := if x % 256 = 0xFF then .nan false else .fin false 1 ((x % 256 : Nat) - 127)

/-! ## Rounding -/

/-- m × 2^e as a count of quanta 2^q, rounded by the mode (R90), and whether it is inexact. -/
def roundAt (rnd : Rnd) (neg : Bool) (m : Nat) (e q : Int) : Nat × Bool :=
  if q ≤ e then (m * 2 ^ (e - q).toNat, false)
  else
    let d := 2 ^ (q - e).toNat
    let n := m / d
    let r := m % d
    let up := match rnd with
      | .rne => d < 2 * r || (2 * r == d && n % 2 == 1)
      | .rtz => false
      | .rdn => neg && r != 0
      | .rup => !neg && r != 0
    (if up then n + 1 else n, r != 0)

/-- Is n × 2^q greater than the largest finite magnitude? -/
def FFmt.above (f : FFmt) (n : Nat) (q : Int) : Bool :=
  match f.decode f.maxBits with
  | .fin _ mm me => if q ≤ me then mm * 2 ^ (me - q).toNat < n else mm < n * 2 ^ (q - me).toNat
  | _ => false

def FFmt.signBit (f : FFmt) (neg : Bool) : Nat := if neg then 2 ^ (f.ebits + f.mbits) else 0

/-- What an overflow writes (R91). -/
def FFmt.overflowBits (f : FFmt) (rnd : Rnd) (sat neg : Bool) : Nat :=
  let toMax := sat || !f.hasInf || f.mbits == 2 ||
    (match rnd with
     | .rne => false
     | .rtz => true
     | .rdn => !neg
     | .rup => neg)
  f.signBit neg + (if toMax then f.maxBits else f.infBits)

/-- A finite value rounded into the format, and the sticky bits (R90, R91). -/
def FFmt.roundFin (f : FFmt) (rnd : Rnd) (sat neg : Bool) (m : Nat) (e : Int) : Nat × W32 :=
  if m = 0 then (f.signBit neg, 0)
  else
    let top := (Nat.log2 m : Int) + e
    let qU := top - f.mbits
    let u := roundAt rnd neg m e qU
    if f.above u.1 qU then (f.overflowBits rnd sat neg, flagOF ||| flagNX)
    else
      let q := max qU (f.emin - f.mbits)
      let r := roundAt rnd neg m e q
      let mag := if r.1 < 2 ^ f.mbits then r.1 else ((q + f.mbits + f.bias).toNat - 1) * 2 ^ f.mbits + r.1
      -- tininess after rounding with an unbounded exponent (R90)
      let tiny := if qU + f.mbits + 1 < f.emin then true
        else if f.emin ≤ qU then false else decide (u.1 < 2 ^ (f.emin - qU).toNat)
      (f.signBit neg + mag, if r.2 then (if tiny then flagUF ||| flagNX else flagNX) else 0)

/-- A value into a format (R91, R94): infinities and NaNs by the destination. -/
def FFmt.round (f : FFmt) (rnd : Rnd) (sat : Bool) (v : FVal) : Nat × W32 :=
  match v with
  | .nan sig => (f.canonNaN, if sig then flagNV else 0)
  | .inf neg => (f.signBit neg + (if f.hasInf then f.infBits else f.maxBits), 0)
  | .fin neg m e => f.roundFin rnd sat neg m e

/-- `round_rne(x, F)` of the pseudocode. -/
def FFmt.rne (f : FFmt) (v : FVal) : Nat × W32 := f.round .rne false v

/-- A value into E8M0 (R90, R92): the sign is ignored. -/
def roundE8M0 (rnd : Rnd) (v : FVal) : Nat × W32 :=
  match v with
  | .nan _ => (0xFF, flagNV)
  | .inf _ => (0xFE, 0)
  | .fin _ m e =>
    if m = 0 then (0, flagUF ||| flagNX)
    else
      let k := Nat.log2 m
      let exact := m == 2 ^ k
      let E : Int := k + e
      let up := if exact then false else match rnd with
        | .rtz | .rdn => false
        | .rup => true
        | .rne => 3 * 2 ^ k < 2 * m || (3 * 2 ^ k == 2 * m && E % 2 != 0)
      let E' := if up then E + 1 else E
      if 127 < E' then (0xFE, flagOF ||| flagNX)
      else if E' < -127 then (0, flagUF ||| flagNX)
      else ((E' + 127).toNat, if exact then 0 else flagNX)

/-! ## Exact arithmetic -/

def FVal.isNaN : FVal → Bool
  | .nan _ => true
  | _ => false

def FVal.isSig : FVal → Bool
  | .nan s => s
  | _ => false

def FVal.isZero : FVal → Bool
  | .fin _ 0 _ => true
  | _ => false

def FVal.negate : FVal → FVal
  | .nan s => .nan s
  | .inf n => .inf (!n)
  | .fin n m e => .fin (!n) m e

/-- NV for a signalling operand (R94). -/
def sigFlag (l : List FVal) : W32 := if l.any FVal.isSig then flagNV else 0

def qnan : FVal := .nan false

/-- A signed integer times 2^e. -/
def signed (neg : Bool) (m : Nat) : Int := if neg then -(m : Int) else m

/-- The exact sum of two finite values; an exact zero of opposite signs is +0, or -0 under RDN (R90). -/
def addFin (rnd : Rnd) (n1 : Bool) (m1 : Nat) (e1 : Int) (n2 : Bool) (m2 : Nat) (e2 : Int) : FVal :=
  let e := min e1 e2
  let x := signed n1 (m1 * 2 ^ (e1 - e).toNat) + signed n2 (m2 * 2 ^ (e2 - e).toNat)
  if x = 0 then .fin (if n1 == n2 then n1 else rnd == .rdn) 0 e
  else .fin (x < 0) x.natAbs e

/-- a + b before rounding, with NV for ∞ - ∞ and for a signalling operand (R94). -/
def addV (rnd : Rnd) (a b : FVal) : FVal × W32 :=
  let sg := sigFlag [a, b]
  match a, b with
  | .nan _, _ => (qnan, sg)
  | _, .nan _ => (qnan, sg)
  | .inf n1, .inf n2 => if n1 == n2 then (.inf n1, 0) else (qnan, flagNV)
  | .inf n, _ => (.inf n, 0)
  | _, .inf n => (.inf n, 0)
  | .fin n1 m1 e1, .fin n2 m2 e2 => (addFin rnd n1 m1 e1 n2 m2 e2, 0)

/-- a · b before rounding, with NV for ∞ × 0 (R94). -/
def mulV (a b : FVal) : FVal × W32 :=
  let sg := sigFlag [a, b]
  match a, b with
  | .nan _, _ => (qnan, sg)
  | _, .nan _ => (qnan, sg)
  | .inf n1, .inf n2 => (.inf (n1 != n2), 0)
  | .inf n1, .fin n2 m _ => if m = 0 then (qnan, flagNV) else (.inf (n1 != n2), 0)
  | .fin n1 m _, .inf n2 => if m = 0 then (qnan, flagNV) else (.inf (n1 != n2), 0)
  | .fin n1 m1 e1, .fin n2 m2 e2 => (.fin (n1 != n2) (m1 * m2) (e1 + e2), 0)

/-- a · b + c with one rounding to follow; ∞ × 0 sets NV even with a quiet NaN c (R94). -/
def fmaV (rnd : Rnd) (a b c : FVal) : FVal × W32 :=
  let p := mulV a b
  let r := addV rnd p.1 c
  (r.1, p.2 ||| r.2)

/-- Compare two finite or infinite values as reals: negative, zero or positive (-0 equals +0). -/
def FVal.cmp (a b : FVal) : Int :=
  let key : FVal → Int × Nat × Int := fun
    | .inf n => (if n then -2 else 2, 0, 0)
    | .nan _ => (0, 0, 0)
    | .fin n m e => (if m = 0 then 0 else if n then -1 else 1, m, e)
  let ka := key a
  let kb := key b
  if ka.1 ≠ kb.1 then ka.1 - kb.1
  else if ka.1 == 1 || ka.1 == -1 then
    let e := min ka.2.2 kb.2.2
    ka.1 * (((ka.2.1 * 2 ^ (ka.2.2 - e).toNat : Nat) : Int) - ((kb.2.1 * 2 ^ (kb.2.2 - e).toNat : Nat) : Int))
  else 0

def FVal.sign : FVal → Bool
  | .nan _ => false
  | .inf n => n
  | .fin n _ _ => n

/-- minimumNumber and maximumNumber with -0 below +0 (R95): the value, with NV for a signalling operand. -/
def minmaxV (isMax : Bool) (a b : FVal) : FVal × W32 :=
  let sg := sigFlag [a, b]
  match a, b with
  | .nan _, .nan _ => (qnan, sg)
  | .nan _, _ => (b, sg)
  | _, .nan _ => (a, sg)
  | _, _ =>
    let c := a.cmp b
    let aLess := if c = 0 then a.sign && !b.sign else decide (c < 0)
    (if aLess == isMax then b else a, sg)

/-- A float comparison and its NV (R71, R96). -/
def cmpV (op : Nat) (a b : FVal) : Bool × W32 :=
  let un := a.isNaN || b.isNaN
  let sg := sigFlag [a, b]
  let c := a.cmp b
  match op with
  | 0 => (!un && c == 0, sg)
  | 1 => (un || c != 0, sg)
  | 2 => (!un && decide (c < 0), if un then flagNV else 0)
  | 3 => (!un && decide (c ≤ 0), if un then flagNV else 0)
  | 4 => (!un && decide (0 < c), if un then flagNV else 0)
  | 5 => (!un && decide (0 ≤ c), if un then flagNV else 0)
  | 6 => (!un, sg)
  | _ => (un, sg)

/-- The one-hot class of `vfclass` (R141). -/
def FFmt.classOf (f : FFmt) (v : FVal) : Nat :=
  match v with
  | .inf n => if n then 1 else 2 ^ 7
  | .nan s => if s then 2 ^ 8 else 2 ^ 9
  | .fin n m e =>
    if m = 0 then (if n then 2 ^ 3 else 2 ^ 4)
    else
      let sub := (Nat.log2 m : Int) + e < f.emin
      if n then (if sub then 2 ^ 2 else 2) else (if sub then 2 ^ 5 else 2 ^ 6)

/-! ## Reciprocal, roots, exponential and logarithm (R140) -/

/-- A quotient or root whose discarded part is nonzero: the next bit is set, which rounds as the exact value does. -/
def sticky (neg : Bool) (m : Nat) (e : Int) (inexact : Bool) : FVal :=
  .fin neg (2 * m + (if inexact then 1 else 0)) (e - 1)

def isqrtAux : Nat → Nat → Nat → Nat
  | 0, n, r => if (r + 1) * (r + 1) ≤ n then r + 1 else r
  | k + 1, n, r => let r' := r + 2 ^ (k + 1); isqrtAux k n (if r' * r' ≤ n then r' else r)

/-- Integer square root, rounded down. -/
def isqrt (n : Nat) : Nat := isqrtAux (Nat.log2 n / 2 + 1) n 0

/-- Extra bits kept in a quotient or root. -/
def extraBits : Nat := 200

/-- 1 / a. -/
def rcpV (a : FVal) : FVal × W32 :=
  match a with
  | .nan s => (qnan, if s then flagNV else 0)
  | .inf n => (.zero n, 0)
  | .fin n m e =>
    if m = 0 then (.inf n, flagDZ)
    else
      let k := Nat.log2 m + extraBits
      (sticky n (2 ^ k / m) (-e - k) (2 ^ k % m != 0), 0)

/-- √a. -/
def sqrtV (a : FVal) : FVal × W32 :=
  match a with
  | .nan s => (qnan, if s then flagNV else 0)
  | .inf n => if n then (qnan, flagNV) else (.inf false, 0)
  | .fin n m e =>
    if m = 0 then (.zero n, 0)
    else if n then (qnan, flagNV)
    else
      let m2 := if e % 2 = 0 then m else 2 * m
      let e2 := if e % 2 = 0 then e else e - 1
      let big := m2 * 2 ^ (2 * extraBits)
      let r := isqrt big
      (sticky false r (e2 / 2 - extraBits) (r * r != big), 0)

/-- 1 / √a. -/
def rsqrtV (a : FVal) : FVal × W32 :=
  match a with
  | .nan s => (qnan, if s then flagNV else 0)
  | .inf n => if n then (qnan, flagNV) else (.zero false, 0)
  | .fin n m e =>
    if m = 0 then (.inf false, flagDZ)
    else if n then (qnan, flagNV)
    else
      let m2 := if e % 2 = 0 then m else 2 * m
      let e2 := if e % 2 = 0 then e else e - 1
      let k := Nat.log2 m2 + extraBits
      let r := isqrt (2 ^ (2 * k) / m2)
      (sticky false r (-(e2 / 2) - k) (r * r * m2 != 2 ^ (2 * k)), 0)

/-- 2^400, the scale of the exponential series. -/
def scaleE : Nat := 2 ^ 200 * 2 ^ 200

/-- 2^700, the scale of the repeated squaring. -/
def scaleL : Nat := 2 ^ 250 * 2 ^ 250 * 2 ^ 200

/-- ln 2 × 2^400, rounded down. -/
def ln2Scaled : Nat :=
  0xb17217f7d1cf79abc9e3b39803f2f6af40f343267298b62d8a0d175b8baafa2be7b876206debac98559552fb4afa1b10ed2e

/-- Terms x^i / i! of the exponential series, scaled by 2^400. -/
def expSeries : Nat → Nat → Nat → Nat → Nat → Nat
  | 0, _, _, _, acc => acc
  | k + 1, i, x, t, acc =>
    let t' := t * x / scaleE / i
    expSeries k (i + 1) x t' (acc + t')

/-- 2^a (R140): an integer a is exact; any other dyadic a gives an irrational number, kept to 400 bits and sticky. -/
def exp2V (a : FVal) : FVal × W32 :=
  match a with
  | .nan s => (qnan, if s then flagNV else 0)
  | .inf n => if n then (.zero false, 0) else (.inf false, 0)
  | .fin n m e =>
    if m = 0 then (.fin false 1 0, 0)
    else
      -- beyond every range of the types the result over- or underflows
      if 12 ≤ (Nat.log2 m : Int) + e then (.fin false 1 (if n then -4096 else 4096), 0)
      else if 0 ≤ e then (.fin false 1 (signed n (m * 2 ^ e.toNat)), 0)
      else
        let d : Nat := 2 ^ (-e).toNat
        let x := signed n m
        let k := x / (d : Int)
        let f : Nat := (x % (d : Int)).toNat
        if f = 0 then (.fin false 1 k, 0)
        else
          let y : Nat := f * ln2Scaled / d
          (sticky false (expSeries 100 1 y scaleE scaleE) (k - 400) true, 0)

/-- Binary digits of log2 y by repeated squaring; y in [1, 2) scaled by 2^700. -/
def log2Digits : Nat → Nat → Nat → Nat
  | 0, _, acc => acc
  | k + 1, y, acc =>
    let y2 := y * y / scaleL
    if y2 < 2 * scaleL then log2Digits k y2 (2 * acc) else log2Digits k (y2 / 2) (2 * acc + 1)

/-- log2 a (R140): a power of two is exact; any other value is irrational, kept to 300 fraction bits and sticky. -/
def log2V (a : FVal) : FVal × W32 :=
  match a with
  | .nan s => (qnan, if s then flagNV else 0)
  | .inf n => if n then (qnan, flagNV) else (.inf false, 0)
  | .fin n m e =>
    if m = 0 then (.inf true, flagDZ)
    else if n then (qnan, flagNV)
    else
      let k := Nat.log2 m
      let ip : Int := k + e
      if m = 2 ^ k then (.fin (ip < 0) ip.natAbs 0, 0)
      else
        -- digits of the fraction, rounded down; half a unit more keeps a negative sum on the right side
        let fr := log2Digits 300 (m * scaleL / 2 ^ k) 0
        let x : Int := ip * (2 ^ 200 * 2 ^ 101 : Nat) + ((2 * fr + 1 : Nat) : Int)
        (.fin (x < 0) x.natAbs (-301), 0)

/-! ## Press-class results -/

/-- Flush of an FP32 operand under FTZ (R93). -/
def ftzOperand (ftz : Bool) (v : FVal) : FVal :=
  match v with
  | .fin n m e => if ftz && m != 0 && (Nat.log2 m : Int) + e < -126 then .zero n else v
  | _ => v

/-- A result in the format of a TYPE, with FTZ on FP32 results (R93). -/
def finishTy (t : Ty) (rnd : Rnd) (sat ftz : Bool) (v : FVal × W32) : Nat × W32 :=
  let f := Ty.ffmt t
  let r := f.round rnd sat v.1
  if ftz && t == .f32 && r.1 / 2 ^ 23 % 2 ^ 8 == 0 && r.1 % 2 ^ 23 != 0 then
    (r.1 / 2 ^ 31 * 2 ^ 31, v.2 ||| r.2 ||| flagUF ||| flagNX)
  else (r.1, v.2 ||| r.2)

/-- A float operand of a TYPE from its bits, flushed where FTZ applies (R93). -/
def operandTy (t : Ty) (ftz : Bool) (x : Nat) : FVal :=
  let v := (Ty.ffmt t).decode (x % 2 ^ t.width)
  if t == .f32 then ftzOperand ftz v else v

/-- A small integer as the bits of a float TYPE, exactly (R67). -/
def immFloat (t : Ty) (i : Int) : Nat := ((Ty.ffmt t).roundFin .rne false (i < 0) i.natAbs 0).1

end Sys2Proof.Machine
end

