-- ==== Sys2Proof/Machine/State.lean ====
section
/-!
DEFINITION. The state of the Siryth 8400 as plain data: every component of R18, R158 and R187, every register of every
core, and the state of the compositor, the proof cores, the host link, the fabric, the ingress ports and the flash.
Tables are lists of records keyed by a number; INVENTORY.md lists each field with the rule that names it.
-/
namespace Sys2Proof.Machine

/-! ## Faults -/

/-- The fault codes of R196. -/
inductive Code
  | illegalClause | illegalInstruction | regRange | uniformDiverged | illegalConvergence | misaligned | spaceInvalid
  | translation | accessDenied | uncorrectable | barrierMisuse | raggedOverrun | requestFault | detViolation
  | nestingOverflow | softwareTrap | debugEvent | doubleFault | packetMalformed | aborted
deriving DecidableEq, Repr, Inhabited

/-- The number of a code (R196). -/
def Code.num : Code → Nat
  | .illegalClause => 0x01 | .illegalInstruction => 0x02 | .regRange => 0x03 | .uniformDiverged => 0x04
  | .illegalConvergence => 0x05 | .misaligned => 0x06 | .spaceInvalid => 0x07 | .translation => 0x08
  | .accessDenied => 0x09 | .uncorrectable => 0x0A | .barrierMisuse => 0x0B | .raggedOverrun => 0x0C
  | .requestFault => 0x0D | .detViolation => 0x0E | .nestingOverflow => 0x0F | .softwareTrap => 0x10
  | .debugEvent => 0x11 | .doubleFault => 0x14 | .packetMalformed => 0x15 | .aborted => 0x16

/-- Why a step of the model itself stops. The faults of the ISA are no such stop: they are next states (R197, R202). -/
inductive Fault
  /-- Raised by `translate` and the request engines when a translation names a frame of this device outside the installed
  DRAM (R1, R9: it does not exist). Safe: the model stops where the spec gives no memory. -/
  | outsideDram (addr : Nat)
deriving DecidableEq, Repr, Inhabited

/-- Why an instruction is refused. -/
inductive Refusal
  /-- Raised by an arm of `exec` for an instruction without a meaning yet. Safe: the model stops. -/
  | notModelled (mnemonic : String)
deriving DecidableEq, Repr, Inhabited

/-! ## Registers, results and outstanding operations -/

/-- Sorted cells: addresses strictly rising, no entry equal to the default 0. -/
abbrev Cells := List Host.Cell

/-- A result bound for a register (R14, R130). -/
inductive RegWrite
  | v (reg lane : Nat) (x : W32)
  | s (reg : Nat) (x : W32)
  | m (reg : Nat) (lanes x : Lanes)
deriving DecidableEq, Repr, Inhabited

/-- The outstanding-operation counters (R15). -/
inductive Ctr
  | ld | st | req | mx | gx | coll
deriving DecidableEq, Repr, Inhabited

/-- One lane's part of a load: the unified byte address, the place of its issue in the order of issues, the effective address,
the own-gang view (R187), and whether an uncorrectable error stood in that (R209). -/
structure Acc where
  (lane addr order : Nat)
  (ea : W64)
  (own : Cells)
  (bad : Bool)
deriving DecidableEq, Repr, Inhabited

/-- One address request of an atomic: its address, the place of its issue in the order of issues (R188, R206), and its lanes
ascending with their operand and compare value (R176). -/
structure AReq where
  (addr order : Nat)
  (ea : W64)
  (lanes : List (Nat × W64 × W64))
  (taken done : Bool)
deriving DecidableEq, Repr, Inhabited

/-- An atomic: operation and type, the level it is performed at, and its requests (R175). -/
structure AtomOp where
  (kind op : Nat)
  (ty : Ty)
  (scope : Scope)
  (dst : Option Nat)
  (reqs : List AReq)
deriving DecidableEq, Repr, Inhabited

/-- A matrix instruction handed to its unit: the issue operands and the gang's own view (R233). -/
structure MatOp where
  (ins : Instr)
  (src : List W32)
  (b c e : W64)
  (own : Cells)
  (table : List Nat)
  (landBytes : Cells)
deriving DecidableEq, Repr, Inhabited

/-- A request of the request engine or the copy engine (R253, R258, R265). -/
structure ReqOp where
  (kind sel : Nat)
  (dst src : W64)
  (count idx : Nat)
  (sig : Option (W64 × W64))
  (bar : Option Nat)
  /-- local offset of the 64-byte block, for a block of a list -/
  (block : Option Nat)
  /-- a block of a list that has not been fetched yet (R258) -/
  (fetched : Bool)
  /-- the due clock of a block of a list, its bytes and its release grant aside (R60, R251) -/
  (own : Option Nat)
  /-- the operation whose release grant is still to be made (R251) -/
  (held : Option Nat)
  /-- units moved, and units appended to a fabric lane and not yet delivered -/
  (moved flying : List Nat)
  (signalled : Bool)
  (reason : Nat)
deriving DecidableEq, Repr, Inhabited

/-- What an outstanding operation is (R187, R188). -/
inductive OpKind
  /-- a load with its lanes (R164); `scalar` for `lds` -/
  | load (ty : Ty) (scalar : Bool) (dst : Nat) (accs : List Acc)
  /-- a store whose bytes are being written into the galley memory -/
  | store
  /-- a commit, or `commitc` with its destination (R168, R171) -/
  | commit (cond : Option Nat)
  | atom (a : AtomOp)
  /-- a computed result: a transcendental, a cross-lane form, a compositor form (R130, R281) -/
  | result
  | matrix (m : MatOp)
  | request (r : ReqOp)
  /-- `launch`: the destination, and the lanes whose descriptor has not been handed over yet (R216) -/
  | launch (dst : Nat) (lanes : List (Nat × W64))
  /-- `sigop`: 0 ADD, 1 STORE, 2 READ; the destination pair, the address and the operand (R219) -/
  | sigop (op dst : Nat) (addr : Nat) (ea x : W64)
deriving DecidableEq, Repr, Inhabited

/-- A latched error of an operation (R209). -/
structure Err where
  (ctr : Option Ctr)
  (flag : Option Nat)
  (code : Code)
  (tval : W64)
deriving DecidableEq, Repr, Inhabited

/-- An operation that has issued and not yet landed. -/
structure Op where
  (id : Nat)
  (kind : OpKind)
  (ctr : Option Ctr)
  (flag : Option Nat)
  /-- resolved, granted, performed or computed -/
  (done : Bool)
  /-- an effect that is still to be taken at its due clock or after a grant -/
  (started : Bool)
  /-- due launch clock of a deterministic launch (R60) -/
  (due : Option Nat)
  /-- address of the instruction word -/
  (pc : W64)
  /-- results to be written at landing -/
  (writes : List RegWrite)
  /-- register elements written since the issue (R14), by the element's key -/
  (rewritten : List Nat)
  /-- `%astatus` bits to be set at landing (R99) -/
  (sticky : W32)
  (err : Option Err)
  /-- smallest allotment since the issue: results for registers at or above it are discarded (R204) -/
  (cut : Nat)
  /-- a WATCH event has been raised by this instruction (R297) -/
  (watched : Bool)
deriving DecidableEq, Repr, Inhabited

/-! ## Galleys -/

/-- A save point: the galley's bytes at the mark, its read set, and the lines written since at each level (R170, R171). -/
structure SavePoint where
  (bytes : Cells)
  (hasReads isOpen overfull : Bool)
  (reads : List Nat)
  (writes : List (Nat × Nat))
deriving DecidableEq, Repr, Inhabited

/-- A galley: pending bytes by unified address, and the mark stack, top first (R18). A pending byte of value 0 is an entry
of its own, so entries are pairs of an address and a byte in a list sorted by address. -/
structure Galley where
  (bytes : List (Nat × Byte))
  (marks : List SavePoint)
deriving DecidableEq, Repr, Inhabited

/-- An entry of the detached list D(g) (R187): the operation it belongs to, its lines, the highest galley moved as a rank
(R167), and the arrival that follows its grant (R183). -/
structure Detached where
  (op : Nat)
  (bytes : List (Nat × Byte))
  (lvl : Nat)
  (cond : Bool)
  /-- barrier number, arriving slices, `bars` (1) or `bara` (0) -/
  (arrive : Option (Nat × Slices × Bool))
  (due : Option Nat)
deriving DecidableEq, Repr, Inhabited

/-! ## Slice-groups -/

/-- What a slice-group is doing (R18 P(g), R48 to R50, R122, R183, R200, R206, R283). -/
inductive GStatus
  /-- at a clause header, or inside a clause it may resume -/
  | ready
  | running
  | heldJoin
  | heldColl
  /-- held at a block-level or cluster-level abort: the rank of the level, and TO -/
  | heldAbort (lvl sel : Nat)
  | heldRte
  /-- asleep at a barrier until its phase number reaches the awaited one, `none` until the gang's arrival counts -/
  | sleepBar (bar : Nat) (phase : Option Nat)
  /-- asleep in `yield` until the `req` counter is at most the number -/
  | sleepYield (n : Nat)
  /-- asleep in `pendscan` with WAIT -/
  | sleepScan
  | waitAts
  | parked
  /-- the debug handler between two events (R296), and a gang moved home that waits for its core (R291) -/
  | idle
deriving DecidableEq, Repr, Inhabited

/-- The clause a group runs or stands inside: its header and words, the index of the next word, the port it holds, the
branch taken, the words that lanes skip (R120), the pending allotment with the least one on the way to it (R204), and the
ended collective wait (R50). -/
structure Run where
  (hdr : W64)
  (header : Header)
  (words : List W64)
  (idx : Nat)
  (port : Option Nat)
  (next : Option W64)
  /-- word index, lanes that skip, and whether all of them do: but for a scalar that reads zero (R120) -/
  (skips : List (Nat × Lanes × Bool))
  (allot : Option (Nat × Nat))
  (collected : Bool)
  /-- the word executes for the lanes of `%pendmask` only, and the operation they join (R206, R207) -/
  (replaying : Bool)
  (replay : Option Nat)
  /-- the word has passed its PC match and issues without being matched again (R296) -/
  (unmatched : Bool)
  /-- a guest's `waitcnt` that holds its clause: it counts as issued (R313) -/
  (holding : Bool)
  /-- it gave up its port at a halt or a hand-over; in a deterministic launch it goes on first (R60, R310; log 23) -/
  (stood : Bool)
deriving DecidableEq, Repr, Inhabited

structure Group where
  (slices : Slices)
  (pc : W64)
  (status : GStatus)
  (run : Option Run)
  /-- header of the clause that holds pc, when the group resumes inside it (R65, R200) -/
  (mid : Option W64)
  /-- predication of the clause a resumption goes on with (R120, R200; log 15), and its pending allotment (R204) -/
  (skips : List (Nat × Lanes × Bool))
  (allot : Option (Nat × Nat))
  /-- `%pendmask` (R126, R206) -/
  (pend : Lanes)
  /-- effective addresses that wait for a translation: lane, address, and the device-virtual address translated (R205, R206) -/
  (waits : List (Nat × W64 × Nat))
  /-- ready time (R340); `none` while the group is no candidate -/
  (readyAt : Option Nat)
  /-- the port whose next arbitration decides whether the ready time is kept (R340) -/
  (keepOn : Option Nat)
  /-- launch clock from which the next word of a deterministic launch's group may issue (log 23) -/
  (nextClock : Nat)
  /-- parked at a fetch: what `%pendmask` held of a replay that the clause resumes (R80, R200, R206) -/
  (refetch : Option Lanes)
  /-- pages that the waiting instruction needs and that have no translation, with the fault that it takes once its other pages are
  answered (R206, R207) -/
  (refused : List (Nat × Code))
deriving DecidableEq, Repr, Inhabited

/-- A reconvergence-stack entry (R116). -/
structure StackEntry where
  (merge : Bool)
  (lanes : Lanes)
  (addr : W64)
deriving DecidableEq, Repr, Inhabited

/-- The hidden state of a trap (R197). -/
structure Trap where
  (slices : Slices)
  (em0 : Lanes)
  (depth0 : List Nat)
  (image0 : W64)
  (mid0 : Option W64)
  (skips0 : List (Nat × Lanes × Bool))
  (allot0 : Option (Nat × Nat))
  (pend0 : Lanes)
  (refetch0 : Option Lanes)
  (entry0 : W64)
  (tret0 : W64)
  (code0 : Code)
deriving DecidableEq, Repr, Inhabited

/-- A fault latched while a handler runs (R198). -/
structure Latched where
  (slices : Slices)
  (code : Code)
  (tval tret : W64)
  (word : Nat)
  (mid : Option W64)
  (skips : List (Nat × Lanes × Bool))
  (allot : Option (Nat × Nat))
deriving DecidableEq, Repr, Inhabited

/-! ## Gangs -/

/-- Where a gang's registers are held (R42, R290). -/
inductive Place
  | none
  | press (part slot : Nat)
  | guest (core gslot part : Nat)
  | handler (core : Nat)
  | compositor (core : Nat)
deriving DecidableEq, Repr, Inhabited

/-- What an unhandled fault records of itself (R202, R270): code, first code of a double fault, `%tval`, `%tret`,
`%blockid` and `%gangid`. -/
structure FaultRec where
  (code : Code)
  (first : Option Code)
  (tval tret : W64)
  (block gang : Nat)
deriving DecidableEq, Repr, Inhabited

/-- A guest's debug state (R290 to R300). -/
structure Guest where
  (free : Bool)
  (window : Nat)
  (halted : Bool)
  /-- the word that issues once without being matched, after a PC or STEP event; 1 where none (R296) -/
  (haltPc : W64)
  /-- a fault held back by a FAULT event (R295) -/
  (held : Option FaultRec)
  (edits : List (W32 × W32))
  (stepping : Bool)
  (retReq : Bool)
deriving DecidableEq, Repr, Inhabited

/-- A pull under way (R290): PROOF, the core whose trigger fired and its number, the clock at which it fired (R289), its mode and
window, and the place found: proof core, guest slot and partition. -/
structure PullReq where
  (core at0 trig fired : Nat)
  (free : Bool)
  (window : Nat)
  (place : Option (Nat × Nat × Nat))
deriving DecidableEq, Repr, Inhabited

structure Gang where
  (uid block gangid role prio : Nat)
  (measure : Nat)
  (place : Place)
  (home : Nat × Nat)
  /-- gang slots held on the home partition (R42) -/
  (slots : List Nat)
  (present : Lanes)
  (exited : Slices)
  /-- allotment, and registers reserved on its partition (R42, R204) -/
  (allot reserve : Nat)
  (sregs vregs : List (Nat × W32))
  (masks : List (Nat × Lanes))
  /-- scalars written in this clock, with the value each held before it (R105, R131) -/
  (fresh : List (Nat × W32))
  (em : Lanes)
  (astatus : W32)
  /-- sticky bits of `%astatus` set in this clock (R99) -/
  (freshBits : W32)
  (tvec : W64)
  (tcause : W32)
  (tval tret : W64)
  (flags : BitVec 12)
  (ops : List Op)
  (galley : Galley)
  (dlist : List Detached)
  (image : W64)
  /-- entry address of the current code image: of the launch, or of the handler (R65) -/
  (entry : W64)
  (trap : Option Trap)
  (latched : List Latched)
  (errs : List Err)
  (groups : List Group)
  /-- reconvergence stacks, one per slice, top first -/
  (reconv : List (List StackEntry))
  (pull : Option PullReq)
  (guest : Option Guest)
  (clauseCount : Nat)
  /-- latest clause counts received of the block's guests, by gang uid (R294) -/
  (known : List (Nat × Nat))
  /-- arrivals of a guest on their way home: barrier and slices (R292) -/
  (arriving : List (Nat × Slices × W64))
deriving DecidableEq, Repr, Inhabited

/-! ## Blocks, cluster launches, grids -/

/-- A member gang of a barrier (R181). -/
structure BarGang where
  (gang : Nat)
  (arrived : Slices)
  (counted ever : Bool)
  /-- phase number at which the phase of the gang's last arrival is complete -/
  (last : Option Nat)
deriving DecidableEq, Repr, Inhabited

/-- A barrier entry; the phase bit is the parity of the phase number (R181). -/
structure Bar where
  (num members arrivals : Nat)
  (bytes : Int)
  (phase : Nat)
  (gangs : List BarGang)
deriving DecidableEq, Repr, Inhabited

inductive Stage
  | resident | suspended | exited | done
deriving DecidableEq, Repr, Inhabited

structure Block where
  (uid grid blockid crank cluster : Nat)
  (stage : Stage)
  (core : Nat)
  /-- die that holds the block while it waits (R57) -/
  (die : Nat)
  (resident : Nat)
  /-- step at which the block started or began to wait; `resident` is the clock of its start or restore (R58) -/
  (since : Nat)
  (preempt : Bool)
  /-- pre-empted by time-slicing: its place goes to a block of its grid (R58) -/
  (sliced : Bool)
  /-- saved from a deterministic launch by a request: the launch clock stands until it is restored (R60) -/
  (awaited : Bool)
  (galley : Galley)
  (bars : List Bar)
  (gangs : List Nat)
  (children : Nat)
deriving DecidableEq, Repr, Inhabited

structure Cluster where
  (uid grid : Nat)
  (galley : Galley)
  (bars : List Bar)
  (blocks : List Nat)
deriving DecidableEq, Repr, Inhabited

/-- A role of a launch descriptor (R276). -/
structure Role where
  (entry gangs live lastLive allot prio : Nat)
deriving DecidableEq, Repr, Inhabited

/-- A launch descriptor, as read at dispatch (R276). -/
structure Desc where
  (code args tvec ctx : W64)
  (grid measure cluster : Nat)
  (det fabx ftz roles : Bool)
  (quantum localSize scratch : Nat)
  (role0 role1 : Role)
  (barm : List W32)
deriving DecidableEq, Repr, Inhabited

structure Grid where
  (uid : Nat)
  (desc : Desc)
  (queue packet pasid : Nat)
  (priv : Bool)
  /-- launching block for a child -/
  (parent : Option Nat)
  (depth : Nat)
  (events after : W64)
  (die : Nat)
  (nextBlock : Nat)
  /-- undispatched blocks passed to another die (R57) -/
  (passed : List (Nat × Nat))
  (retired : Nat)
  (aborted stopped : Bool)
  /-- the fault record to be written (R202) -/
  (fault : Option FaultRec)
  (bars : List Bar)
  (root : Nat)
  (order : Nat)
  /-- cores whose place the grid's longest waiting block takes (R58) -/
  (claims : List Nat)
  /-- halted for DESTROY_CTX: it is discarded and completes no packet (R279) -/
  (doomed : Bool)
deriving DecidableEq, Repr, Inhabited

/-- The launch clock of a deterministic launch (R59). -/
structure Root where
  (grid clock : Nat)
  (stopped : Bool)
deriving DecidableEq, Repr, Inhabited

/-! ## Cores -/

/-- The word a port last issued, and the PASID of its launch (R302). -/
structure LastWord where
  (pasid : Nat)
  (pc : W64)
deriving DecidableEq, Repr, Inhabited

/-- A partition: the energy budget and its refill (R55), and the word each port last issued (R302). -/
structure Part where
  (budget refill : Nat)
  (last0 last1 : Option LastWord)
deriving DecidableEq, Repr, Inhabited

/-- A pull trigger (R288). -/
structure Trigger where
  (addr : W64)
  (val : W32)
  (ctl : W64)
  (gangs : W32)
deriving DecidableEq, Repr, Inhabited

/-- The lane-cycle record (R301). -/
structure LaneCycle where
  (ctl : W64)
  (base lim : List (Nat × W64))
  (cnt : List (Nat × W64))
deriving DecidableEq, Repr, Inhabited

structure Core where
  (key : Nat)
  (clock : Nat)
  (temp : Nat)
  (parts : List Part)
  (kick : W64)
  /-- the core's clock, plus one, and the port of the kick register's last write (R259) -/
  (kickMark : Nat × Nat)
  (trigPasid : BitVec 20)
  (trig0 trig1 : Trigger)
  (lc : LaneCycle)
  /-- matrix queues by partition: gang and operation, oldest first (R246) -/
  (mq : List (Nat × Nat × Nat))
  /-- request queue: gang and operation, oldest first (R255) -/
  (rq : List (Nat × Nat))
deriving DecidableEq, Repr, Inhabited

/-- A debug event (R295, R308), with the guest's halt word (R296, R313). -/
structure DbgEvent where
  (kind unit gslot gang : Nat)
  (pc addr halt : W64)
  (val : W32)
  /-- the clock in which it occurred (R296) -/
  (clock : Nat)
deriving DecidableEq, Repr, Inhabited

/-- A PC comparator or watchpoint (R297). -/
structure Watch where
  (kind : Nat)
  (lo hi : W64)
  (val ctrl queue gangs : W32)
  /-- PASID of the domain whose handler set it (R303) -/
  (dom : Nat)
deriving DecidableEq, Repr, Inhabited

/-- An entry of the value history (R299). -/
structure Hist where
  (seq info : W32)
  (pc addr : W64)
  (old new : W32)
deriving DecidableEq, Repr, Inhabited

/-- A trace record (R298), and the PASID of the domain whose sink it goes to. -/
structure TraceRec where
  (dom : Nat)
  (pc clock : W64)
  (lanes val block : W32)
  (gang kind info : Byte)
deriving DecidableEq, Repr, Inhabited

/-- The instruments of a proof core (R295 to R299). -/
structure Proof where
  (key : Nat)
  (pcs mems : List (Nat × Watch))
  (hist : List Hist)
  (nextSeq : W32)
  /-- guest slots whose guests are traced (R298, R309) -/
  (traced : BitVec 4)
  (trace : List TraceRec)
  /-- records that found no room, by the domain's PASID -/
  (lost : List (Nat × Nat))
  (events : List DbgEvent)
  (current : Option DbgEvent)
  (handler : Option Nat)
  (domain : Nat)
deriving DecidableEq, Repr, Inhabited

/-! ## Translation -/

/-- A translation-cache entry (R205); the scope is a core key, or 512 + die for the die's cache. -/
structure Tlb where
  (scope pasid page log2 : Nat)
  (own : Bool)
  (frame : Nat)
  (r w : Bool)
deriving DecidableEq, Repr, Inhabited

/-- Who waits for a translation: the instructions of a core, an engine of a core on behalf of one piece of its work (R254), or
the context area of a grid (R212). -/
inductive Waiter
  | core (key : Nat)
  | engine (key work : Nat)
  | area (key grid : Nat)
deriving DecidableEq, Repr, Inhabited

/-- An ATS request by PASID, page and requested right: sent, or waiting for the limit (R205). -/
structure Ats where
  (pasid page : Nat)
  (wr : Bool)
  (waiters : List Waiter)
  (sent : Bool)
deriving DecidableEq, Repr, Inhabited

/-- A page request (R206): sent, or waiting for the allocation (R318). -/
structure Pri where
  (pasid page : Nat)
  (wr : Bool)
  (waiters : List Waiter)
  (sent : Bool)
deriving DecidableEq, Repr, Inhabited

/-- An invalidation in progress (R208): the frames of the dropped entries, first unified address, length and page, and the
operations and packet copies that may have used one. -/
structure Inval where
  (pasid lo hi : Nat)
  (frames : List (Nat × Nat × Nat))
  (ops : List Nat)
  (copies : List (Nat × Nat))
deriving DecidableEq, Repr, Inhabited

/-! ## Compositor -/

/-- A packet in a window (R263, R282, R287). -/
structure Pkt where
  (idx ty ord acq rel : Nat)
  (bar irq : Bool)
  (csig : W64)
  (words : List W32)
  (check : Nat)
  (started dispatched done aborted : Bool)
  (seen : BitVec 6)
  (grid : Option Nat)
deriving DecidableEq, Repr, Inhabited

inductive QState
  | unmapped | mapped | teardown | dead
deriving DecidableEq, Repr, Inhabited

/-- A user queue: its directory entry, the slot it stands in, and its fields (R261, R272). -/
structure Queue where
  (qnum : Nat)
  (qcb : W64)
  (pasid : Nat)
  (state : QState)
  (slot : Option Nat)
  (armed : Bool)
  (base faultrec ctxpool : W64)
  (log2 prio : Nat)
  (priv : Bool)
  (rdidx wridx fetch : Nat)
  (abort hold : Bool)
  (window : List Pkt)
  (watches : List Nat)
  (saved : Bool)
  (age : Nat)
  /-- accepted child grids not yet retired (R278) -/
  (children : List Nat)
deriving DecidableEq, Repr, Inhabited

/-- A packet copy handed to the copy engine (R265). -/
structure Copy where
  (queue packet pasid : Nat)
  (dst src : W64)
  (count : Nat)
  (moved flying : List Nat)
  (reason : Nat)
  (bad : W64)
deriving DecidableEq, Repr, Inhabited

/-- The two code banks of a compositor core (R280): the image of each, and which is active. -/
structure Bank where
  (imageA imageB : W64)
  (validA validB : Bool)
  (activeB switching stopped : Bool)
deriving DecidableEq, Repr, Inhabited

/-- A background verification (R323): argument block, image or token address, key slot, mask or kind. -/
structure Verify where
  (arg addr : Nat)
  (keyslot mask : Nat)
  /-- an accepted token that waits for the end of the revocation before it (R305) -/
  (token : Option (List Byte))
deriving DecidableEq, Repr, Inhabited

/-- An imposer's advertisement (R57): free block places, slots, register bytes and local bytes per core. -/
structure Advert where
  (die : Nat)
  (room : List (Nat × Nat × Nat × List (Nat × Nat)))
deriving DecidableEq, Repr, Inhabited

/-! ## Host link, fabric, ingress, start -/

/-- An item of a fabric lane (R18, R194): store bytes, an atomic, a request unit or a unit of a packet copy. -/
inductive FabItem
  | store (gang op : Nat) (bytes : List (Nat × Byte))
  | atom (gang op addr : Nat)
  | unit (core gang op unit : Nat) (bytes : List (Nat × Byte))
  | copyUnit (queue packet unit : Nat) (bytes : List (Nat × Byte))
deriving DecidableEq, Repr, Inhabited

/-- A hash lane of the fabric with items on it (R194), and the port it takes (R325). -/
structure FabLane where
  (src dst lane : Nat)
  (port : Option Nat)
  (items : List FabItem)
deriving DecidableEq, Repr, Inhabited

/-- The domain table (R324). -/
structure Domain where
  (self : Nat)
  (devs : List (Nat × Nat))
  (handles : List (Nat × Nat))
deriving DecidableEq, Repr, Inhabited

/-- A buffered frame: its stream and whether its tuple chose it, bytes, stamp, and the tuple's hash where it has one (R327 to
R330). -/
structure Frame where
  (stream : Nat)
  (byTuple : Bool)
  (bytes : List Byte)
  (sec ns : Nat)
  (frac : BitVec 16)
  (hash : Option W32)
deriving DecidableEq, Repr, Inhabited

/-- An Ethernet port and its 1588 clock (R327, R328). -/
structure EthPort where
  (up : Bool)
  (bufferBytes : Nat)
  (pending : List Frame)
  (badFcs runt long full : Nat)
  (sec : BitVec 48)
  (ns : Nat)
  (frac : BitVec 16)
  (latched : W32)
  (adj : W64)
  (rate delay : W32)
  (defStream : Nat)
deriving DecidableEq, Repr, Inhabited

/-- A stream (R330). -/
structure Stream where
  (num log2 : Nat)
  (big : Bool)
  (pasid : Nat)
  (ring signal consumed : W64)
  (n dropped : Nat)
deriving DecidableEq, Repr, Inhabited

/-- An unlocked debug domain (R303 to R305). -/
structure DbgDomain where
  (firmware : Bool)
  (pasid : Nat)
  (rights : BitVec 4)
  (handler sink : W64)
  (sinkSize : Nat)
  (prod : Nat)
  /-- firmware records dropped since the sink was last full (R299) -/
  (lost : Nat)
  /-- revoked, its guests on their way home: the sink is still to be closed (R306) -/
  (closing : Bool)
deriving DecidableEq, Repr, Inhabited

/-- A signed image in the flash: its bytes, the first lowest (R332, R336). -/
structure FlashImage where
  (size bits : Nat)
deriving DecidableEq, Repr, Inhabited

/-- The settings of the configuration image (R332) and the other contents of the flash (R305, R336 to R338). -/
structure Flash where
  (deviceId : BitVec 128)
  (latXlane latLocal latMatrix latCommitB latCommitC latCommitD latDevice latRequest latLaunch : Nat)
  (directory fwConfig : W64)
  (drvQueues : List Nat)
  (ageK : Nat)
  (fwEntry : Nat)
  (keySlots : List (Option (BitVec 544)))
  (minVersion : List (Nat × W64))
  (nonceKernel nonceFirmware : W64)
  (retired : List Nat)
  /-- the two 64-byte copies of the start record (R334) -/
  (rec0 rec1 : BitVec 512)
  /-- the two copies of the configuration image (R332, R333) -/
  (cfg0 cfg1 : FlashImage)
deriving DecidableEq, Repr, Inhabited

/-- Registers of the host link (R316, R319 to R321, R335, R339). -/
structure HostLink where
  (featOff featAcc : BitVec 128)
  (locked : Bool)
  (hcmd : W64)
  (tag : Byte)
  (lost done : Bool)
  (status : Byte)
  /-- status the running command finishes with, and its block's address -/
  (pending : Option (Byte × Byte))
  (startStat : W64)
  (startSkip : W32)
  (pwrCap pwrNow : Nat)
  (pwrStat : BitVec 2)
  (tLayerMax : BitVec 16)
  /-- MSI-X messages sent, by their vectors, in order (R315, R317) -/
  (msix : List Nat)
  /-- the MSI-X table of BAR4, 16 bytes for each entry, and its pending-bit array (R315; log 61) -/
  (msixTable : List (Nat × BitVec 128))
  (msixPending : BitVec 2048)
  (priAlloc : Nat)
  /-- PASIDs for which a Stop Marker has been sent, in order (R318) -/
  (stopMarkers : List Nat)
deriving DecidableEq, Repr, Inhabited

/-! ## The machine -/

/-- What moves next (R19): the next words of groups of one gang that issue in one clock, with an operation of the gang that
lands in it (R105, R131, R191), or a named transition. -/
inductive Choice
  | issue (gang : Nat) (slices : List Nat) (land : Option Nat)
  | event (i : Instr)
deriving DecidableEq, Repr, Inhabited

/-- A datum in which an uncorrectable error stands (R209): a byte of memory by its unified address, a register element by its
key, a line in the galleys of a rank (0 a gang's D(g), 1 a block's, 2 a cluster launch's), or a context being saved. -/
inductive BadDatum
  | mem (a : Nat)
  | reg (gang key : Nat)
  | line (rank owner line : Nat)
  | context (cluster : Nat)
deriving DecidableEq, Repr, Inhabited

/-- A line of memory as it was before a store: the step of the store, and the next free number then (R82). -/
structure OldLine where
  (line step uid : Nat)
  (bytes : List Byte)
deriving DecidableEq, Repr, Inhabited

/-- A device-level copy of a byte of host memory, and whether the device wrote it (R341). -/
structure HostByte where
  (val : Byte)
  (dirty : Bool)
deriving DecidableEq, Repr, Inhabited

structure State where
  /-- steps taken: the index of the free values (the model's own field) -/
  now : Nat
  agenda : List Choice
  cur : Option (Nat × Nat)
  nextUid : Nat
  nextOp : Nat
  mem : Cells
  /-- lines as they were before the stores made while some launch ran, oldest first (R82) -/
  oldLines : List OldLine
  /-- data in which an uncorrectable error stands during this step (R209) -/
  bad : List BadDatum
  hostCopy : List (Nat × HostByte)
  /-- translations of PASIDs that stand, whether or not a cache holds them: whose frame a line is of (R208, R264) -/
  mapped : List Tlb
  gangs : List Gang
  blocks : List Block
  clusters : List Cluster
  grids : List Grid
  roots : List Root
  cores : List Core
  proofs : List Proof
  tlb : List Tlb
  ats : List Ats
  pri : List Pri
  /-- waiters told that a page has no translation: waiter, PASID, page (R254) -/
  denied : List (Waiter × Nat × Nat)
  invals : List Inval
  doorbells : List (Nat × W64)
  pending : List Nat
  wake0 : W32
  wake1 : W32
  queues : List Queue
  watchTable : List (Nat × Nat)
  copies : List Copy
  bank0 : Bank
  bank1 : Bank
  fwVerify : Option Verify
  unlockVerify : Option Verify
  adverts : List Advert
  host : HostLink
  flash : Flash
  eth0 : EthPort
  eth1 : EthPort
  mapTable : List (Nat × Byte)
  streams : List Stream
  domain : Option Domain
  domainPending : Option Domain
  lanes : List FabLane
  portsUp : BitVec 18
  unreachable : List Nat
  dbgDomains : List DbgDomain
  errCounts : List (Nat × Nat)
  /-- the counting window of each owner's clock to which its counts belong (R338) -/
  errWindows : List (Nat × Nat)
deriving DecidableEq, Repr, Inhabited

/-! ## Reset -/

/-- Partitions of a core by its key, 64 × die + number: 12 of a press core, 2 of a proof core, 1 of a compositor core
(R1, R7, R10). -/
def partCount (key : Nat) : Nat := if 256 ≤ key then 1 else if key % 64 < 40 then 12 else 2

/-- Keys of the press cores and proof cores of dies 0 to 3, and of the compositor cores (R7, R8). -/
def coreKeys : List Nat :=
  (List.range 44) ++ (List.range 44).map (· + 64) ++ (List.range 44).map (· + 128) ++
    (List.range 44).map (· + 192) ++ [256, 257]

/-- Keys of the proof cores. -/
def proofKeys : List Nat := [40, 41, 42, 43, 104, 105, 106, 107, 168, 169, 170, 171, 232, 233, 234, 235]

/-- A partition after reset: the refill of R55 (R55; budget: log 6). -/
def Part.reset : Part := { budget := 24576, refill := 24576, last0 := none, last1 := none }

/-- A pull trigger after reset: PROOF 0xF, ONESHOT 1, every gang admitted (R288). -/
def Trigger.reset : Trigger := { addr := 0, val := 0, ctl := 0xF1000, gangs := 0xFFFFFFFF }

def LaneCycle.reset : LaneCycle := { ctl := 0, base := [], lim := [], cnt := [] }

/-- A core after reset (R126, R259, R288, R301; log 6). -/
def Core.reset (key : Nat) : Core :=
  { key := key, clock := 0, temp := 0, parts := List.replicate (partCount key) Part.reset, kick := 0, kickMark := (0, 0), trigPasid := 0
    trig0 := Trigger.reset, trig1 := Trigger.reset, lc := LaneCycle.reset, mq := [], rq := [] }

/-- The instruments of a proof core after reset: disabled and empty (R314). -/
def Proof.reset (key : Nat) : Proof :=
  { key := key, pcs := [], mems := [], hist := [], nextSeq := 0, traced := 0, trace := [], lost := [], events := [], current := none
    handler := none, domain := 0 }

def Bank.reset : Bank :=
  { imageA := 0, imageB := 0, validA := false, validB := false, activeB := false, switching := false, stopped := false }

/-- The key record in slot 0 of a device as delivered, and the configuration image that it signs: KIND 2, VERSION 0, no payload (log 7). -/
def deliveredKey : BitVec 544 :=
  0xF56C401A0FD6297B7B31FE474F41ADE4620279DE481A47040F72D48A5100295012000000

def deliveredImage : FlashImage :=
  { size := 2884
    bits := (List.foldr (fun x a => a * 2 ^ 480 + x) 0
      [0x253564947,
        0x127049682B1C6931D9D915D68D4478F60B5EC65100000000000000000000000000000000000000000000000000000000000000000000000000000000,
        0x5EECA86C5533C087C8F379C07E4A3F4F8EF7A9CD481DD89BD3F5B2DBB06821F1ABF932A16E83C72A1203831128A7823C72F6E2FF651D5DC2E64C11C,
        0xFCACDB0121738B1444E4199D7E33ECBDB43EAC1D35F58B81ABA5EA57D8CF5F5B14F4B70239BC4BB616D28AB5268038F264FA2E087D7A2C6B8B5DECA0,
        0x7CB47A2800B1B8FFAABD4E3332879AB1F6826688475211E82E08E77EAC0DAD4E0212572A627FC5E896AA6F158DA27FFC993793CF266639AEAE4A9E26,
        0x37598365C4500D060784EC2D92FC09B3C8E725107487C753F26262BE772CC51CADB6090F7F825C29BF970373FF27DCA5FD836CFCD1986092D9E184E,
        0x54DF49907AB118C4F34819931FA330093A52811A2C8EC042C2F6F9EEEF4C568424272B2D7D7C902A68EDC3F2C7D99CFAA1421D976D03E85B57FCCC7D,
        0xB1DA4DB7112403A437133DA65D55C34832F0DCA8D61D946A0455F99EFA3BA74F62B12971364E2DC8ED7B363753EF8B9FE16E68E75689B423548D6532,
        0x18A9C3185EBF239F9175962AA825D2E8F1DECACC4274CE8F5AF4D5040F4C03C461D66051117F105186B75BD023B8B91FC1149EC4D2CC7863C97A08E5,
        0x90762309C2D1184D7DD83D53DFCC49A9962F7F19C9B2785FEEF7609BEDF19091C6A98729A996C234B699AC4D9A0A08315FFD66DBE83B5C9A1CF46CC4,
        0x3340171BC31FA6A6ED527597206647C3CDA76426004898A561CE82791E1B45527FFC24F49E2398631D33D1C18921A0365F3AF0539801314289AC4A84,
        0xFF34FAC2B2FB238F2BB0C69D1E74FAD465D4E7F4FAC94C64D7253E22AA1726F10E6DBADBEF3DE4E140B52129CF9EE23AE504666307B8A349D92B599,
        0xB2C22E4A5285163B0FEF1733E594B0F0015D1E86869BCDFC5ACDB70435AE34D4B5DD4CEAC247BBB5214EF841C71B2F0583F8A56C37C0DA50B02FE97B,
        0xB290E371E6FFE02926751ACC882C4FCEC4A2E24E638630A6D3BC62ED7C85B4B834FA6E125A6C1BBE3B0D48B78BEAF2C0F9AB71304489472338E3ACB,
        0x20FA1D6A9FA33ECD3ED722A562E9A8BCDEA6CD0F198E18DC380310B87E93C19B96090603792ADDAE06ED92B1FA183E873D62376A9300B7C15D7BD70F,
        0x8069FFCA4D3D99B0D90A31ED671146B3C76187553455670F58C55D5239546031437A82D536BA7DA46CE57568E9607BB86FF8337632BCCF6946CFFA48,
        0x2A4D727951E105DA1B37FE8D6987E607FC656569FE8DAD18C4A737FAD04F50245CADFAC1E8DECD259A087DC36323D7419793FDB910FB0BCDBFB869A2,
        0x2497C65FC91DBA16B2B966CE6E5D5BDF6335C06ADFC58B9167328CFA23CECB9FA0480AA7EA5CDB5801D69BCBFC0C23A970230BF13DBD96E25F9D9355,
        0xC3B3977EA2EF670875E08CD81C4923743784CE6A2AA0C2170E090EC4B663D9E9700DC4C08900C9A3D9F0DBA595D2F7937AD3EB4184B3CA8C2DDDE25F,
        0x1067FACC546536982AE64BAE60C002D53039B4D73ECC3760F1EE692D4AC03D70EA8C407E1587F3FA10B424E23E6BD45C61A30ABB78445C0F4DEC56CA,
        0x7A21ECB12640055BF487E434767B8EA649DE588F5650CE378E348E0F66F7E870BD140FCF7E55249F74E597B8F8115D4D7A8A6ED395386FC47090E674,
        0x476D55AC764933F9BAE32B131E309E1B2744C59B9E93650D800551D309A6598DECA3085F46E5D07A1CB553092FDC05D544E2BFB2756A7318FB3C3B5B,
        0x49639CD3B0A55599B0E342088AABAF41BD45CBAC374D3FC6FC985E0788B63F11A66F2DF2746F5A7BE4C70A8D286AC20B5F82B344603B441AB5432E9C,
        0x5F43E0C1A391DAC8888C38B411B920F9724E5D01A87BA79854506013CA92FA5A84C82DFA56631B6D6C1F1D13AC67E3101F37DF104A38A38968663D40,
        0x2C0EC3F405C2068AC920E5B90964ED54DE2AAC7080F2969A2EA483D1ECB572514292BF0A5F1124B202A5B7BCBB1002E24EC6D00923CC19F9B796E55F,
        0x604C875D73B0B8B30C750DA82D460B2DFCDE1D4BC234637BED66B1B5C2B659C597DF3E4F311213B1F533D093035CC1954184E6B16322A27F5C4F95E3,
        0x906113A233CA438CCC4EB7139C2C8A3348942AAADD9A62DA59C0659ADDC2ADC373DCE0B61511D2B991DC1FCFBA19365C9AF4E308B598F89A853F3D2F,
        0xD09E2236EEC3F84C22623259CBD3CAC9AD519BD7F9E5FA1153C14E286D80044E6939A53A78D3D38FCC7D0C064A01488FED7DC8C4F74F1114E42CBBC0,
        0x99C781DEECC6E54A680DFA45AAD317D582A3EE43C6E19681417B9F1DF287205C93802CB346FAE5E02650CAA6D0056AB14C2B368A593A6878CADF4176,
        0xD6A6A7D585F9D9DA08B2AB4FEF1E19E3D0EA4788A6536E5771458558B3DEE70EE104C731830F24C8B95822549BD9D96884486D52379A3F23917BC40,
        0xD241C641EF69381D9D744F31431DE33C7CF5BD65829EA9E0D2214B67B5B9EB6D4D1CB360071F81E5710EB0A1B53587AF86C387F4AB98A1EC0B3C214B,
        0x942143C8FF9A6DCE7389681D6AEC01CBF16846B69A35125E7082D2135630083218A5DC5E70BDE55E1F8FE7E304A20F9EFB716B031C9BEFAB4B7DBD0A,
        0x2BE85A7EDFF91A9873487572506D7B407D518F1A37F128BBD6421460B73C00BDF8976E771C00C18B0BC93ED0715C3873812D08914D04DE6C94EAFEFD,
        0xA91D741D065579CA981E1D3E4CA9AA02EBAEE15FDCA67697253E3B63B4FA46EFB800B25538624B5E7E9A39B02FDA792E176EF54FAA9210A6015E7062,
        0xFD25A6B43E4A329253BC145E6FEDB5A2756E24DE94E185C4DB8CD2D6D363821B96902BC5CC113416BC251BD4917536EB044E6F5A76ECBAF2E2ED4CFE,
        0x9F0C7A3C02B3447CAEDF54D6FF31A322EB5C11191C39509EFF1405FFA8F69E605ADC4E4C107756CF6D83B9E4487A6E89B5F41AD9D1026E74740934AF,
        0xF6F0CD5E295B33D3085446BF0885F2D624F23973B5E0DB17596C26EB3A7016649D8658284FF346AACE6C7B2D7B7E540209E924E0F21C1825A446CFC5,
        0x5FD1BA711DA9480EBE5047DFC4D16157C400701666D82209]) }

/-- The flash as delivered: the default latencies of R60, k of R274, one key and two copies of the configuration image under it, no
nonces, and a start record of zeros, whose check of zeros holds (log 7). -/
def Flash.reset : Flash :=
  { deviceId := 0, latXlane := 24, latLocal := 64, latMatrix := 96, latCommitB := 64, latCommitC := 256
    latCommitD := 2048, latDevice := 3000, latRequest := 4096, latLaunch := 8192, directory := 0, fwConfig := 0
    drvQueues := [], ageK := 4, fwEntry := 0, keySlots := [some deliveredKey, none, none, none], minVersion := [], nonceKernel := 0
    nonceFirmware := 0, retired := [], rec0 := 0, rec1 := 0, cfg0 := deliveredImage
    cfg1 := deliveredImage }

/-- An entry of the MSI-X table before the host has written it: masked, as PCIe has it (log 61). -/
def msixReset : BitVec 128 := (1 : BitVec 128) <<< 96

/-- The host link before the power-on start (R316, R319, R321, R335, R339). -/
def HostLink.reset : HostLink :=
  { featOff := 0xFFF, featAcc := 0, locked := false, hcmd := 0, tag := 0, lost := false, done := true, status := 0
    pending := none, startStat := 0, startSkip := 0, pwrCap := 3200, pwrNow := 0, pwrStat := 0, tLayerMax := 0
    msix := [], msixTable := [], msixPending := 0, priAlloc := 512, stopMarkers := [] }

/-- An Ethernet port before its link is up (R327, R328; log 7). -/
def EthPort.reset : EthPort :=
  { up := false, bufferBytes := 0, pending := [], badFcs := 0, runt := 0, long := 0, full := 0, sec := 0, ns := 0
    frac := 0, latched := 0, adj := 0, rate := 0, delay := 0, defStream := 0 }

/-- The machine right after reset: no work, nothing cached, every memory byte unlisted, the power-on start not yet taken
(R5, R18, R333; logs 1 to 8 name the values the spec does not give). -/
def State.reset : State :=
  { now := 0, agenda := [], cur := none, nextUid := 64, nextOp := 0, mem := [], oldLines := [], bad := [], hostCopy := [], mapped := []
    gangs := []
    blocks := [], clusters := [], grids := [], roots := [], cores := coreKeys.map Core.reset
    proofs := proofKeys.map Proof.reset, tlb := [], ats := [], pri := [], denied := [], invals := [], doorbells := [], pending := []
    wake0 := 0, wake1 := 0, queues := [], watchTable := [], copies := [], bank0 := Bank.reset
    bank1 := Bank.reset, fwVerify := none, unlockVerify := none, adverts := [], host := HostLink.reset
    flash := Flash.reset, eth0 := EthPort.reset, eth1 := EthPort.reset, mapTable := [], streams := [], domain := none
    domainPending := none, lanes := [], portsUp := 0x3FFFF, unreachable := [], dbgDomains := [], errCounts := [], errWindows := [] }

end Sys2Proof.Machine
end

