-- ==== Sys2Proof/Config.lean ====
section
/-!
DEFINITION. The values the spec leaves open, as constants without a body: nothing can be proved of any of them, and a
statement about the machine holds whatever they are. Each is applied to the step counter `State.now` (so that every step
has fresh values) and to a key. notes/assumptions names the entry of each.
-/
namespace Sys2Proof.Config

/-- A free yes or no: the old or new value of R14 (log 9), a line that leaves the device cache (log 4), a spare that is left (log 31),
a remote access that is refused (log 52). -/
opaque freeBit : Nat → Nat → Bool

/-- A free number: the clocks that pass in a step (log 8), the old or new line of a fetch (R82), and the items, bytes and amounts that
no rule gives (logs 5, 10, 24, 25, 29, 31, 35, 51). -/
opaque freeNat : Nat → Nat → Nat

/-- The transition the machine takes when the agenda is empty (R19, R20; log 1). -/
opaque freeEvent : Nat → Instr

/-- The groups whose words issue when the agenda is empty and no named transition is taken: gang, a slice of each group, and
an operation that lands in the same clock (R19, R105, R131; log 1). -/
opaque freeIssue : Nat → Option (Nat × List Nat × Option Nat)

/-- The data in which an uncorrectable error stands during a step (R209; log 51). -/
opaque freeBad : Nat → List Machine.BadDatum

end Sys2Proof.Config
end

