-- ==== Sys2Proof/Machine/Store.lean ====
section
/-!
DEFINITION. Sorted lists of a key and a value: the one form in which the state holds memory, registers, masks and tables.
Keys rise strictly; a table with a default value lists no entry equal to it, so equal contents are equal lists.
-/
namespace Sys2Proof.Machine.Store

variable {α : Type}

/-- The value at a key. -/
def get? : List (Nat × α) → Nat → Option α
  | [], _ => none
  | (a, x) :: l, k => if a = k then some x else get? l k

/-- The value at a key, or the default of an unlisted key. -/
def getD (l : List (Nat × α)) (k : Nat) (d : α) : α := (get? l k).getD d

/-- Put a value at a key. -/
def put : List (Nat × α) → Nat → α → List (Nat × α)
  | [], k, v => [(k, v)]
  | (a, x) :: l, k, v =>
    if k < a then (k, v) :: (a, x) :: l else if a = k then (a, v) :: l else (a, x) :: put l k v

/-- Remove a key. -/
def erase : List (Nat × α) → Nat → List (Nat × α)
  | [], _ => []
  | (a, x) :: l, k => if a = k then erase l k else (a, x) :: erase l k

/-- Put a value at a key, where the default is what an unlisted key reads as. -/
def putD [DecidableEq α] (d : α) (l : List (Nat × α)) (k : Nat) (v : α) : List (Nat × α) :=
  if v = d then erase l k else put l k v

/-- Keys rise strictly. -/
def sorted : List (Nat × α) → Bool
  | [] => true
  | [_] => true
  | (a, _) :: (b, y) :: l => decide (a < b) && sorted ((b, y) :: l)

/-- The canonical form with a default: sorted, and no entry equal to the default. -/
def canon [DecidableEq α] (d : α) (l : List (Nat × α)) : Bool := sorted l && l.all (fun e => decide (e.2 ≠ d))

/-- All entries of `top` put over `l`. -/
def merge (l top : List (Nat × α)) : List (Nat × α) := top.foldl (fun acc e => put acc e.1 e.2) l

/-- Entries whose key lies in [lo, hi). -/
def range (l : List (Nat × α)) (lo hi : Nat) : List (Nat × α) := l.filter (fun e => lo ≤ e.1 && e.1 < hi)

/-- Entries whose key does not lie in [lo, hi). -/
def dropRange (l : List (Nat × α)) (lo hi : Nat) : List (Nat × α) := l.filter (fun e => !(lo ≤ e.1 && e.1 < hi))

end Sys2Proof.Machine.Store
end

