-- ==== Sys2Proof/Machine/Table.lean ====
section
/-!
DEFINITION. Looking up and replacing the records of the state's tables by their keys.
-/
namespace Sys2Proof.Machine

/-! ## Lookup -/

def State.gang? (s : State) (uid : Nat) : Option Gang := s.gangs.find? (fun g => g.uid == uid)
def State.block? (s : State) (uid : Nat) : Option Block := s.blocks.find? (fun b => b.uid == uid)
def State.cluster? (s : State) (uid : Nat) : Option Cluster := s.clusters.find? (fun c => c.uid == uid)
def State.grid? (s : State) (uid : Nat) : Option Grid := s.grids.find? (fun g => g.uid == uid)
def State.root? (s : State) (grid : Nat) : Option Root := s.roots.find? (fun r => r.grid == grid)
def State.core? (s : State) (key : Nat) : Option Core := s.cores.find? (fun c => c.key == key)
def State.proof? (s : State) (key : Nat) : Option Proof := s.proofs.find? (fun p => p.key == key)
def State.queue? (s : State) (q : Nat) : Option Queue := s.queues.find? (fun x => x.qnum == q)
def State.stream? (s : State) (n : Nat) : Option Stream := s.streams.find? (fun x => x.num == n)

/-! ## Replacement: the record with the same key, everything else unchanged -/

def State.setGang (s : State) (g : Gang) : State :=
  { s with gangs := s.gangs.map (fun h => if h.uid == g.uid then g else h) }

def State.setBlock (s : State) (b : Block) : State :=
  { s with blocks := s.blocks.map (fun h => if h.uid == b.uid then b else h) }

def State.setCluster (s : State) (c : Cluster) : State :=
  { s with clusters := s.clusters.map (fun h => if h.uid == c.uid then c else h) }

def State.setGrid (s : State) (g : Grid) : State :=
  { s with grids := s.grids.map (fun h => if h.uid == g.uid then g else h) }

def State.setRoot (s : State) (r : Root) : State :=
  { s with roots := s.roots.map (fun h => if h.grid == r.grid then r else h) }

def State.setCore (s : State) (c : Core) : State :=
  { s with cores := s.cores.map (fun h => if h.key == c.key then c else h) }

def State.setProof (s : State) (p : Proof) : State :=
  { s with proofs := s.proofs.map (fun h => if h.key == p.key then p else h) }

def State.setQueue (s : State) (q : Queue) : State :=
  { s with queues := s.queues.map (fun h => if h.qnum == q.qnum then q else h) }

def State.setStream (s : State) (x : Stream) : State :=
  { s with streams := s.streams.map (fun h => if h.num == x.num then x else h) }

/-- Change one record if it exists. -/
def State.updGang (s : State) (uid : Nat) (f : Gang → Gang) : State :=
  match s.gang? uid with
  | some g => s.setGang (f g)
  | none => s

def State.updBlock (s : State) (uid : Nat) (f : Block → Block) : State :=
  match s.block? uid with
  | some b => s.setBlock (f b)
  | none => s

def State.updCluster (s : State) (uid : Nat) (f : Cluster → Cluster) : State :=
  match s.cluster? uid with
  | some b => s.setCluster (f b)
  | none => s

def State.updGrid (s : State) (uid : Nat) (f : Grid → Grid) : State :=
  match s.grid? uid with
  | some b => s.setGrid (f b)
  | none => s

def State.updRoot (s : State) (grid : Nat) (f : Root → Root) : State :=
  match s.root? grid with
  | some r => s.setRoot (f r)
  | none => s

def State.updCore (s : State) (key : Nat) (f : Core → Core) : State :=
  match s.core? key with
  | some b => s.setCore (f b)
  | none => s

def State.updProof (s : State) (key : Nat) (f : Proof → Proof) : State :=
  match s.proof? key with
  | some b => s.setProof (f b)
  | none => s

def State.updQueue (s : State) (q : Nat) (f : Queue → Queue) : State :=
  match s.queue? q with
  | some b => s.setQueue (f b)
  | none => s

/-! ## Gangs and their groups -/

/-- The core that runs the gang: its press core, or the proof core it is pulled to (R8, R290). -/
def Gang.coreKey (g : Gang) : Nat :=
  match g.place with
  | .guest core _ _ => core
  | .handler core => core
  | .compositor core => core
  | _ => g.home.1

/-- The partition on that core. -/
def Gang.part (g : Gang) : Nat :=
  match g.place with
  | .press part _ => part
  | .guest _ _ part => part
  | _ => 0

def Gang.op? (g : Gang) (id : Nat) : Option Op := g.ops.find? (fun o => o.id == id)

def Gang.setOp (g : Gang) (o : Op) : Gang := { g with ops := g.ops.map (fun h => if h.id == o.id then o else h) }

/-- The group that holds a slice (the slices of a gang's groups are disjoint). -/
def Gang.group? (g : Gang) (slice : Nat) : Option Group := g.groups.find? (fun r => r.slices.getLsbD slice)

/-- Replace the group that holds the lowest slice of r. -/
def Gang.setGroup (g : Gang) (r : Group) : Gang :=
  { g with groups := g.groups.map (fun h => if h.slices &&& r.slices != 0 then r else h) }

/-- Number of slices (R38). -/
def Gang.nslices (g : Gang) : Nat := g.measure / 8

/-- Slices that have not exited. -/
def Gang.live (g : Gang) : Slices := lowSlices g.nslices &&& ~~~ g.exited

/-- The gang mask of a group: the present lanes of its slices (R46). -/
def Gang.gangMask (g : Gang) (x : Slices) : Lanes := g.present &&& lanesOf x

/-- The measure of a group (R46). -/
def Gang.measureOf (g : Gang) (x : Slices) : Nat := 8 * sliceCount (x &&& ~~~ g.exited)

def Gang.pasid (s : State) (g : Gang) : Nat :=
  match s.block? g.block with
  | some b => match s.grid? b.grid with
    | some gr => gr.pasid
    | none => 0
  | none => 0

/-- The grid of a gang. -/
def Gang.grid? (s : State) (g : Gang) : Option Grid :=
  match s.block? g.block with
  | some b => s.grid? b.grid
  | none => none

/-- Counter value: operations of the class that have issued and not retired (R15). -/
def Gang.count (g : Gang) (c : Ctr) : Nat := (g.ops.filter (fun o => o.ctr == some c)).length

/-- Is the gang's launch deterministic (R59)? -/
def Gang.det (s : State) (g : Gang) : Bool :=
  match g.grid? s with
  | some gr => gr.desc.det
  | none => false

/-- The core and the partition whose ports and queues a gang's clauses are scheduled by: its own; a guest of a deterministic
launch keeps its home's, at whose clocks it runs (R62, R310). -/
def State.schedAt (s : State) (g : Gang) : Nat × Nat :=
  match g.place with
  | .guest _ _ _ => if g.det s then g.home else (g.coreKey, g.part)
  | _ => (g.coreKey, g.part)

def Gang.fabx (s : State) (g : Gang) : Bool :=
  match g.grid? s with
  | some gr => gr.desc.fabx
  | none => false

/-- The gangs of a block, in the table's order. -/
def State.gangsOf (s : State) (block : Nat) : List Gang := s.gangs.filter (fun g => g.block == block)

/-- The blocks of a cluster launch. -/
def State.blocksOf (s : State) (cluster : Nat) : List Block := s.blocks.filter (fun b => b.cluster == cluster)

def State.feature (s : State) (k : Nat) : Bool := s.host.featAcc.getLsbD k

/-- A fresh number for an operation. -/
def State.freshOp (s : State) : Nat × State := (s.nextOp, { s with nextOp := s.nextOp + 1 })

def State.freshUid (s : State) : Nat × State := (s.nextUid, { s with nextUid := s.nextUid + 1 })

/-- Dies and the units of R7 and R8: a core's key is 64 × die + number. -/
def dieOf (key : Nat) : Nat := key / 64
def coreNum (key : Nat) : Nat := key % 64
def isProofCore (key : Nat) : Bool := dieOf key < 4 && 40 ≤ coreNum key
def isPressCore (key : Nat) : Bool := dieOf key < 4 && coreNum key < 40
def isCompositor (key : Nat) : Bool := dieOf key == 4

/-- The partitions of a core: 12 of a press core, 2 of a proof core, 1 of a compositor core (R1, R10). -/
def partsOf (key : Nat) : Nat := partCount key

end Sys2Proof.Machine
end

