-- ==== Sys2Proof/Machine/Mem.lean ====
section
/-!
DEFINITION. Memory: one space of byte addresses that holds this device's DRAM, host memory, the memory of other devices,
the firmware's memory and the local arrays L(b) (R9, R18, R153, R158, R273); the homes of its
lines, host-memory copies (R264, R341), galleys, save points, grants (R168), and the byte sources of a load (R161).
-/
namespace Sys2Proof.Machine

/-! ## The address space -/

def dramBytes : Nat := 2 ^ 39
def hostBase : Nat := 2 ^ 64
def remoteBase : Nat := 2 ^ 65
def fwBase : Nat := 2 ^ 66
/-- Keys of saved galley lines whose translation has been invalidated: savedBase + virtual address (R208, R214). -/
def savedBase : Nat := 2 ^ 69
def localBase : Nat := 2 ^ 70

/-- Where a byte lives (R158). -/
inductive Home
  | device | host | remote (dev : Nat) | firmware | local (block : Nat)
deriving DecidableEq, Repr, Inhabited

def localAddr (block off : Nat) : Nat := localBase + block * 2 ^ 19 + off
def remoteAddr (dev va : Nat) : Nat := remoteBase + dev * 2 ^ 48 + va

def homeOf (a : Nat) : Home :=
  if a < hostBase then .device
  else if a < remoteBase then .host
  else if a < fwBase then .remote ((a - remoteBase) / 2 ^ 48)
  else if a < localBase then .firmware
  else .local ((a - localBase) / 2 ^ 19)

/-- Home level as a rank: BLOCK 1, CLUSTER 2, DEVICE 3, DOMAIN 4 (R158). -/
def homeRank (a : Nat) : Nat :=
  match homeOf a with
  | .local _ => 2
  | .remote _ => 4
  | _ => 3

/-- The 128-byte line of an address (R154). -/
def lineOf (a : Nat) : Nat := a / 128

/-- The die whose DRAM holds a physical address (R9). -/
def homeDie (a : Nat) : Nat := a / 2 ^ 12 % 4

/-! ## Bytes at their home -/

/-- What a byte of memory that nothing has written reads as: 0 (log 3). -/
def unlisted : Byte := 0

/-- The canonical form of memory: addresses strictly rising, and no listed byte equal to the unlisted one. -/
def Memory.wf (m : Cells) : Bool := Store.canon unlisted m

def Memory.read (m : Cells) (a : Nat) : Byte := Store.getD m a unlisted
def Memory.write (m : Cells) (a : Nat) (b : Byte) : Cells := Store.putD unlisted m a b

/-- One byte at its home, as a party of this device reads it: a device-level copy of a host byte first (R341). -/
def State.readByte (s : State) (a : Nat) : Byte :=
  match homeOf a with
  | .host => match Store.get? s.hostCopy a with
    | some c => c.val
    | none => Memory.read s.mem a
  | _ => Memory.read s.mem a

/-- A line as it stands is kept before the first store that a step makes to it while some launch runs (R82). -/
def State.keepOld (s : State) (a : Nat) : List OldLine :=
  let ln := lineOf a
  if s.grids.isEmpty || s.oldLines.any (fun o => o.line == ln && o.step == s.now) then s.oldLines
  else s.oldLines ++
    [{ line := ln, step := s.now, uid := s.nextUid, bytes := (List.range 128).map (fun k => s.readByte (128 * ln + k)) }]

/-- A write of one byte at its home by a party of this device; a host-memory byte stands in the device cache until its
write-back (R264). -/
def State.writeByte (s0 : State) (a : Nat) (b : Byte) : State :=
  let s := { s0 with oldLines := s0.keepOld a }
  match homeOf a with
  | .host => { s with hostCopy := Store.put s.hostCopy a ⟨b, true⟩ }
  | _ => { s with mem := Memory.write s.mem a b }

def State.writeBytes (s : State) (l : List (Nat × Byte)) : State := l.foldl (fun s e => s.writeByte e.1 e.2) s

/-- A byte written by the host, which the device cache does not snoop (R341). -/
def State.hostWrite (s : State) (a : Nat) (b : Byte) : State := { s with mem := Memory.write s.mem a b }

/-- A device read of host memory leaves a copy of the whole line in the device cache (R341). -/
def State.touchLine (s : State) (line : Nat) : State :=
  match homeOf (line * 128) with
  | .host =>
    { s with hostCopy := (List.range 128).foldl (fun c k =>
        match Store.get? c (line * 128 + k) with
        | some _ => c
        | none => Store.put c (line * 128 + k) ⟨Memory.read s.mem (line * 128 + k), false⟩) s.hostCopy }
  | _ => s

/-- Write-back of the dirty bytes of the copies a predicate selects; they stay as clean copies (R264, R341). -/
def State.writeBack (s : State) (sel : Nat → Bool) : State :=
  { s with
    mem := s.hostCopy.foldl (fun m e => if sel e.1 && e.2.dirty then Memory.write m e.1 e.2.val else m) s.mem
    hostCopy := s.hostCopy.map (fun e => if sel e.1 then (e.1, { e.2 with dirty := false }) else e) }

/-- Write-back and removal of the selected copies (R264: a SYSTEM acquire; R341: a line leaves the device cache). -/
def State.dropCopies (s : State) (sel : Nat → Bool) : State :=
  let s := s.writeBack sel
  { s with hostCopy := s.hostCopy.filter (fun e => !sel e.1) }

/-- Does an uncorrectable error stand in one of n bytes (R209)? -/
def State.badBytes (s : State) (a n : Nat) : Bool := (List.range n).any (fun k => s.bad.contains (.mem (a + k)))

/-- Does an uncorrectable error stand in a byte as a block's reader finds it: in the galley line that holds it, or at its home
(R161, R209)? -/
def State.badSeen (s : State) (block a : Nat) : Bool :=
  match s.block? block with
  | none => s.badBytes a 1
  | some blk =>
    if (Store.get? blk.galley.bytes a).isSome then s.bad.contains (.line 1 block (lineOf a))
    else if ((s.cluster? blk.cluster).bind (fun c => Store.get? c.galley.bytes a)).isSome then
      s.bad.contains (.line 2 blk.cluster (lineOf a))
    else s.badBytes a 1

/-- n bytes from an address, at their home. -/
def State.readBytes (s : State) (a n : Nat) : List Byte := (List.range n).map (fun k => s.readByte (a + k))

def State.readLE (s : State) (a n : Nat) : Nat := bytesVal (s.readBytes a n)

/-- The bytes of a value at an address, as entries. -/
def cellsOf (a n x : Nat) : List (Nat × Byte) :=
  (List.range n).map (fun k => (a + k, BitVec.ofNat 8 (x / 256 ^ k)))

/-! ## Galleys and save points -/

/-- Distinct lines of a set of bytes, ascending. -/
def linesOf (l : List (Nat × Byte)) : List Nat := uniq (l.map (fun e => lineOf e.1))

def Galley.empty : Galley := { bytes := [], marks := [] }

/-- Capacities in lines of the galleys of a gang, a block and a cluster launch (R159). -/
def gangLines : Nat := 2048
def blockLines : Nat := 16384
def clusterLines : Nat := 131072

/-- Bytes of one line removed from a galley's current bytes and from every save point (R175). -/
def Galley.dropLine (g : Galley) (line : Nat) : Galley :=
  { bytes := g.bytes.filter (fun e => lineOf e.1 != line)
    marks := g.marks.map (fun p => { p with bytes := p.bytes.filter (fun e => lineOf e.1 != line) }) }

def Galley.lineBytes (g : Galley) (line : Nat) : List (Nat × Byte) := g.bytes.filter (fun e => lineOf e.1 == line)

/-- Record a write of lines at a level in the read-set save points of one gang (R171). -/
def Gang.noteWrites (g : Gang) (rank : Nat) (lines : List Nat) : Gang :=
  { g with galley := { g.galley with marks := g.galley.marks.map (fun p =>
      if p.hasReads then { p with writes := p.writes ++ lines.map (fun l => (rank, l)) } else p) } }

/-- Record a write at block, cluster or device level for every gang that can see it, but the one excepted (R169, R171). -/
def State.noteWrites (s : State) (rank : Nat) (scope : Nat) (lines : List Nat) (except : Option Nat) : State :=
  { s with gangs := s.gangs.map (fun g =>
      let sees := match rank with
        | 1 => g.block == scope
        | 2 => match s.block? g.block with
          | some b => b.cluster == scope
          | none => false
        | _ => true
      if sees && some g.uid != except && !lines.isEmpty then g.noteWrites rank lines else g) }

/-- Writes at their home, with the conflicts they cause: into L(b) at CLUSTER level, into M at DEVICE level (R171, R248). -/
def State.homeWrites (s : State) (l : List (Nat × Byte)) (except : Option Nat) : State :=
  let s := s.writeBytes l
  let dev := l.filter (fun e => homeRank e.1 == 3)
  let s := s.noteWrites 3 0 (linesOf dev) except
  (linesOf (l.filter (fun e => homeRank e.1 == 2))).foldl (fun s ln =>
    match homeOf (ln * 128) with
    | .local b => match s.block? b with
      | some blk => s.noteWrites 2 blk.cluster [ln] except
      | none => s
    | _ => s) s

/-! ## Fabric lanes -/

/-- The hash lane of a line on another device (R257). -/
def hashLane (a : Nat) : Nat :=
  let v := a % 2 ^ 48
  (bits v 10 7) ^^^ (bits v 14 11) ^^^ (bits v 18 15) ^^^ (bits v 22 19)

/-- The number of this device, SELF of the installed table (R324). -/
def State.selfDev (s : State) : Nat := match s.domain with
  | some d => d.self
  | none => 512

/-- The ports that are set in a mask, in ascending order. -/
def portList (x : BitVec 18) : List Nat := (List.range 18).filter (fun k => x.getLsbD k)

/-- The port of hash lane h to a device: the (h mod n)-th of the n ports of its PORTS mask (R325), or, where that one is down, the
(h mod m)-th of the m that remain up (R326; log 34). -/
def State.lanePort (s : State) (dev lane : Nat) : Option Nat :=
  match s.domain.bind (fun d => d.devs.find? (fun e => e.1 == dev)) with
  | none => none
  | some e =>
    let pick (l : List Nat) : Option Nat := l[lane % l.length]?
    match pick (portList (BitVec.ofNat 18 e.2)) with
    | none => none
    | some p => if s.portsUp.getLsbD p then some p else pick (portList (BitVec.ofNat 18 e.2 &&& s.portsUp))

/-- Append an item to the lane of a remote line (R168, R194, R257); a lane takes its path when its first item comes and keeps it while
any stands on it (R325, R326). -/
def State.sendItem (s : State) (dev lane : Nat) (it : FabItem) : State :=
  let src := s.selfDev
  if s.lanes.any (fun l => l.src == src && l.dst == dev && l.lane == lane) then
    { s with lanes := s.lanes.map (fun l =>
        if l.src == src && l.dst == dev && l.lane == lane then { l with items := l.items ++ [it] } else l) }
  else { s with lanes := s.lanes ++ [{ src := src, dst := dev, lane := lane, port := s.lanePort dev lane, items := [it] }] }

/-- The device and lane of a remote address. -/
def remoteLane (a : Nat) : Nat × Nat :=
  match homeOf a with
  | .remote d => (d, hashLane (a - remoteBase))
  | _ => (0, 0)

/-! ## Grants -/

/-- The galley a line goes to, or its home, when it is carried to a target level (R168): rank of the galley, 0 for home. -/
def placeRank (target a : Nat) : Nat :=
  if homeRank a ≤ target then 0 else if target < 3 then target else 2

/-- Put bytes into G(block). -/
def State.intoBlock (s : State) (block : Nat) (l : List (Nat × Byte)) : State :=
  s.updBlock block (fun b => { b with galley := { b.galley with bytes := Store.merge b.galley.bytes l } })

/-- Put bytes into G(cluster). -/
def State.intoCluster (s : State) (cluster : Nat) (l : List (Nat × Byte)) : State :=
  s.updCluster cluster (fun c => { c with galley := { c.galley with bytes := Store.merge c.galley.bytes l } })

/-- Append remote lines to their lanes in ascending line address (R168); answers the number of items. -/
def State.sendStores (s : State) (gang op : Nat) (l : List (Nat × Byte)) : State :=
  (linesOf l).foldl (fun s ln =>
    let rl := remoteLane (ln * 128)
    s.sendItem rl.1 rl.2 (.store gang op (l.filter (fun e => lineOf e.1 == ln)))) s

/-- The bytes a grant carries: the detached lines over those of each galley moved (R168). -/
def State.grantBytes (s : State) (blk : Block) (bytes : List (Nat × Byte)) (lvl : Nat) : List (Nat × Byte) :=
  let b1 := if 1 ≤ lvl then Store.merge blk.galley.bytes bytes else bytes
  if 2 ≤ lvl then
    match s.cluster? blk.cluster with
    | some c => Store.merge c.galley.bytes b1
    | none => b1
  else b1

/-- The target rank of a commit by its LVL: the level above the galley named, DOMAIN for DEVICE (R167). -/
def targetRank (lvl : Nat) : Nat := lvl + 1

/-- The first line of a move that does not fit a galley of a capacity beside the lines it holds (R159). -/
def firstUnfit (cap : Nat) (held moved : List Nat) : Option Nat :=
  let new := moved.filter (fun l => !held.contains l)
  if held.length + new.length ≤ cap then none else some ((new.drop (cap - held.length)).headD 0 * 128)

/-- The first line that would take a galley past its capacity (R159): the galleys after the move, as line counts. -/
def State.grantOverflow (s : State) (blk : Block) (carried : List (Nat × Byte)) (lvl : Nat) : Option Nat :=
  let t := targetRank lvl
  let toB := carried.filter (fun e => placeRank t e.1 == 1)
  let toC := carried.filter (fun e => placeRank t e.1 == 2)
  let heldB := if 1 ≤ lvl then [] else linesOf blk.galley.bytes
  let heldC := if 2 ≤ lvl then [] else ((s.cluster? blk.cluster).map (fun c => linesOf c.galley.bytes)).getD []
  match firstUnfit blockLines heldB (linesOf toB) with
  | some a => some a
  | none => firstUnfit clusterLines heldC (linesOf toC)

/-- The grant itself (R168): the galleys moved are emptied and their marks cleared, each line goes to its place, and
each level reached is written for the conflict rule (R169). The gang's own marks are the caller's. -/
def State.applyGrant (s : State) (gang op : Nat) (blk : Block) (carried : List (Nat × Byte)) (lvl : Nat) : State :=
  let t := targetRank lvl
  let s := if 1 ≤ lvl then s.updBlock blk.uid (fun b => { b with galley := Galley.empty }) else s
  let s := if 2 ≤ lvl then s.updCluster blk.cluster (fun c => { c with galley := Galley.empty }) else s
  let s := s.intoBlock blk.uid (carried.filter (fun e => placeRank t e.1 == 1))
  let s := s.intoCluster blk.cluster (carried.filter (fun e => placeRank t e.1 == 2))
  let home := carried.filter (fun e => placeRank t e.1 == 0)
  let s := s.writeBytes (home.filter (fun e => homeRank e.1 != 4))
  let s := s.sendStores gang op (home.filter (fun e => homeRank e.1 == 4))
  let lines := linesOf carried
  let s := s.noteWrites 1 blk.uid lines (some gang)
  let s := if 2 ≤ t then s.noteWrites 2 blk.cluster lines (some gang) else s
  if 3 ≤ t then s.noteWrites 3 0 lines (some gang) else s

/-! ## What a reader sees -/

/-- The bytes of a gang's own view: G(g) over the detached lines, the newest entry first (R161, R187). -/
def Gang.ownByte? (g : Gang) (a : Nat) : Option Byte :=
  match Store.get? g.galley.bytes a with
  | some b => some b
  | none => (g.dlist.reverse.findSome? (fun d => Store.get? d.bytes a))

/-- The own-gang view of a range, taken at issue. -/
def Gang.ownView (g : Gang) (a n : Nat) : Cells :=
  (List.range n).filterMap (fun k => (g.ownByte? (a + k)).map (fun b => (a + k, b)))

/-- Is the local array of a block discarded: the block has retired (R162)? -/
def State.localGone (s : State) (b : Nat) : Bool :=
  match s.block? b with
  | some x => x.stage == .exited || x.stage == .done
  | none => true

/-- A byte at its home as a block's reader finds it; what stands in a discarded local array is open (R153, R162; log 5). -/
def State.homeByte (s : State) (a : Nat) : Byte :=
  match homeOf a with
  | .local b => if s.localGone b then BitVec.ofNat 8 (Config.freeNat s.now (2 ^ 100 + a)) else s.readByte a
  | _ => s.readByte a

/-- A byte from G(block), then G(cluster), then its home (R161). -/
def State.seenByte (s : State) (block : Nat) (a : Nat) : Byte :=
  match s.block? block with
  | none => s.homeByte a
  | some blk =>
    match Store.get? blk.galley.bytes a with
    | some b => b
    | none =>
      match (s.cluster? blk.cluster).bind (fun c => Store.get? c.galley.bytes a) with
      | some b => b
      | none => s.homeByte a

/-- A load's bytes at its resolution: its own view where it holds them, else the sources of R161. -/
def State.resolveBytes (s : State) (block : Nat) (own : Cells) (a n : Nat) : List Byte :=
  (List.range n).map (fun k => (Store.get? own (a + k)).getD (s.seenByte block (a + k)))

/-- A reader of home memory alone: M of a device, or the firmware's memory. -/
def State.homeBytes (s : State) (a n : Nat) : List Byte := s.readBytes a n

end Sys2Proof.Machine
end

