-- ==== Sys2Proof/Machine/Regs.lean ====
section
/-!
DEFINITION. The register files of a gang: scalars (`s0` reads as zero and discards writes, R23, R69), vectors, masks, `em`.
Every read and write passes here. A register element with a finished but unlanded result reads old or new by a free choice,
and an element written meanwhile ends with either (R14).
-/
namespace Sys2Proof.Machine

/-- Key of a register element in the R14 bookkeeping: vectors, then scalars, then the 32-bit words of masks. -/
def vKey (reg lane : Nat) : Nat := reg * 128 + lane
def sKey (reg : Nat) : Nat := 2 ^ 16 + reg
def mKey (reg word : Nat) : Nat := 2 ^ 17 + reg * 4 + word

def Gang.rawV (g : Gang) (reg lane : Nat) : W32 := Store.getD g.vregs (vKey reg lane) 0
def Gang.rawS (g : Gang) (reg : Nat) : W32 := if reg = 0 then 0 else Store.getD g.sregs reg 0
/-- A scalar as the instructions of this clock read it: the value held before the clock (R105). -/
def Gang.seenS (g : Gang) (reg : Nat) : W32 := if reg = 0 then 0 else (Store.get? g.fresh reg).getD (g.rawS reg)
def Gang.rawM (g : Gang) (reg : Nat) : Lanes := Store.getD g.masks reg 0

/-- The value a due operation will write to a vector or scalar element, if it will write it and nothing has written the
element since. -/
def Op.dueElem (o : Op) (key : Nat) : Option W32 :=
  if o.done && !o.rewritten.contains key then
    o.writes.findSome? (fun w => match w with
      | .v reg lane x => if vKey reg lane == key && reg < o.cut then some x else none
      | .s reg x => if sKey reg == key then some x else none
      | .m _ _ _ => none)
  else none

/-- An element's value: the stored one, or a due one by a free choice (R14). -/
def Gang.freeElem (g : Gang) (now key : Nat) (stored : W32) : W32 :=
  g.ops.foldl (fun v o => match o.dueElem key with
    | some x => if Config.freeBit now (o.id * 2 ^ 18 + key) then x else v
    | none => v) stored

/-- Read one 32-bit vector element. -/
def Gang.rdV (g : Gang) (now reg lane : Nat) : W32 := g.freeElem now (vKey reg lane) (g.rawV reg lane)

/-- Read one scalar register; `s0` reads as zero (R23). -/
def Gang.rdS (g : Gang) (now reg : Nat) : W32 := if reg = 0 then 0 else g.freeElem now (sKey reg) (g.seenS reg)

/-- The lanes of each 32-bit element of a mask for which a choice by the element holds. -/
def elemLanes (f : Nat → Bool) : Lanes :=
  (List.range 4).foldl (fun (a : Lanes) k => if f k then a ||| ((0xFFFFFFFF : Lanes) <<< (32 * k)) else a) 0

/-- Read a mask register, each 32-bit element old or new (R14). -/
def Gang.rdM (g : Gang) (now reg : Nat) : Lanes :=
  g.ops.foldl (fun v o =>
    if o.done then
      o.writes.foldl (fun v w => match w with
        | .m r lanes x =>
          let l := if r == reg then
            lanes &&& elemLanes (fun k => !o.rewritten.contains (mKey reg k) && Config.freeBit now (o.id * 2 ^ 18 + mKey reg k)) else 0
          (v &&& ~~~ l) ||| (x &&& l)
        | _ => v) v
    else v) (g.rawM reg)

/-- A 64-bit scalar pair (R84). -/
def Gang.rdS64 (g : Gang) (now reg : Nat) : W64 := pair (g.rdS now reg) (g.rdS now (reg + 1))

/-- A 64-bit vector pair. -/
def Gang.rdV64 (g : Gang) (now reg lane : Nat) : W64 := pair (g.rdV now reg lane) (g.rdV now (reg + 1) lane)

/-- Note in every outstanding operation that the program has written an element (R14). -/
def Gang.noteOver (g : Gang) (key : Nat) : Gang :=
  { g with ops := g.ops.map (fun o => { o with rewritten := key :: o.rewritten }) }

/-- Write one vector element. -/
def Gang.wrV (g : Gang) (reg lane : Nat) (x : W32) : Gang :=
  { g.noteOver (vKey reg lane) with vregs := Store.putD 0 g.vregs (vKey reg lane) x }

/-- Write one scalar register; a write to `s0` is discarded (R69). The value held before this clock is kept for the other
group that issues in it (R105). -/
def Gang.wrS (g : Gang) (reg : Nat) (x : W32) : Gang :=
  if reg = 0 then g
  else { g.noteOver (sKey reg) with sregs := Store.putD 0 g.sregs reg x, fresh := Store.put g.fresh reg (g.seenS reg) }

/-- The 32-bit elements of a mask in which the program has written lanes that the operation is to write. -/
def Op.maskOver (o : Op) (reg : Nat) (lanes : Lanes) : List Nat :=
  ((List.range 4).filter (fun k => o.writes.any (fun w => match w with
    | .m r l _ => r == reg && l &&& lanes &&& ((0xFFFFFFFF : Lanes) <<< (32 * k)) != 0
    | _ => false))).map (mKey reg)

/-- Note in every outstanding operation that the program has written lanes of a mask. -/
def Gang.noteMask (g : Gang) (reg : Nat) (lanes : Lanes) : Gang :=
  { g with ops := g.ops.map (fun o => { o with rewritten := o.maskOver reg lanes ++ o.rewritten }) }

/-- Write the bits of some lanes of a mask register. -/
def Gang.wrM (g : Gang) (reg : Nat) (lanes x : Lanes) : Gang :=
  { g.noteMask reg lanes with
    masks := Store.putD 0 g.masks reg ((g.rawM reg &&& ~~~ lanes) ||| (x &&& lanes)) }

def Gang.wrS64 (g : Gang) (reg : Nat) (x : W64) : Gang := (g.wrS reg (loHalf x)).wrS (reg + 1) (hiHalf x)

def Gang.wrV64 (g : Gang) (reg lane : Nat) (x : W64) : Gang :=
  (g.wrV reg lane (loHalf x)).wrV (reg + 1) lane (hiHalf x)

/-- The lanes held in an entry of some reconvergence stack (R116). -/
def Gang.stacked (g : Gang) : Lanes :=
  g.reconv.foldl (fun a st => st.foldl (fun a e => a ||| e.lanes) a) 0

/-- Write bits of `em`: absent lanes stay off, and lanes held on a stack stay clear (R40, R111). -/
def Gang.wrEm (g : Gang) (lanes x : Lanes) : Gang :=
  let ok := lanes &&& g.present &&& ~~~ g.stacked
  { g with em := (g.em &&& ~~~ ok) ||| (x &&& ok) }

/-! ## Landing of results -/

/-- Does an element written meanwhile keep the program's value (R14)? -/
def Op.keeps (o : Op) (now key : Nat) : Bool := o.rewritten.contains key && Config.freeBit now (o.id * 2 ^ 18 + key)

/-- One result written at its landing: an element written meanwhile keeps its value or takes the result by a free choice, but
one that lands on a scalar written in the same clock stays; a result for a released register is discarded (R14, R131, R204). -/
def Gang.landWrite (now : Nat) (o : Op) (g : Gang) (w : RegWrite) : Gang :=
  match w with
  | .v reg lane x =>
    if o.cut ≤ reg || o.keeps now (vKey reg lane) then g
    else { g with vregs := Store.putD 0 g.vregs (vKey reg lane) x }
  | .s reg x =>
    if reg = 0 || (o.keeps now (sKey reg) && (Store.get? g.fresh reg).isNone) then g
    else { g with sregs := Store.putD 0 g.sregs reg x }
  | .m reg lanes x =>
    let l := lanes &&& elemLanes (fun k => !o.keeps now (mKey reg k))
    { g with masks := Store.putD 0 g.masks reg ((g.rawM reg &&& ~~~ l) ||| (x &&& l)) }

/-- All results of an operation. -/
def Gang.landWrites (now : Nat) (g : Gang) (o : Op) : Gang := o.writes.foldl (Gang.landWrite now o) g

/-- Set sticky bits (R98); a write of the same clock by another group counts as before them (R99). -/
def Gang.setSticky (g : Gang) (x : W32) : Gang := { g with astatus := g.astatus ||| x, freshBits := g.freshBits ||| x }

/-- FTZ (R98). -/
def Gang.ftz (g : Gang) : Bool := g.astatus.getLsbD 16

/-! ## Allotment changes (R204) -/

/-- The allotment becomes n, by way of a least allotment: registers released lose their contents, results due for them are
discarded, registers gained read as zero, and the bytes given up are no longer reserved. -/
def Gang.setAllot (g : Gang) (n low : Nat) : Gang :=
  { g with
    allot := n
    reserve := n
    vregs := g.vregs.filter (fun e => e.1 / 128 < min n low)
    ops := g.ops.map (fun o => { o with cut := min o.cut (min n low) }) }

end Sys2Proof.Machine
end

