-- ==== Sys2Proof/Machine/Translate.lean ====
section
/-!
DEFINITION. From effective addresses to bytes: the spaces of R153, the checks of R155 in their order, the translation caches
of R205, and the requests that a miss sends (R205, R206, R318).
-/
namespace Sys2Proof.Machine

/-! ## Translation -/

/-- The page of a size that holds an address. -/
def pageBase (log2 va : Nat) : Nat := va / 2 ^ log2 * 2 ^ log2

def Tlb.matches (t : Tlb) (core pasid va : Nat) : Bool :=
  (t.scope == core || t.scope == 512 + dieOf core) && t.pasid == pasid && pageBase t.log2 va == t.page

/-- The core's cache, then the die's (R205). -/
def State.tlbFind (s : State) (core pasid va : Nat) : Option Tlb := s.tlb.find? (fun t => t.matches core pasid va)

/-- The unified address a translation gives. -/
def Tlb.target (t : Tlb) (va : Nat) : Nat :=
  let off := va - t.page
  if t.own then t.frame + off else hostBase + t.frame + off

/-- What a device-virtual address is for a party. -/
inductive Lookup
  | hit (addr : Nat) (r w : Bool)
  | miss
deriving DecidableEq, Repr, Inhabited

/-- Translate under a PASID; on a compositor core the spaces name the firmware's own address space (R273). -/
def State.lookup (s : State) (core pasid va : Nat) : Lookup :=
  if isCompositor core then .hit (fwBase + va) true true
  else match s.tlbFind core pasid va with
    | some t => .hit (t.target va) t.r t.w
    | none => .miss

/-- Capacities of the caches of a core and of a die (R205). -/
def coreTlb : Nat := 512
def dieTlb : Nat := 16384

/-- Add an entry to one cache; a full cache loses its oldest entry (log 11). -/
def State.tlbAdd (s : State) (t : Tlb) (cap : Nat) : State :=
  let same := s.tlb.filter (fun x => x.scope == t.scope && !(x.pasid == t.pasid && x.page == t.page && x.log2 == t.log2))
  let other := s.tlb.filter (fun x => x.scope != t.scope)
  { s with tlb := other ++ (if cap ≤ same.length then same.drop 1 else same) ++ [t] }

/-- Outstanding ATS requests of the device (R205). -/
def atsLimit : Nat := 4096

/-- Does an ATS request ask for a page of a PASID with a right? -/
def Ats.asks (a : Ats) (pasid page : Nat) (wr : Bool) : Bool := a.pasid == pasid && a.page == page && a.wr == wr

/-- Send a translation request for the 4 KiB page of an address and a right, merged with an equal one; a request beyond the
limit waits until one completes (R205). -/
def State.requestAts (s : State) (w : Waiter) (pasid va : Nat) (wr : Bool) : State :=
  let page := pageBase 12 va
  if s.ats.any (fun a => a.asks pasid page wr) then
    { s with ats := s.ats.map (fun a =>
        if a.asks pasid page wr && !a.waiters.contains w then { a with waiters := a.waiters ++ [w] } else a) }
  else { s with ats := s.ats ++
      [{ pasid := pasid, page := page, wr := wr, waiters := [w], sent := (s.ats.filter (fun a => a.sent)).length < atsLimit }] }

def Pri.asks (p : Pri) (pasid page : Nat) (wr : Bool) : Bool := p.pasid == pasid && p.page == page && p.wr == wr

/-- Is a PASID being torn down (R279)? -/
def State.tornDown (s : State) (pasid : Nat) : Bool := s.queues.any (fun q => q.pasid == pasid && q.state == .teardown)

/-- Send a page request, merged with an equal one; beyond the allocation it waits for a response, and after the Stop Marker of its
PASID none is sent (R206, R318). -/
def State.requestPri (s : State) (pasid page : Nat) (wr : Bool) (waiters : List Waiter) : State :=
  if s.pri.any (fun p => p.asks pasid page wr) then
    { s with pri := s.pri.map (fun p =>
        if p.asks pasid page wr then { p with waiters := p.waiters ++ waiters.filter (fun w => !p.waiters.contains w) } else p) }
  else { s with pri := s.pri ++
      [{ pasid := pasid, page := page, wr := wr, waiters := waiters
         sent := !s.tornDown pasid && (s.pri.filter (fun p => p.sent)).length < s.host.priAlloc }] }

/-- Work that has ended waits for nothing any more, and its answers are dropped (R254). -/
def State.dropWaiter (s : State) (w : Waiter) : State :=
  { s with
    denied := s.denied.filter (fun d => d.1 != w)
    ats := s.ats.map (fun a => { a with waiters := a.waiters.filter (· != w) })
    pri := s.pri.map (fun p => { p with waiters := p.waiters.filter (· != w) }) }

/-! ## Effective addresses -/

/-- A party that accesses memory: its core, PASID, block, the place of its scratch, its launch's bounds, and who waits for its
translations. -/
structure Party where
  (core pasid block cluster : Nat)
  (localSize scratch : Nat)
  (det fabx : Bool)
  /-- device-virtual address of the scratch of lane 0 of the gang (R212) -/
  (scratch0 : Nat)
  (who : Waiter)
  /-- the debug handler reaches device-virtual memory only (R296) -/
  (handler : Bool)
deriving DecidableEq, Repr, Inhabited

def emptyDesc : Desc :=
  { code := 0, args := 0, tvec := 0, ctx := 0, grid := 1, measure := 32, cluster := 1, det := false, fabx := false,
    ftz := false, roles := false, quantum := 1000, localSize := 0, scratch := 0,
    role0 := ⟨0, 1, 32, 32, 8, 0⟩, role1 := ⟨0, 0, 0, 0, 0, 0⟩, barm := [] }

/-! ## The context area (R211, R212) -/

/-- Bytes of a role's gangs in a block's context record (R211). -/
def Role.recordBytes (r : Role) (measure : Nat) : Nat := r.gangs * (16384 + 4608 + r.allot * measure * 4)

def Desc.gangTotal (d : Desc) : Nat := d.role0.gangs + (if d.roles then d.role1.gangs else 0)

/-- Size of a block's context record (R211). -/
def Desc.recordBytes (d : Desc) : Nat :=
  4096 + d.localSize + 36864 + d.role0.recordBytes d.measure + (if d.roles then d.role1.recordBytes d.measure else 0)

/-- Size of the cluster part of a context record (R211). -/
def clusterRecord : Nat := 2359296

/-- The four parts of a block area, each rounded up to 4 KiB: record, scratch, overflow, cluster (R212). -/
def Desc.areaParts (d : Desc) : List Nat :=
  [d.recordBytes, d.scratch * d.gangTotal * d.measure, 21233664 + d.gangTotal * 2666496, clusterRecord + 169869312].map
    (fun n => roundUp n 4096)

/-- A: the size of a block area (R212). -/
def Desc.areaSize (d : Desc) : Nat := d.areaParts.sum

/-- First byte of a part of block b's area (R212). -/
def Desc.areaAt (d : Desc) (b part : Nat) : Nat := (d.ctx.toNat + b * d.areaSize + (d.areaParts.take part).sum) % 2 ^ 56

/-- The party a gang is. -/
def Gang.party (s : State) (g : Gang) : Party :=
  let blk := s.block? g.block
  let gr := g.grid? s
  let d := (gr.map (fun x => x.desc)).getD emptyDesc
  { core := g.coreKey, pasid := (gr.map (fun x => x.pasid)).getD 0, block := g.block
    cluster := (blk.map (fun b => b.cluster)).getD 0, localSize := d.localSize, scratch := d.scratch
    det := d.det, fabx := d.fabx, who := .core g.coreKey
    scratch0 := d.areaAt ((blk.map (fun b => b.blockid)).getD 0) 1 + g.gangid * g.measure * d.scratch
    handler := match g.place with | .handler _ => true | _ => false }

/-- Where an effective address that passes checks 1 to 4 of R155 leads: a unified address, or device-virtual memory. -/
inductive Target
  | at (addr : Nat)
  | dev (va : Nat)
deriving DecidableEq, Repr, Inhabited

/-- A failed check: its rank in R155 and its code. -/
structure Bad where
  (rank : Nat)
  (code : Code)
deriving DecidableEq, Repr, Inhabited

def Bad.space : Bad := ⟨1, .spaceInvalid⟩
def Bad.det : Bad := ⟨2, .detViolation⟩
def Bad.align : Bad := ⟨3, .misaligned⟩
def Bad.limit : Bad := ⟨4, .accessDenied⟩
def Bad.rights : Bad := ⟨5, .accessDenied⟩

/-- What an access may be: an atomic does not reach scratch (R157); a domain-scope atomic is checked by its scope (R61). -/
inductive AccKind
  | plain | atomic (domain : Bool)
deriving DecidableEq, Repr, Inhabited

def AccKind.isAtomic : AccKind → Bool
  | .atomic _ => true
  | .plain => false

/-- The rank-k block of a cluster launch. -/
def State.rankBlock (s : State) (cluster k : Nat) : Option Block :=
  s.blocks.find? (fun b => b.cluster == cluster && b.crank == k)

/-- The number of the rank-k block of a cluster launch, whether or not it has retired (R153). -/
def State.rankUid (s : State) (cluster k : Nat) : Option Nat := (s.cluster? cluster).bind (fun c => c.blocks[k]?)

/-- The space of an effective address (R153). -/
def spaceOf (ea : W64) : Nat := ea.toNat / 2 ^ 57

/-- Does an address name another device? -/
def State.remoteEa (s : State) (ea : W64) : Bool :=
  spaceOf ea == 0x30 && !(s.domain.isSome && bits ea.toNat 56 48 == s.selfDev)

/-- A remote operation is held at its issue while a new domain table waits to take effect (R324). -/
def State.heldRemote (s : State) (l : List W64) : Bool := s.domainPending.isSome && l.any s.remoteEa

/-- Does device d belong to the domain of a PASID that holds a handle (R153, R324)? -/
def State.domainReach (s : State) (pasid d : Nat) : Bool :=
  match s.domain with
  | some t => t.devs.any (fun e => e.1 == d) && t.handles.any (fun h => h.2 == pasid)
  | none => false

/-- The checks of R153 and R155 up to the local and scratch limits, for width w (a power of two) and n bytes in all. -/
def State.checkEa (s : State) (p : Party) (k : AccKind) (ea : W64) (w n lane : Nat) : Except Bad Target :=
  let a := ea.toNat
  let sp := a / 2 ^ 57
  let al := a % w != 0
  let detBad := match k with
    | .atomic domain => domain && p.det && !p.fabx
    | .plain => false
  if sp ≤ 2 then
    if bit a 56 then .error .space
    else if detBad then .error .det
    else if al then .error .align
    else .ok (.dev (a % 2 ^ 56))
  else if p.handler then .error .space
  else if sp = 0x10 then
    if bits a 56 19 != 0 then .error .space
    else if detBad then .error .det
    else if al then .error .align
    else if p.localSize < a % 2 ^ 19 + n then .error .limit
    else .ok (.at (localAddr p.block (a % 2 ^ 19)))
  else if sp = 0x11 then
    if bits a 56 23 != 0 || bit a 19 then .error .space
    else match s.rankUid p.cluster (bits a 22 20) with
      | none => .error .space
      | some b =>
        if detBad then .error .det
        else if al then .error .align
        else if p.localSize < a % 2 ^ 19 + n then .error .limit
        else .ok (.at (localAddr b (a % 2 ^ 19)))
  else if sp = 0x20 then
    if bits a 56 24 != 0 || k.isAtomic then .error .space
    else if al then .error .align
    else if p.scratch < a % 2 ^ 24 + n then .error .limit
    else .ok (.dev ((p.scratch0 + lane * p.scratch + a % 2 ^ 24) % 2 ^ 56))
  else if sp = 0x30 then
    if !s.feature 7 then .error .space
    else
      let d := bits a 56 48
      let va := a % 2 ^ 48
      let own := s.domain.isSome && d == s.selfDev
      if (detBad || (!own && !k.isAtomic && p.det && !p.fabx)) then .error .det
      else if al then .error .align
      else if own then .ok (.dev va)
      else if s.domainReach p.pasid d then .ok (.at (remoteAddr d va))
      else .error .rights
  else .error .space

/-- A translated access: the unified address, a miss on a page, or a refused right. -/
inductive Reach
  | at (addr : Nat)
  | miss (va : Nat)
  | bad (b : Bad)
deriving DecidableEq, Repr, Inhabited

/-- Does the IOMMU of another device grant the right to an address there (R153; log 52)? -/
def State.remoteRight (s : State) (a : Nat) (write : Bool) : Bool :=
  homeRank a != 4 || !Config.freeBit s.now (2 ^ 120 + 2 * a + (if write then 1 else 0))

/-- Checks 1 to 5 of R155 in order; `write` names the right that is needed. -/
def State.reach (s : State) (p : Party) (k : AccKind) (write : Bool) (ea : W64) (w n lane : Nat) : Reach :=
  match s.checkEa p k ea w n lane with
  | .error b => .bad b
  | .ok (.at a) => if s.remoteRight a write then .at a else .bad .rights
  | .ok (.dev va) =>
    match s.lookup p.core p.pasid va with
    | .miss => .miss va
    | .hit a r wr => if (if write then wr else r) then .at a else .bad .rights

/-- The lane and fault an instruction takes: the highest-ranking fault, then the lowest lane (R155). -/
def worstFault (l : List (Nat × W64 × Bad)) : Option (W64 × Code) :=
  let pick := l.foldl (fun (best : Option (Nat × W64 × Bad)) e =>
    match best with
    | none => some e
    | some b => if e.2.2.rank < b.2.2.rank then some e else some b) none
  pick.map (fun e => (e.2.1, e.2.2.code))

/-- A frame of this device beyond the installed DRAM does not exist (R1). -/
def badFrame (a : Nat) : Bool := dramBytes ≤ a && a < hostBase

/-! ## Engines

An engine that works for a core waits for its translations itself and parks no gang (R212, R254). -/

/-- The key of the engines of the I/O die. -/
def ioKey : Nat := 320

/-- The core whose cache a waiter's translation fills. -/
def Waiter.core' : Waiter → Nat
  | .core k | .engine k _ | .area k _ => k

/-- The engine of the party's core on behalf of one operation (R254). -/
def Party.engineFor (p : Party) (op : Nat) : Party := { p with who := .engine p.core op }

/-- A piece of work of the I/O die, by its kind and number, as one that waits for translations of its own (R254): 0 a packet,
1 a copy, 2 a block, 3 a grid, 4 a slot of a compositor, 5 a host command, 6 an ingress stream, 7 a `launch`. -/
def ioWork (kind n : Nat) : Waiter := .engine ioKey (8 * n + kind + 1)

/-- A translation that an engine has to wait for: who waits, the PASID, the address and the right. -/
structure Ask where
  (who : Waiter)
  (pasid va : Nat)
  (wr : Bool)
deriving DecidableEq, Repr, Inhabited

def State.ask (s : State) (q : Ask) : State := s.requestAts q.who q.pasid q.va q.wr

/-- What an engine's access comes to: a value, a page to wait for, or a failed check by its rank in R155 (5 rights, 6 no
translation). -/
inductive Eng (α : Type)
  | ok (x : α)
  | miss (q : Ask)
  | bad (rank : Nat)

def Eng.bind {α β : Type} (x : Eng α) (f : α → Eng β) : Eng β :=
  match x with
  | .ok a => f a
  | .miss q => .miss q
  | .bad k => .bad k

/-- A function over a list, stopping at the first access that is not made. -/
def engMap {α β : Type} (f : α → Eng β) : List α → Eng (List β)
  | [] => .ok []
  | a :: l => (f a).bind (fun b => (engMap f l).bind (fun bs => .ok (b :: bs)))

/-- Where an engine's access leads. -/
def State.engineAt (s : State) (p : Party) (write : Bool) (ea : W64) (w n : Nat) : Eng Nat :=
  match s.reach p .plain write ea w n 0 with
  | .at a => .ok a
  | .miss va => if s.denied.contains (p.who, p.pasid, pageBase 12 va) then .bad 6 else .miss ⟨p.who, p.pasid, va, write⟩
  | .bad b => .bad b.rank

/-- A range cut at line boundaries. -/
def lineParts (ea : W64) (n : Nat) : List (W64 × Nat) :=
  (List.range (n / 128 + 2)).filterMap (fun k =>
    let lo := if k = 0 then 0 else 128 * k - ea.toNat % 128
    let hi := min n (128 * (k + 1) - ea.toNat % 128)
    if lo < hi then some (ea + BitVec.ofNat 64 lo, hi - lo) else none)

/-- Ranks of an uncorrectable source datum, reason 4, and of a device that no port reaches, reason 5 (R258). -/
def badSource : Nat := 8
def badReach : Nat := 9

/-- Is the home of an address a device that no port reaches (R326)? -/
def State.lost (s : State) (a : Nat) : Bool :=
  match homeOf a with
  | .remote d => s.unreachable.contains d
  | _ => false

/-- Does an uncorrectable error stand in one of n bytes as an engine's reader finds them (R209)? -/
def State.engineBad (s : State) (block : Option Nat) (a n : Nat) : Bool :=
  match block with
  | some b => if homeRank a == 4 then s.badBytes a n else (List.range n).any (fun k => s.badSeen b (a + k))
  | none => s.badBytes a n

/-- n bytes read by an engine: from the galleys of a block and the homes (R248), or with no block from the homes alone. -/
def State.engineRead (s : State) (p : Party) (block : Option Nat) (ea : W64) (n : Nat) : Eng (List Byte) :=
  (engMap (fun (e : W64 × Nat) => (s.engineAt p false e.1 1 e.2).bind (fun a =>
    if s.lost a then .bad badReach
    else if s.engineBad block a e.2 then .bad badSource
    else .ok ((List.range e.2).map (fun k => match block with
      | some b => if homeRank a == 4 then s.readByte (a + k) else s.seenByte b (a + k)
      | none => s.readByte (a + k))))) (lineParts ea n)).bind (fun l => .ok l.flatten)

/-- The unified addresses of n bytes that an engine writes. -/
def State.engineDest (s : State) (p : Party) (ea : W64) (n : Nat) : Eng (List Nat) :=
  (engMap (fun (e : W64 × Nat) => (s.engineAt p true e.1 1 e.2).bind (fun a =>
    .ok ((List.range e.2).map (fun k => a + k)))) (lineParts ea n)).bind (fun l => .ok l.flatten)

/-- The party of the I/O die's engines under a PASID, for one piece of work. -/
def ioParty (who : Waiter) (pasid : Nat) : Party :=
  { core := ioKey, pasid := pasid, block := 0, cluster := 0, localSize := 0, scratch := 0, det := false, fabx := false
    scratch0 := 0, who := who, handler := true }

end Sys2Proof.Machine
end

