-- ==== Sys2Proof/Machine/Ops.lean ====
section
/-!
DEFINITION. The operations that instructions share: the issuing word and its lanes (R120, R128), completion flags (R13),
outstanding operations (R15), the end of a clause (R13, R122, R204, R340), taking a fault (R197, R198, R201, R202) and the
return from a handler (R200), splits and merges of slice-groups (R45, R48, R117), and `issueWord`, which every instruction
issues through.
-/
namespace Sys2Proof.Machine

/-! ## Clocks -/

def State.clockOf (s : State) (core : Nat) : Nat :=
  match s.core? core with
  | some c => c.clock
  | none => 0

/-- The launch clock of a gang's deterministic launch (R59). -/
def State.launchClock (s : State) (g : Gang) : Nat :=
  match g.grid? s with
  | some gr => match s.root? gr.root with
    | some r => r.clock
    | none => 0
  | none => 0

/-! ## Completion flags and operations -/

/-- The flags some outstanding operation or some group's clause still holds (R13). -/
def Gang.heldFlags (g : Gang) : BitVec 12 :=
  let one (f : Option Nat) : BitVec 12 := match f with
    | some k => (1 : BitVec 12) <<< k
    | none => 0
  let ofOps := g.ops.foldl (fun a o => a ||| one o.flag) (0 : BitVec 12)
  g.groups.foldl (fun a r => match r.run with
    | some u => a ||| one u.header.fa ||| one u.header.fb
    | none => a) ofOps

/-- Flags clear once nothing holds them (R13, items 3 to 5). -/
def Gang.settleFlags (g : Gang) : Gang := { g with flags := g.flags &&& g.heldFlags }

/-- An operation that has just issued: no result yet, its counter and flag as given. -/
def Op.make (id : Nat) (kind : OpKind) (ctr : Option Ctr) (flag : Option Nat) (pc : W64) : Op :=
  { id := id, kind := kind, ctr := ctr, flag := flag, done := false, started := false, due := none, pc := pc
    writes := [], rewritten := [], sticky := 0, err := none, cut := 256, watched := false }

def Gang.addOp (g : Gang) (o : Op) : Gang := { g with ops := g.ops ++ [o] }

/-- An operation added to a gang, under a fresh number. -/
def State.addOp (s : State) (uid : Nat) (f : Nat → Op) : State :=
  State.updGang { s with nextOp := s.nextOp + 1 } uid (fun g => g.addOp (f s.nextOp))

/-- May an operation retire now: no older operation of its counter is outstanding (R16). -/
def Gang.oldest (g : Gang) (o : Op) : Bool :=
  match o.ctr with
  | none => true
  | some c => !g.ops.any (fun p => p.ctr == some c && p.id < o.id)

/-- The due clock of an operation in a deterministic launch: its launch clock of issue plus a latency (R60). -/
def State.dueAt (s : State) (g : Gang) (lat : Nat) : Option Nat :=
  if g.det s then some (s.launchClock g + lat) else none

/-- Has the due clock, if there is one, been reached? -/
def State.duePassed (s : State) (g : Gang) (due : Option Nat) : Bool :=
  match due with
  | none => true
  | some d => d ≤ s.launchClock g

/-! ## Groups of a gang -/

/-- Groups that still hold a live slice. -/
def Gang.liveGroups (g : Gang) : List Group := g.groups.filter (fun r => r.slices &&& g.live != 0)

/-- Replace the groups that hold any slice of a set by others. -/
def Gang.replaceGroups (g : Gang) (old : Slices) (new : List Group) : Gang :=
  { g with groups := g.groups.filter (fun r => r.slices &&& old == 0) ++ new }

/-- A group that stands ready at a clause header. -/
def Group.at (slices : Slices) (pc : W64) : Group :=
  { slices := slices, pc := pc, status := .ready, run := none, mid := none, skips := [], allot := none, pend := 0
    waits := [], readyAt := none, keepOn := none, nextClock := 0, refetch := none, refused := [] }

/-- Is a group held, asleep, parked or at rest, so that it goes on by itself only after something else? -/
def GStatus.rests : GStatus → Bool
  | .ready | .running | .waitAts => false
  | _ => true

/-- Is a group in trap hold: a handler runs, the group holds none of its slices, and it has finished the clause it ran (R197);
a parked group is not (R198). -/
def Gang.trapHeld (g : Gang) (r : Group) : Bool :=
  match g.trap with
  | some t => r.slices &&& t.slices == 0 && r.status != .parked && (r.run.isNone || r.status.rests)
  | none => false

def Gang.inHandler (g : Gang) (r : Group) : Bool :=
  match g.trap with
  | some t => r.slices &&& t.slices != 0
  | none => false

/-- The groups whose tests R48 to R50 make now: while a handler runs, its own alone (R197). -/
def Gang.testGroups (g : Gang) : List Group :=
  if g.trap.isSome then g.liveGroups.filter g.inHandler else g.liveGroups

/-- `%pendmask` of a group that has nothing parked: in a handler, the lanes pending at entry (R206, R207). -/
def Gang.restPend (g : Gang) (r : Group) : Lanes :=
  match g.trap with
  | some t => if r.slices &&& t.slices != 0 then t.pend0 &&& lanesOf r.slices else 0
  | none => 0

/-- Union of the skip records of merged groups. -/
def mergeSkips (a b : List (Nat × Lanes × Bool)) : List (Nat × Lanes × Bool) := a ++ b

/-- Merge of groups into one: the union of their slices, at the place of the first (R48, R50). -/
def mergeTwo (a b : Group) : Group :=
  { a with
    slices := a.slices ||| b.slices
    pend := a.pend ||| b.pend
    skips := mergeSkips a.skips b.skips
    readyAt := none
    keepOn := none
    nextClock := max a.nextClock b.nextClock
    run := match a.run, b.run with
      | some u, some v => some { u with skips := mergeSkips u.skips v.skips }
      | some u, none => some u
      | none, r => r }

def mergeGroups (l : List Group) : Option Group :=
  match l with
  | [] => none
  | r :: rs => some (rs.foldl mergeTwo r)

/-! ## The end of a clause -/

/-- A pending allotment takes effect (R204). -/
def Gang.takePending (g : Gang) (a : Option (Nat × Nat)) : Gang :=
  match a with
  | some n => g.setAllot n.1 n.2
  | none => g

/-- A group gives up its clause before the clause has finished issuing: its flags settle (R13). -/
def Gang.dropClause (g : Gang) (r' : Group) : Gang := (g.setGroup { r' with run := none }).settleFlags

/-- A group leaves its clause: a pending `vralloc` takes effect, its flags settle (R13, R204). -/
def Gang.leaveClause (g : Gang) (r : Group) (r' : Group) : Gang :=
  (g.takePending (r.run.bind (fun (u : Run) => u.allot))).dropClause r'

/-- The clause that follows: the branch taken, else the word after the last (R114). -/
def Run.after (u : Run) : W64 := u.next.getD (u.hdr + BitVec.ofNat 64 (8 * (u.words.length + 1)))

/-- The address at which a group stands: its next word, or its header. -/
def Group.at? (r : Group) : W64 :=
  match r.run with
  | some u => u.hdr + BitVec.ofNat 64 (8 * (u.idx + 1))
  | none => r.pc

/-- The next word that a group would start to issue; a word that is issuing, or a `waitcnt` that holds, has started (R313). -/
def Group.nextWord (r : Group) (issuing : Bool) : W64 :=
  match r.run with
  | some u =>
    let k := u.idx + (if issuing || u.holding then 1 else 0)
    if k < u.words.length then u.hdr + BitVec.ofNat 64 (8 * (k + 1)) else u.after
  | none => r.pc

/-- The halt word of a guest: the next word of its lowest group (R296, R313); `issuing` is a slice of the group whose word is
issuing now. -/
def Gang.haltWord (g : Gang) (issuing : Option Nat) : W64 :=
  match g.liveGroups with
  | r :: rs =>
    let low := rs.foldl (fun (b : Group) q => if lowSlice q.slices < lowSlice b.slices then q else b) r
    low.nextWord (issuing.any (fun k => low.slices.getLsbD k))
  | [] => 0

/-- The group stands at its next clause; a sleep taken in the last word goes on there (R122, R183). -/
def Gang.endClause (g : Gang) (r : Group) (u : Run) : Gang :=
  g.leaveClause r
    { r with
      pc := u.after
      status := match r.status with
        | .running => .ready
        | .sleepYield n => if g.count .req ≤ n then .ready else .sleepYield n
        | x => x
      mid := none
      skips := []
      allot := none
      readyAt := if u.header.yield || r.status != .running then none else r.readyAt
      keepOn := if u.header.yield || r.status != .running || r.readyAt.isNone then none else u.port }

/-- The word has executed: the next word of the clause, or the end of the clause. A group that fell asleep gives up its
port. -/
def Gang.advance (g : Gang) (r : Group) (u : Run) : Gang :=
  let u := { u with idx := u.idx + 1, collected := false, replaying := false, replay := none, unmatched := false, holding := false }
  let r := { r with pend := g.restPend r, waits := [], refused := [] }
  if u.words.length ≤ u.idx then g.endClause r u
  else g.setGroup { r with run := some { u with port := if r.status == .running then u.port else none } }

/-- The group of the current word goes on. -/
def State.advance (s : State) (uid slice : Nat) : State :=
  s.updGang uid (fun g => match g.group? slice with
    | some r => match r.run with
      | some u => g.advance r u
      | none => g
    | none => g)

/-! ## Faults -/

/-- A fault of one group: its code, `%tval`, the resumption address, the word's index in its clause, the header of the
clause that holds the resumption address, and that clause's predication and pending allotment (R197, R204). -/
structure Raise where
  (code : Code)
  (tval tret : W64)
  (word : Nat)
  (mid : Option W64)
  (skips : List (Nat × Lanes × Bool))
  (allot : Option (Nat × Nat))
deriving DecidableEq, Repr, Inhabited

/-- Grids launched from a grid, at any depth, itself included (R202). -/
def State.descendants (s : State) (grid : Nat) : List Nat :=
  (List.range 10).foldl (fun (acc : List Nat) _ =>
    acc ++ (s.grids.filter (fun x => !acc.contains x.uid && (match x.parent with
      | some b => match s.block? b with
        | some blk => acc.contains blk.grid
        | none => false
      | none => false))).map (fun x => x.uid)) [grid]

/-- R202: the grid and those launched from it halt at their next clause boundaries; their ungranted galley contents are
discarded; the latest record is kept until the completion writes it (R270). -/
def State.abortGrid (s : State) (grid : Nat) (fr : Option FaultRec) : State :=
  let l := s.descendants grid
  let dead (b : Nat) : Bool := match s.block? b with
    | some blk => l.contains blk.grid
    | none => false
  { s with
    grids := s.grids.map (fun x =>
      if l.contains x.uid then
        { x with aborted := true, stopped := true, fault := if x.uid == grid && fr.isSome then fr else x.fault }
      else x)
    gangs := s.gangs.map (fun g =>
      if dead g.block then { g with galley := Galley.empty, dlist := [] } else g)
    blocks := s.blocks.map (fun b => if l.contains b.grid then { b with galley := Galley.empty } else b)
    clusters := s.clusters.map (fun c => if l.contains c.grid then { c with galley := Galley.empty } else c) }

/-- The kernel domain of a PASID, while it is unlocked (R303). -/
def State.kernelDomain (s : State) (pasid : Nat) : Option DbgDomain :=
  s.dbgDomains.find? (fun d => !d.firmware && !d.closing && d.pasid == pasid)

/-- The revoked domain of a PASID whose sink is still to be closed (R306). -/
def State.closingDomain (s : State) (pasid : Nat) : Option DbgDomain :=
  s.dbgDomains.find? (fun d => !d.firmware && d.closing && d.pasid == pasid)

/-- Has the PASID's domain a sink that takes records? -/
def State.hasSink (s : State) (pasid : Nat) : Bool := s.dbgDomains.any (fun d => !d.firmware && d.pasid == pasid)

/-- The records that the 2 MiB trace buffer holds. -/
def traceRoom : Nat := 65536

/-- The trace buffer; records behind it wait for room in their order, and their guest is stalled (R298). -/
def Proof.buffer (p : Proof) : List TraceRec := p.trace.take traceRoom

/-- Has the trace buffer of a proof core no room for n records more? -/
def State.traceShort (s : State) (core n : Nat) : Bool := ((s.proof? core).map (fun p => decide (traceRoom < p.trace.length + n))).getD false

/-- A trace record of a proof core, appended where its domain has a sink (R298). -/
def State.addTrace (s : State) (core : Nat) (t : TraceRec) : State :=
  if !s.hasSink t.dom then s else s.updProof core (fun p => { p with trace := p.trace ++ [t] })

/-- Is trace on for a guest slot (R298, R309)? -/
def State.tracing (s : State) (core gslot : Nat) : Bool :=
  ((s.proof? core).map (fun p => p.traced.getLsbD gslot)).getD false

/-- Must a guest that is to be pulled to a slot, to return or to retire wait until the buffer has room for the record of that (R298)? -/
def State.slotWaits (s : State) (core gslot : Nat) : Bool := s.tracing core gslot && s.traceShort core 1

def State.recordWaits (s : State) (g : Gang) : Bool :=
  match g.place with
  | .guest core gslot _ => s.slotWaits core gslot
  | _ => false

/-- A record of a guest for which trace is on: 1 EVENT, 2 PULL, 3 RETURN, 5 RETIRED (R298). -/
def State.guestRecord (s : State) (g : Gang) (kind event : Nat) (pc : W64) : State :=
  match g.place with
  | .guest core gslot _ =>
    if !s.tracing core gslot then s
    else s.addTrace core
      { dom := g.pasid s, pc := pc
        clock := BitVec.ofNat 64 (if g.det s then s.launchClock g else s.clockOf core), lanes := 0, val := 0
        block := BitVec.ofNat 32 (((s.block? g.block).map (fun b => b.blockid)).getD 0)
        gang := BitVec.ofNat 8 g.gangid, kind := BitVec.ofNat 8 kind
        info := BitVec.ofNat 8 (gslot * 64 + event) }
  | _ => s

/-- The handling of a debug event ends: the handler gang is one group of all its slices again, asleep (R296). -/
def State.endHandling (s : State) (core uid : Nat) : State :=
  let s := s.updGang uid (fun g =>
    { g with
      em := g.present
      reconv := g.reconv.map (fun _ => [])
      groups := [{ Group.at (lowSlices g.nslices) 0 with status := .idle }] })
  let s := s.updGang uid Gang.settleFlags
  s.updProof core (fun p => { p with current := none })

/-- A fault of the debug handler ends its handling and is written to the trace (R296). -/
def State.handlerFault (s : State) (core uid : Nat) (f : Raise) : State :=
  let dom := ((s.gang? uid).map (fun g => g.pasid s)).getD 0
  let gslot := (((s.proof? core).bind (fun p => p.current)).map (fun e => e.gslot)).getD 0
  let s := s.endHandling core uid
  s.addTrace core { dom := dom, pc := f.tret, clock := BitVec.ofNat 64 (s.clockOf core), lanes := 0, val := 0, block := 0, gang := 0
                    kind := 6, info := BitVec.ofNat 8 (gslot * 64) }

/-- A value that the spec leaves open. -/
def State.freeWord (s : State) (k : Nat) : W64 := BitVec.ofNat 64 (Config.freeNat s.now (2 ^ 24 + k))

/-- The items of an event that the rules give for other kinds only are open: the unit but for PC and WATCH, the address and the
value but for WATCH, and whatever names a guest for HOST (R308, R313). -/
def State.openItems (s : State) (e : DbgEvent) : DbgEvent :=
  let e := if e.kind = 1 || e.kind = 2 then e else { e with unit := (s.freeWord (64 + 8 * e.gang)).toNat % 16 }
  let e := if e.kind = 2 then e else { e with addr := s.freeWord (65 + 8 * e.gang), val := (s.freeWord (66 + 8 * e.gang)).extractLsb' 0 32 }
  if e.kind = 5 then { e with gslot := (s.freeWord (67 + 8 * e.gang)).toNat % 4, pc := s.freeWord (68 + 8 * e.gang), halt := s.freeWord (69 + 8 * e.gang) } else e

/-- A debug event put among the waiting ones: in order of occurrence, those of one clock in ascending guest slot, then ascending kind
(R296). -/
def putEvent (e : DbgEvent) : List DbgEvent → List DbgEvent
  | [] => [e]
  | x :: l =>
    if x.clock == e.clock && (e.gslot < x.gslot || (e.gslot == x.gslot && e.kind < x.kind)) then e :: x :: l
    else x :: putEvent e l

/-- The clock in which something befalls a gang: the launch clock of a deterministic launch, else the step. -/
def State.clockMark (s : State) (g : Gang) : Nat := if g.det s then s.launchClock g else s.now

/-- A debug event joins the waiting ones (R296), and is recorded (R298). -/
def State.addEvent (s : State) (core : Nat) (e : DbgEvent) : State :=
  let e := s.openItems e
  let g? := if e.kind = 5 then none else s.gang? e.gang
  let e := { e with clock := (g?.map s.clockMark).getD s.now }
  let s := match g? with
    | some g => s.guestRecord g 1 e.kind e.halt
    | none => s
  s.updProof core (fun p => { p with events := putEvent e p.events })

/-- The entry of a vector in the MSI-X table, and whether it is masked (R315; log 61). -/
def HostLink.msixEntry (h : HostLink) (v : Nat) : BitVec 128 := Store.getD h.msixTable v msixReset
def HostLink.masked (h : HostLink) (v : Nat) : Bool := (h.msixEntry v).getLsbD 96

/-- Raise an MSI-X vector (R317): a masked one stands in the pending-bit array (R315; log 61). -/
def HostLink.raise (h : HostLink) (v : Nat) : HostLink :=
  if h.masked v then { h with msixPending := h.msixPending ||| (1 : BitVec 2048) <<< v } else { h with msix := h.msix ++ [v] }

def State.raiseMsi (s : State) (v : Nat) : State := { s with host := s.host.raise v }

/-- A compositor core stops at an unhandled fault of its gang, and the driver is told by vector 5 (R281, R317). -/
def State.stopCompositor (s : State) (core : Nat) : State :=
  let s := s.raiseMsi 5
  if core == 256 then { s with bank0 := { s.bank0 with stopped := true } }
  else { s with bank1 := { s.bank1 with stopped := true } }

/-- An unhandled fault (R202): a compositor gang stops its core (R281); a guest raises a FAULT event and halts at the faulting
word (R295); otherwise the grid ends. -/
def State.unhandled (s : State) (uid : Nat) (f : Raise) (first : Option Code) : State :=
  match s.gang? uid with
  | none => s
  | some g =>
    let code := if first.isSome then .doubleFault else f.code
    match g.place, s.block? g.block with
    | .compositor core, _ => s.stopCompositor core
    | _, none => s
    | place, some blk =>
      let fr : FaultRec :=
        { code := code, first := first, tval := f.tval, tret := f.tret, block := blk.blockid, gang := g.gangid }
      match place, g.guest with
      | .guest core gslot _, some q =>
        let s := s.updGang uid (fun g => { g with guest := some { q with halted := true, haltPc := 1, held := some fr } })
        s.addEvent core { kind := 4, unit := 0, gslot := gslot, gang := uid, pc := f.tret, addr := 0, halt := f.tret
                          val := 0, clock := 0 }
      | _, _ => s.abortGrid blk.grid (some fr)

/-- Entry to the gang's handler, one transition (R197). -/
def Gang.enterTrap (g : Gang) (r : Group) (f : Raise) : Gang :=
  let t : Trap :=
    { slices := r.slices, em0 := g.em &&& lanesOf r.slices, depth0 := g.reconv.map (fun st => st.length), image0 := g.image
      mid0 := f.mid, skips0 := f.skips, allot0 := f.allot, pend0 := r.pend, refetch0 := r.refetch, entry0 := g.entry
      tret0 := f.tret, code0 := f.code }
  Gang.setGroup
    { g with
      trap := some t
      tcause := BitVec.ofNat 32 (f.word * 256 + f.code.num)
      tval := f.tval
      tret := f.tret
      image := g.tvec
      entry := g.tvec + 64 }
    { r with pc := g.tvec + 64, status := .ready, run := none, mid := none, skips := [], allot := none, readyAt := none
             keepOn := none, refetch := none, refused := [] }

/-- The group stands at the resumption address of its fault. -/
def Group.standsAt (r : Group) (f : Raise) : Group :=
  { r with pc := f.tret, status := .ready, run := none, mid := f.mid, skips := f.skips, allot := f.allot, readyAt := none
           keepOn := none, refused := [] }

/-- A group stands in trap hold at its faulting word until the fault it has latched enters the handler (R198). -/
def Gang.latch (g : Gang) (r : Group) (f : Raise) : Gang :=
  Gang.setGroup
    { g with latched := g.latched ++
      [{ slices := r.slices, code := f.code, tval := f.tval, tret := f.tret, word := f.word, mid := f.mid
         skips := f.skips, allot := f.allot }] }
    (r.standsAt f)

/-- Is the gang's block being pre-empted (R210, R214)? -/
def State.preempting (s : State) (g : Gang) : Bool :=
  match s.block? g.block with
  | some b => b.preempt
  | none => false

/-- A fault is taken (R196 to R202): by the debug handler's end, as a double fault, latched, unhandled, or by entry to the
gang's handler. -/
def State.takeFault (s : State) (uid slice : Nat) (f : Raise) : State :=
  match s.gang? uid with
  | none => s
  | some g =>
    match g.group? slice with
    | none => s
    | some r =>
      let g := g.dropClause { r with status := .ready }
      let s := s.setGang g
      match g.group? slice with
      | none => s
      | some r =>
        match g.place with
        | .handler core => s.handlerFault core uid f
        | _ =>
          match g.trap with
          | some t =>
            if r.slices &&& t.slices != 0 then
              (s.setGang (g.setGroup (r.standsAt f))).unhandled uid f (some t.code0)
            else s.setGang (g.latch r f)
          | none =>
            if !g.latched.isEmpty || s.preempting g then s.setGang (g.latch r f)
            else if g.tvec.toNat / 256 = 0 then
              (s.setGang (g.setGroup (r.standsAt f))).unhandled uid f none
            else s.setGang (g.enterTrap r f)

/-- A stepped guest whose clause has ended halts with a STEP event, also where its group has left or a watchpoint has halted it
already; a fault held back by its own event ends the step without one (R295, R309). -/
def State.endStep (s : State) (uid slice : Nat) : State :=
  match s.gang? uid with
  | none => s
  | some g => match g.place, g.guest with
    | .guest core gslot _, some q =>
      let ended := match g.group? slice with
        | some r => r.run.isNone
        | none => true
      let pc := match g.group? slice with
        | some r => r.pc
        | none => g.haltWord none
      if q.stepping && ended then
        let s := s.setGang { g with guest := some { q with halted := true, stepping := false, haltPc := if q.halted then q.haltPc else pc } }
        if q.held.isSome then s
        else s.addEvent core { kind := 3, unit := 0, gslot := gslot, gang := g.uid, pc := pc, addr := 0, halt := pc, val := 0, clock := 0 }
      else s
    | _, _ => s

/-- A fault that a transition other than an issue brings about: it ends the clause, and with it a single step. -/
def State.faultOut (s : State) (uid slice : Nat) (f : Raise) : State := (s.takeFault uid slice f).endStep uid slice

/-! ## Return from a handler -/

/-- The trap ends: the image held before, and no trap hold (R200). -/
def Gang.endTrap (g : Gang) (t : Trap) : Gang :=
  { g with
    trap := none
    image := t.image0
    entry := t.entry0
    groups := g.groups.map (fun r => { r with readyAt := none, keepOn := none }) }

/-- The last arrival at an `rte` (R200): merge, `em` ANDed with its value at entry, resumption at `%tret`. -/
def Gang.finishRte (g : Gang) (t : Trap) : Gang :=
  let hs := g.liveGroups.filter (fun r => r.slices &&& t.slices != 0)
  match mergeGroups hs with
  | none => g
  | some m =>
    let same := g.tret == t.tret0
    let g := { g with em := g.em &&& (t.em0 ||| ~~~ (lanesOf t.slices)) }
    let r := Group.at m.slices g.tret
    if same then
      (g.replaceGroups m.slices
        [{ r with mid := t.mid0, skips := t.skips0, allot := t.allot0, pend := t.pend0, refetch := t.refetch0 }]).endTrap t
    else ((g.takePending t.allot0).replaceGroups m.slices [r]).endTrap t

/-- Have all live slices of the handler arrived at an `rte`? -/
def Gang.rteComplete (g : Gang) (t : Trap) : Bool :=
  (g.liveGroups.filter (fun r => r.slices &&& t.slices != 0)).all (fun r => r.status == .heldRte)

/-- A live slice's stack depth differs from its depth at entry (R200). -/
def Gang.rteUneven (g : Gang) (t : Trap) : Bool :=
  (sliceList (g.live &&& t.slices)).any (fun k =>
    ((g.reconv[k]?).map (fun st => st.length)) != t.depth0[k]?)

/-! ## The issuing word -/

/-- The word that issues: its gang, group and clause, its address, the lanes of its group that are in `em`, the lanes that
skip it, and whether that is decided for every lane, but for a scalar that reads zero (R79, R120). -/
structure Ctx where
  (gang : Gang)
  (grp : Group)
  (run : Run)
  (uid slice : Nat)
  (pc : W64)
  (lanes base skip : Lanes)
  (vec : Bool)
deriving DecidableEq, Repr, Inhabited

/-- The lanes that skip the word at an index. -/
def Run.skipOf (u : Run) (k : Nat) : Lanes × Bool :=
  u.skips.foldl (fun a e => if e.1 == k then (a.1 ||| e.2.1, a.2 || e.2.2) else a) ((0 : Lanes), false)

/-- The context of the current word: a group that is running a clause with a word left. -/
def State.ctx? (s : State) : Option Ctx :=
  match s.cur with
  | none => none
  | some (uid, slice) =>
    match s.gang? uid with
    | none => none
    | some g =>
      match g.group? slice with
      | none => none
      | some r =>
        match r.run with
        | none => none
        | some u =>
          if r.status == .running && u.idx < u.words.length then
            let lanes := g.gangMask r.slices
            let sk := u.skipOf u.idx
            some { gang := g, grp := r, run := u, uid := uid, slice := slice
                   pc := u.hdr + BitVec.ofNat 64 (8 * (u.idx + 1)), lanes := lanes, base := lanes &&& g.em, skip := sk.1
                   vec := sk.2 }
          else none

/-- Is the word skipped everywhere: in every active lane, or for a mask instruction in every lane of the group (R120)? A
skip by a zero scalar leaves it to execute. -/
def Ctx.skipped (c : Ctx) (mask : Bool) : Bool :=
  (c.vec || c.skip != 0) && ((if mask then c.lanes else c.base) &&& ~~~ c.skip) == 0

/-- Active lanes under MASK (R128); on a replay the pending lanes only (R206). -/
def Ctx.active (c : Ctx) (now : Nat) (m : MaskSel) : Lanes :=
  if c.run.replaying then c.base &&& c.grp.pend
  else
    c.base &&& ~~~ c.skip &&& (match m with
      | .em => BitVec.allOnes 128
      | .m n => c.gang.rdM now n.toNat)

/-- Active lanes of a word without a MASK field. -/
def Ctx.activeAll (c : Ctx) : Lanes :=
  if c.run.replaying then c.base &&& c.grp.pend else c.base &&& ~~~ c.skip

/-- What issuing a word comes to. -/
inductive Res
  /-- executed; the group goes on to the next word -/
  | ok (s : State)
  /-- executed; the group has left the clause, or holds at the word -/
  | left (s : State)
  /-- faults with this code and `%tval` -/
  | trap (s : State) (code : Code) (tval : W64)
  /-- not enabled now (R19): nothing happens -/
  | stay
deriving DecidableEq, Repr, Inhabited

/-- The fault of the issuing word. -/
def Ctx.raise (c : Ctx) (code : Code) (tval : W64) : Raise :=
  { code := code, tval := tval, tret := c.pc, word := c.run.idx + 1, mid := some c.run.hdr, skips := c.run.skips
    allot := c.run.allot }

/-- The group of the word changes its status and gives up its port. -/
def State.holdAs (s : State) (c : Ctx) (st : GStatus) : State :=
  s.updGang c.uid (fun g => match g.group? c.slice with
    | some r => g.setGroup { r with status := st, run := r.run.map (fun u => { u with port := none }) }
    | none => g)

/-- A result of the current word is put into effect. -/
def Res.finish (c : Ctx) (s0 : State) : Res → State
  | .ok s => s.advance c.uid c.slice
  | .left s => s
  | .trap s code tval => s.takeFault c.uid c.slice (c.raise code tval)
  | .stay => s0

/-- The first latched error that names any of a set of flags or a counter; with neither, the first of all (R209). -/
def Gang.latchedErr (g : Gang) (wait : BitVec 12) (ctr : Option Ctr) (all : Bool) : Option Err :=
  g.errs.find? (fun e => all || (e.ctr.isSome && e.ctr == ctr) || (match e.flag with
    | some k => wait.getLsbD k
    | none => false))

def Gang.dropErr (g : Gang) (e : Err) : Gang := { g with errs := g.errs.erase e }

/-- The word takes its latched error as a fault before it issues (R209). -/
def State.raiseErr (s : State) (c : Ctx) (e : Err) : State :=
  (s.updGang c.uid (fun g => g.dropErr e)).takeFault c.uid c.slice (c.raise e.code e.tval)

/-- Every instruction issues here: a word skipped everywhere is passed; a collective one first takes the gang-collective
wait (R50), where a latched error is raised (R209); then its own effect. An `.all` form that every active lane skips is passed without
that wait: R120 passes the word, where R128's text has the wait before the lanes (log 53). -/
def issueWord (coll mask : Bool) (body : Ctx → State → Res) (s : State) : State :=
  match s.ctx? with
  | none => s
  | some c =>
    if c.skipped mask then s.advance c.uid c.slice
    else if coll && !c.run.collected then
      match c.gang.latchedErr 0 none true with
      | some e => s.raiseErr c e
      | none => s.holdAs c .heldColl
    else (body c s).finish c s

/-- An instruction that waits for nothing and is no mask instruction. -/
abbrev issue (body : Ctx → State → Res) (s : State) : State := issueWord false false body s

/-! ## Splits -/

/-- Push a PENDING entry for each mixed slice: its taken lanes leave `em` (R45, R116). -/
def Gang.pushPending (g : Gang) (mixed : List Nat) (take : Lanes) (target : W64) : Gang :=
  { g with
    em := g.em &&& ~~~ (mixed.foldl (fun a k => a ||| (take &&& lanesOfSlice k)) (0 : Lanes))
    reconv := g.reconv.mapIdx (fun k st =>
      if mixed.contains k then { merge := false, lanes := take &&& lanesOfSlice k, addr := target } :: st else st) }

/-- Slices of a group whose active lanes all take the branch, and those with some that do and some that do not (R45). -/
def takenSlices (x : Slices) (act take : Lanes) : Slices :=
  (sliceList x).foldl (fun (a : Slices) k =>
    if act &&& lanesOfSlice k != 0 && (act &&& lanesOfSlice k &&& ~~~ take) == 0 then a ||| (1 : Slices) <<< k else a) 0

def mixedSlices (x : Slices) (act take : Lanes) : List Nat :=
  (sliceList x).filter (fun k => (take &&& lanesOfSlice k) != 0 && (act &&& lanesOfSlice k &&& ~~~ take) != 0)

/-- Depth limit of a reconvergence stack (R118). -/
def stackLimit : Nat := 64

/-- The branch of the current group to a target by the lanes that take it (R45, R115, R118): `none` where a push would exceed
the stack; else the gang, and a slice of the group that goes on as the issuing one. Where every active lane takes it the whole
group branches; where no slice takes it wholly the whole group falls through; else the taken group is made beside it. -/
def Gang.branch (g : Gang) (r : Group) (u : Run) (act take : Lanes) (target : W64) : Option (Gang × Nat) :=
  let x := r.slices &&& g.live
  let taken := takenSlices x act take
  let mixed := mixedSlices x act take
  if take != 0 && (act &&& ~~~ take) == 0 then
    some (g.setGroup { r with run := some { u with next := some target } }, lowSlice r.slices)
  else if mixed.any (fun k => match g.reconv[k]? with
      | some st => stackLimit ≤ st.length
      | none => false) then none
  else
    let g := g.pushPending mixed take target
    if taken == 0 then some (g.setGroup r, lowSlice r.slices)
    else
      let fall := { r with slices := r.slices &&& ~~~ taken, readyAt := none, keepOn := none }
      some (g.replaceGroups r.slices [fall, Group.at taken target], lowSlice fall.slices)

end Sys2Proof.Machine
end

