-- ==== Sys2Proof/Machine/Operands.lean ====
section
/-!
DEFINITION. Operand forms: typed and fixed 32-bit sources of scalar and vector instructions, per-lane conditions, and the
writing of results with the extension of R84 (R66 to R70, R83, R84, R104, R106, R111, R128, R129).
-/
namespace Sys2Proof.Machine

/-- The number a w-bit pattern of a type stands for: signed for `i`, unsigned for `n` and `b` (R83). -/
def numOf (t : Ty) (x : Nat) : Int := if t.isI then sintOf t.width x else ((x % 2 ^ t.width : Nat) : Int)

/-- A small immediate at a type's width: sign-extended for an integer type, the same integer converted exactly for a float
type (R67). -/
def immOf (t : Ty) (i : BitVec 7) : Nat := if t.isFl then immFloat t (immInt i) else wrapI t.width (immInt i)

/-! ## Scalar operands -/

/-- The low w bits of a scalar or immediate source. -/
def Gang.scalarVal (g : Gang) (now : Nat) (t : Ty) (o : Opd) : Nat :=
  match o with
  | .s n => if t.is64 then (g.rdS64 now n.toNat).toNat else (g.rdS now n.toNat).toNat % 2 ^ t.width
  | .imm i => immOf t i
  | _ => 0

/-- A fixed 32-bit operand, read unsigned; an immediate is sign-extended to 32 bits (R106). -/
def Gang.scalar32 (g : Gang) (now : Nat) (o : Opd) : Nat :=
  match o with
  | .s n => (g.rdS now n.toNat).toNat
  | .imm i => wrapI 32 (immInt i)
  | _ => 0

/-- A 64-bit scalar pair or an immediate sign-extended to 64 bits. -/
def Gang.scalar64 (g : Gang) (now : Nat) (o : Opd) : W64 :=
  match o with
  | .s n => g.rdS64 now n.toNat
  | .imm i => BitVec.ofInt 64 (immInt i)
  | _ => 0

/-- Write a w-bit result to a scalar, or a pair for the 64-bit types (R84, R69). -/
def Gang.wrScalar (g : Gang) (t : Ty) (dst : Opd) (x : Nat) : Gang :=
  match dst with
  | .s n => if t.is64 then g.wrS64 n.toNat (BitVec.ofNat 64 x) else g.wrS n.toNat (BitVec.ofNat 32 (extendTy t x))
  | _ => g

/-- Write one 32-bit scalar. -/
def Gang.wrScalar32 (g : Gang) (dst : Opd) (x : Nat) : Gang :=
  match dst with
  | .s n => g.wrS n.toNat (BitVec.ofNat 32 x)
  | _ => g

def Gang.wrScalar64 (g : Gang) (dst : Opd) (x : W64) : Gang :=
  match dst with
  | .s n => g.wrS64 n.toNat x
  | _ => g

/-! ## Lane operands -/

/-- The low w bits of a source in one lane; a scalar or an immediate is the same in every lane (R69, R129). -/
def Gang.laneVal (g : Gang) (now : Nat) (t : Ty) (o : Opd) (lane : Nat) : Nat :=
  match o with
  | .v n => if t.is64 then (g.rdV64 now n.toNat lane).toNat else (g.rdV now n.toNat lane).toNat % 2 ^ t.width
  | _ => g.scalarVal now t o

/-- The low w bits of a source whose TYPE only sets the width: the forms that move bits, and a store's DATA; an immediate is
sign-extended to the width for a float TYPE too (R133, R164; log 48). -/
def Gang.dataVal (g : Gang) (now : Nat) (t : Ty) (o : Opd) (lane : Nat) : Nat :=
  match o with
  | .imm i => wrapI t.width (immInt i)
  | _ => g.laneVal now t o lane

/-- A fixed 32-bit source in one lane. -/
def Gang.lane32 (g : Gang) (now : Nat) (o : Opd) (lane : Nat) : Nat :=
  match o with
  | .v n => (g.rdV now n.toNat lane).toNat
  | _ => g.scalar32 now o

/-- A 64-bit source in one lane. -/
def Gang.lane64 (g : Gang) (now : Nat) (o : Opd) (lane : Nat) : W64 :=
  match o with
  | .v n => g.rdV64 now n.toNat lane
  | _ => g.scalar64 now o

/-- Write a w-bit result in one lane (R84). -/
def Gang.wrLane (g : Gang) (t : Ty) (dst : Opd) (lane : Nat) (x : Nat) : Gang :=
  match dst with
  | .v n => if t.is64 then g.wrV64 n.toNat lane (BitVec.ofNat 64 x) else g.wrV n.toNat lane (BitVec.ofNat 32 (extendTy t x))
  | _ => g

def Gang.wrLane32 (g : Gang) (dst : Opd) (lane : Nat) (x : Nat) : Gang :=
  match dst with
  | .v n => g.wrV n.toNat lane (BitVec.ofNat 32 x)
  | _ => g

/-- The register writes of a w-bit result in one lane, for a result that lands later. -/
def laneWrites (t : Ty) (dst : Opd) (lane : Nat) (x : Nat) : List RegWrite :=
  match dst with
  | .v n =>
    if t.is64 then
      [.v n.toNat lane (BitVec.ofNat 32 x), .v (n.toNat + 1) lane (BitVec.ofNat 32 (x / 2 ^ 32))]
    else [.v n.toNat lane (BitVec.ofNat 32 (extendTy t x))]
  | _ => []

/-- The register writes of a w-bit scalar result. -/
def scalarWrites (t : Ty) (dst : Opd) (x : Nat) : List RegWrite :=
  match dst with
  | .s n =>
    if t.is64 then [.s n.toNat (BitVec.ofNat 32 x), .s (n.toNat + 1) (BitVec.ofNat 32 (x / 2 ^ 32))]
    else [.s n.toNat (BitVec.ofNat 32 (extendTy t x))]
  | _ => []

/-! ## Masks and conditions -/

/-- A mask operand: `em` or `m0` to `m15`. -/
def Gang.maskVal (g : Gang) (now : Nat) (o : Opd) : Lanes :=
  match o with
  | .em => g.em
  | .m n => g.rdM now n.toNat
  | _ => 0

/-- Write the bits of some lanes of a mask operand (R111). -/
def Gang.wrMask (g : Gang) (o : Opd) (lanes x : Lanes) : Gang :=
  match o with
  | .em => g.wrEm lanes x
  | .m n => g.wrM n.toNat lanes x
  | _ => g

/-- The lanes among a set whose condition holds: a mask's bit, a vector's nonzero element, a scalar's nonzero value for
every lane (R115, R120, R133). -/
def Gang.condLanes (g : Gang) (now : Nat) (o : Opd) (lanes : Lanes) : Lanes :=
  match o with
  | .em | .m _ => g.maskVal now o &&& lanes
  | .v n => lanesOfList ((laneList lanes).filter (fun k => g.rdV now n.toNat k != 0))
  | _ => if g.scalar32 now o != 0 then lanes else 0

/-! ## Forms that write per lane at issue -/

/-- One lane's result: the w-bit pattern and its sticky bits. -/
abbrev LaneFn := Gang → Nat → Nat × W32

/-- Every source of every lane is read before any lane is written (R128); then the results and sticky bits. -/
def Gang.eachLane (g : Gang) (lanes : Lanes) (f : LaneFn) (wr : Gang → Nat → Nat → Gang) : Gang :=
  let rs := (laneList lanes).map (fun k => (k, f g k))
  (rs.foldl (fun h r => wr h r.1 r.2.1) g).setSticky (rs.foldl (fun a r => a ||| r.2.2) 0)

/-- A vector form of a TYPE that writes DST in each active lane at issue (R128, R133). -/
def vecForm (mask : MaskSel) (gang : Bool) (t : Ty) (dst : Opd) (f : Nat → LaneFn) (s : State) : State :=
  issueWord gang false (fun c s =>
    .ok (s.setGang (c.gang.eachLane (c.active s.now mask) (f s.now) (fun h k x => h.wrLane t dst k x)))) s

/-- A vector form whose result is one 32-bit register whatever TYPE is. -/
def vecForm32 (mask : MaskSel) (gang : Bool) (dst : Opd) (f : Nat → LaneFn) (s : State) : State :=
  issueWord gang false (fun c s =>
    .ok (s.setGang (c.gang.eachLane (c.active s.now mask) (f s.now) (fun h k x => h.wrLane32 dst k x)))) s

/-- A compare: 1 or 0 in a vector register, or the lanes' bits of a mask or `em` (R134). -/
def vecCompare (mask : MaskSel) (gang : Bool) (dst : Opd) (f : Nat → LaneFn) (s : State) : State :=
  issueWord gang false (fun c s =>
    let act := c.active s.now mask
    let rs : List (Nat × Nat × W32) := (laneList act).map (fun k => (k, f s.now c.gang k))
    let g := match dst with
      | .v _ => rs.foldl (fun (h : Gang) (r : Nat × Nat × W32) => h.wrLane32 dst r.1 r.2.1) c.gang
      | _ => c.gang.wrMask dst act
          (lanesOfList ((rs.filter (fun (r : Nat × Nat × W32) => r.2.1 != 0)).map (fun (r : Nat × Nat × W32) => r.1)))
    .ok (s.setGang (g.setSticky (rs.foldl (fun (a : W32) (r : Nat × Nat × W32) => a ||| r.2.2) 0)))) s

/-- A scalar form: executes once for the group (R104). -/
def scalarForm (f : Nat → Gang → Gang) (s : State) : State :=
  issue (fun c s => .ok (s.setGang (f s.now c.gang))) s

/-! ## Results that land later (R130) -/

/-- A computed result that lands under flag B, with the fixed latency of its kind in a deterministic launch (R60, R130). -/
def State.addResult (s : State) (c : Ctx) (writes : List RegWrite) (sticky : W32) : State :=
  s.addOp c.uid (fun id =>
    { Op.make id .result none c.run.header.fb c.pc with
      done := true, due := s.dueAt c.gang s.flash.latXlane, writes := writes, sticky := sticky })

end Sys2Proof.Machine
end

