-- ==== Sys2Proof/Machine/Flags.lean ====
section
/-!
DEFINITION. The computations that set `%astatus` bits or yield a condition: saturation (R97), integer compares (R71), and
the float operands and results of a TYPE with FTZ and the flags of R90 to R96.
-/
namespace Sys2Proof.Machine

/-- The least and the greatest number of a w-bit signed or unsigned type. -/
def minOf (signedTy : Bool) (w : Nat) : Int := if signedTy then -(2 ^ (w - 1) : Nat) else 0
def maxOf (signedTy : Bool) (w : Nat) : Int := if signedTy then ((2 ^ (w - 1) : Nat) : Int) - 1 else ((2 ^ w : Nat) : Int) - 1

/-- `sat_T` for a width and a sign (R97): the clamped number. -/
def clampTo (signedTy : Bool) (w : Nat) (v : Int) : Int := min (max v (minOf signedTy w)) (maxOf signedTy w)

/-- The w-bit result of an exact number: wrapped, or clamped with the SAT bit where the clamp changes it (R97). -/
def outW (sat signedTy : Bool) (w : Nat) (v : Int) : Nat × W32 :=
  if sat then (wrapI w (clampTo signedTy w v), if clampTo signedTy w v = v then 0 else flagSAT) else (wrapI w v, 0)

/-- The result of a TYPE (R133). -/
def outT (t : Ty) (sat : Bool) (v : Int) : Nat × W32 := outW sat t.isI t.width v

/-- Integer compare by CMP: EQ, NE, LT, LE, GT, GE (R71). -/
def cmpInt (sel : Nat) (x y : Int) : Bool :=
  match sel with
  | 0 => x == y
  | 1 => x != y
  | 2 => decide (x < y)
  | 3 => decide (x ≤ y)
  | 4 => decide (y < x)
  | 5 => decide (y ≤ x)
  | _ => false

def boolNat (b : Bool) : Nat := if b then 1 else 0

/-! ## Floats of a TYPE -/

/-- A float source of one lane, flushed where FTZ applies (R93). -/
def Gang.laneF (g : Gang) (now : Nat) (t : Ty) (o : Opd) (lane : Nat) : FVal := operandTy t g.ftz (g.laneVal now t o lane)

/-- Two-operand and one-operand float forms, rounded once (R90, R140). -/
def floatBin (op : Rnd → FVal → FVal → FVal × W32) (f : FmtF2) (now : Nat) : LaneFn := fun g k =>
  finishTy f.ty f.rnd f.sat g.ftz (op f.rnd (g.laneF now f.ty f.a k) (g.laneF now f.ty f.b k))

def floatUn (op : FVal → FVal × W32) (f : FmtF2) (now : Nat) : LaneFn := fun g k =>
  finishTy f.ty f.rnd f.sat g.ftz (op (g.laneF now f.ty f.a k))

end Sys2Proof.Machine
end

