-- ==== Sys2Proof/Machine/CrossLane.lean ====
section
/-!
DEFINITION. The cross-lane forms (R145 to R151): sources read at issue from the readable lanes of the group, results landing
later under flag B.
-/
namespace Sys2Proof.Machine

/-- Is a lane number readable: a present lane of the issuing group (R146)? -/
def Ctx.readable (c : Ctx) (src : Int) : Bool := decide (0 ≤ src) && decide (src < 128) && c.lanes.getLsbD src.toNat

/-- A cross-lane form whose result is one value per active lane. -/
def crossForm (mask : MaskSel) (gang : Bool) (t : Ty) (dst : Opd) (f : Ctx → Nat → Nat → Nat) (s : State) : State :=
  issueWord gang false (fun c s =>
    .ok (s.addResult c ((laneList (c.active s.now mask)).flatMap (fun k => laneWrites t dst k (f c s.now k))) 0)) s

/-- The value of A in a source lane, or the fill as the destination lane sees it (R146). -/
def Ctx.sourceOr (c : Ctx) (now : Nat) (f : FmtA3S) (src : Int) (lane : Nat) : Nat :=
  if c.readable src then c.gang.laneVal now f.ty f.a src.toNat else c.gang.laneVal now f.ty f.c lane

/-- The source position by MODE[1:0]: IDX, UP, DOWN, XOR (R147). -/
def shflPos (mode pos b : Nat) : Int :=
  match mode % 4 with
  | 0 => b
  | 1 => (pos : Int) - b
  | 2 => pos + b
  | _ => ((pos ^^^ b : Nat) : Int)

/-- VSHFL (R147). -/
def execVshfl (f : FmtA3S) (s : State) : Host.Outcome State Fault Refusal :=
  .next (crossForm f.mask f.gang f.ty f.dst (fun c now k =>
    c.sourceOr now f (shflPos f.sel.toNat k (c.gang.lane32 now f.b k)) k) s)

/-- VSHFLX (R147): within segments of 8, 16, 32 or 64 lanes. -/
def execVshflx (f : FmtA3S) (s : State) : Host.Outcome State Fault Refusal :=
  .next (crossForm f.mask f.gang f.ty f.dst (fun c now k =>
    let seg := 8 * 2 ^ (f.sel.toNat / 4)
    let p := k % seg
    let q := shflPos f.sel.toNat p (c.gang.lane32 now f.b k)
    if 0 ≤ q ∧ q < seg then c.sourceOr now f (((k - p : Nat) : Int) + q) k else c.gang.laneVal now f.ty f.c k) s)

/-- One element of a slide (R148): element e ± n of the readable lanes, or the fill. -/
def Ctx.slideElem (c : Ctx) (now : Nat) (f : FmtA3S) (n lane k : Nat) : Nat :=
  let per := if f.ty.is64 then 1 else 32 / f.ty.width
  let e : Int := ((lane * per + k : Nat) : Int) + (if f.sel == 0 then (n : Int) else -(n : Int))
  let src := e / per
  if 0 ≤ e ∧ e < ((c.gang.measure * per : Nat) : Int) ∧ c.readable src then
    if f.ty.is64 then (c.gang.lane64 now f.a src.toNat).toNat
    else c.gang.lane32 now f.a src.toNat / 2 ^ (f.ty.width * (e % per).toNat) % 2 ^ f.ty.width
  else c.gang.laneVal now f.ty f.c lane

/-- VSLIDE (R148). -/
def execVslide (f : FmtA3S) (s : State) : Host.Outcome State Fault Refusal :=
  .next (crossForm f.mask f.gang (if f.ty.is64 then .b64 else .b32) f.dst (fun c now lane =>
    let n := c.gang.scalar32 now f.b
    if f.ty.is64 then c.slideElem now f n lane 0
    else (List.range (32 / f.ty.width)).foldl (fun a k => a + c.slideElem now f n lane k * 2 ^ (f.ty.width * k)) 0) s)

/-- VBCAST (R149). -/
def execVbcast (f : FmtA3S) (s : State) : Host.Outcome State Fault Refusal :=
  .next (crossForm f.mask f.gang f.ty f.dst (fun c now k =>
    let b := c.gang.scalar32 now f.b
    if f.sel == 0 then c.sourceOr now f (b : Int) k
    else if b < 8 then c.sourceOr now f ((8 * (k / 8) + b : Nat) : Int) k
    else c.gang.laneVal now f.ty f.c k) s)

/-- VVOTE (R150). -/
def execVvote (f : FmtA2S) (s : State) : Host.Outcome State Fault Refusal :=
  .next (issueWord f.gang false (fun c s =>
    let act := c.active s.now f.mask
    let hold := c.gang.condLanes s.now f.a act
    let sel := f.sel.toNat
    let vals := (laneList act).map (fun k => c.gang.laneVal s.now f.ty f.a k)
    let w : List RegWrite := match f.dst with
      | .m n => [.m n.toNat c.lanes hold]
      | .s n =>
        let x := if sel = 1 then boolNat (hold != 0)
          else if sel = 2 then boolNat (hold == act)
          else if sel = 3 then boolNat (vals.all (fun v => v == vals.headD 0))
          else laneCount hold
        [.s n.toNat (BitVec.ofNat 32 x)]
      | _ => []
    .ok (s.addResult c w 0)) s)

/-! ## Reductions and scans -/

/-- The identity of an operation (R151): 0; all ones for AND; the extremes for MIN and MAX, the canonical NaN for floats. -/
def redIdentity (op : Nat) (t : Ty) : Nat :=
  match op with
  | 1 => if t.isFl then (Ty.ffmt t).canonNaN else wrapI t.width (maxOf t.isI t.width)
  | 2 => if t.isFl then (Ty.ffmt t).canonNaN else wrapI t.width (minOf t.isI t.width)
  | 3 => 2 ^ t.width - 1
  | _ => 0

/-- A float value's bits in its own format. -/
def bitsOf (t : Ty) (v : FVal) : Nat := ((Ty.ffmt t).rne v).1

/-- Combine values in order (R103, R151): the result and the sticky bits of every step. -/
def reduceVals (op : Nat) (t : Ty) (sat ftz : Bool) (xs : List Nat) : Nat × W32 :=
  match xs with
  | [] => (redIdentity op t, 0)
  | x :: rest =>
    match op with
    | 0 =>
      if t.isFl then
        rest.foldl (fun acc y =>
          let r := finishTy t .rne sat ftz (addV .rne (operandTy t ftz acc.1) (operandTy t ftz y))
          (r.1, acc.2 ||| r.2)) (finishTy t .rne sat ftz (operandTy t ftz x, 0))
      else outT t sat (xs.foldl (fun a y => a + numOf t y) 0)
    | 1 | 2 =>
      if t.isFl then
        let r := rest.foldl (fun (acc : FVal × W32) y =>
          let m := minmaxV (op == 2) acc.1 (operandTy t ftz y)
          (m.1, acc.2 ||| m.2)) (operandTy t ftz x, 0)
        let o := (Ty.ffmt t).rne r.1
        (o.1, r.2 ||| o.2)
      else
        (wrapI t.width (rest.foldl (fun a y => if op == 1 then min a (numOf t y) else max a (numOf t y)) (numOf t x)), 0)
    | 3 => (rest.foldl (· &&& ·) x, 0)
    | 4 => (rest.foldl (· ||| ·) x, 0)
    | _ => (rest.foldl (· ^^^ ·) x, 0)

/-- VREDUCE (R151): the total to every active lane, or once to a scalar. -/
def execVreduce (f : FmtA2S) (s : State) : Host.Outcome State Fault Refusal :=
  .next (issueWord f.gang false (fun c s =>
    let lanes := laneList (c.active s.now f.mask)
    let r := reduceVals f.sel.toNat f.ty f.sat c.gang.ftz (lanes.map (fun k => c.gang.laneVal s.now f.ty f.a k))
    let w := match f.dst with
      | .v _ => lanes.flatMap (fun k => laneWrites f.ty f.dst k r.1)
      | _ => scalarWrites f.ty f.dst r.1
    .ok (s.addResult c w r.2)) s)

/-- VSCAN (R151): inclusive, or exclusive with OP bit 3. -/
def execVscan (f : FmtA2S) (s : State) : Host.Outcome State Fault Refusal :=
  .next (issueWord f.gang false (fun c s =>
    let lanes := laneList (c.active s.now f.mask)
    let vals := lanes.map (fun k => c.gang.laneVal s.now f.ty f.a k)
    let ex := f.sel.getLsbD 3
    let rs := (List.range lanes.length).map (fun j =>
      reduceVals (f.sel.toNat % 8) f.ty f.sat c.gang.ftz (vals.take (if ex then j else j + 1)))
    let w := (lanes.zip rs).flatMap (fun p => laneWrites f.ty f.dst p.1 p.2.1)
    .ok (s.addResult c w (rs.foldl (fun (a : W32) (r : Nat × W32) => a ||| r.2) 0))) s)

end Sys2Proof.Machine
end

