-- ==== Sys2Proof/Machine/BarrierOps.lean ====
section
/-!
DEFINITION. Barrier files and their operations: where each barrier stands (R181), ARRIVE and its test at an exit, the phase
test and its release (R183), the expected-byte count (R184), and a gang's withdrawal (R185).
-/
namespace Sys2Proof.Machine

/-- Members, expected bytes and phase of a new barrier (R181). -/
def Bar.make (num members : Nat) : Bar :=
  { num := num, members := members, arrivals := 0, bytes := 0, phase := 0, gangs := [] }

def findBar (l : List Bar) (n : Nat) : Option Bar := l.find? (fun b => b.num == n)
def putBar (l : List Bar) (b : Bar) : List Bar := l.map (fun x => if x.num == b.num then b else x)

/-- The barrier of a number, as a gang of a block names it (R181). -/
def State.bar? (s : State) (blk : Block) (n : Nat) : Option Bar :=
  if n < 16 then (s.block? blk.uid).bind (fun b => findBar b.bars n)
  else if n < 20 then (s.cluster? blk.cluster).bind (fun c => findBar c.bars n)
  else (s.grid? blk.grid).bind (fun g => findBar g.bars n)

def State.setBar (s : State) (blk : Block) (b : Bar) : State :=
  if b.num < 16 then s.updBlock blk.uid (fun k => { k with bars := putBar k.bars b })
  else if b.num < 20 then s.updCluster blk.cluster (fun c => { c with bars := putBar c.bars b })
  else s.updGrid blk.grid (fun g => { g with bars := putBar g.bars b })

/-- A gang's part of a barrier. -/
def Bar.gang (b : Bar) (uid : Nat) : BarGang :=
  (b.gangs.find? (fun x => x.gang == uid)).getD { gang := uid, arrived := 0, counted := false, ever := false, last := none }

def Bar.setGang (b : Bar) (x : BarGang) : Bar :=
  { b with gangs := if b.gangs.any (fun y => y.gang == x.gang) then
      b.gangs.map (fun y => if y.gang == x.gang then x else y) else b.gangs ++ [x] }

/-- ARRIVE (R183): the slices are marked; the gang's arrival counts once all its live slices have arrived. A gang whose slices
have all exited has no arrival to count. -/
def Bar.arrive (b : Bar) (uid : Nat) (slices live : Slices) : Bar :=
  let x := b.gang uid
  let arrived := x.arrived ||| slices
  if !x.counted && arrived != 0 && live != 0 && (live &&& ~~~ arrived) == 0 then
    { b with arrivals := b.arrivals + 1 }.setGang
      { x with arrived := arrived, counted := true, ever := true, last := some (b.phase + 1) }
  else if arrived == 0 then b
  else b.setGang { x with arrived := arrived }

/-- Groups of a gang asleep for an arrival that has just counted now await its phase. -/
def Gang.awaitPhase (g : Gang) (n : Nat) (t : Option Nat) : Gang :=
  { g with groups := g.groups.map (fun r => match r.status with
      | .sleepBar m none => if m == n then { r with status := .sleepBar m t } else r
      | _ => r) }

/-- ARRIVE at a barrier for slices of a gang; no slices at an exit's new test. -/
def State.arrive (s : State) (uid n : Nat) (slices : Slices) : State :=
  match s.gang? uid with
  | none => s
  | some g =>
    match s.block? g.block with
    | none => s
    | some blk =>
      match s.bar? blk n with
      | none => s
      | some b =>
        let b' := b.arrive uid slices g.live
        let s := s.setBar blk b'
        if (b'.gang uid).counted && !(b.gang uid).counted then s.updGang uid (fun g => g.awaitPhase n (b'.gang uid).last)
        else s

/-- All barrier numbers. -/
def barNumbers : List Nat := List.range 22

/-- The test made again when a slice of the gang exits (R183). -/
def State.retestBars (s : State) (uid : Nat) : State :=
  barNumbers.foldl (fun s n => s.arrive uid n 0) s

/-- PHASE is due (R183): the arrivals equal the membership and the expected bytes are 0. -/
def Bar.complete (b : Bar) : Bool := b.members != 0 && b.arrivals == b.members && b.bytes == 0

/-- The phase completes: arrivals and masks cleared, the phase bit flips (R183). -/
def Bar.flip (b : Bar) : Bar :=
  { b with
    arrivals := 0
    phase := b.phase + 1
    gangs := b.gangs.map (fun x => { x with arrived := 0, counted := false }) }

/-- A group asleep at a barrier whose awaited phase is complete wakes. -/
def Group.wakeBar (r : Group) (n phase : Nat) : Group :=
  match r.status with
  | .sleepBar m (some t) => if m == n && t ≤ phase then { r with status := .ready, readyAt := none } else r
  | _ => r

def Gang.wakeBar (g : Gang) (n phase : Nat) : Gang := { g with groups := g.groups.map (fun r => r.wakeBar n phase) }

/-- Is the gang a guest of a proof core (R290)? -/
def Gang.isGuest (g : Gang) : Bool :=
  match g.place with
  | .guest _ _ _ => true
  | _ => false

/-- Does a gang share the barrier of a number with a block (R181)? -/
def State.sharesBar (s : State) (blk : Block) (n : Nat) (g : Gang) : Bool :=
  if n < 16 then g.block == blk.uid
  else match s.block? g.block with
    | some b => if n < 20 then b.cluster == blk.cluster else b.grid == blk.grid
    | none => false

/-- PHASE taken: every sleeper on the phase wakes, a guest's when the release message reaches it (R183, R292). -/
def State.takePhase (s : State) (blk : Block) (b : Bar) : State :=
  let b' := b.flip
  let s := s.setBar blk b'
  { s with gangs := s.gangs.map (fun g =>
      if s.sharesBar blk b.num g && !g.isGuest then g.wakeBar b.num b'.phase else g) }

/-- The greatest magnitude of an expected-byte count (R184). -/
def byteLimit : Int := 2 ^ 47 - 1

/-- R185: a retiring gang leaves each barrier at which it has ever arrived. -/
def Bar.withdraw (b : Bar) (uid : Nat) : Bar :=
  let x := b.gang uid
  if x.ever then
    { b with
      members := b.members - 1
      arrivals := if x.counted then b.arrivals - 1 else b.arrivals
      gangs := b.gangs.filter (fun y => y.gang != uid) }
  else { b with gangs := b.gangs.filter (fun y => y.gang != uid) }

def State.withdrawBars (s : State) (blk : Block) (uid : Nat) : State :=
  barNumbers.foldl (fun s n => match s.bar? blk n with
    | some b => s.setBar blk (b.withdraw uid)
    | none => s) s

/-- The slices of a gang whose arrival at a barrier is still on its way: behind its commit's grant, or in a message (R183,
R292). -/
def Gang.arrivalPending (g : Gang) (n : Nat) : Slices :=
  let sum (l : List (Nat × Slices)) : Slices := l.foldl (fun a e => if e.1 == n then a ||| e.2 else a) 0
  sum (g.arriving.map (fun a => (a.1, a.2.1))) ||| sum (g.dlist.filterMap (fun d => d.arrive.map (fun a => (a.1, a.2.1))))

/-- The arrival of slices, at once for a resident gang, by message for a guest (R292). -/
def State.sendArrival (s : State) (uid n : Nat) (slices : Slices) (pc : W64) : State :=
  match s.gang? uid with
  | none => s
  | some g =>
    if g.isGuest then s.setGang { g with arriving := g.arriving ++ [(n, slices, pc)] } else s.arrive uid n slices

end Sys2Proof.Machine
end

