-- ==== Sys2Proof/Machine/Hooks.lean ====
section
/-!
DEFINITION. What pull triggers and the instruments of a proof core see of a gang's work: trigger fire (R288, R289),
watchpoints with the value history and WATCH events (R297, R299, R313), PC comparators (R297), trace records (R298).
-/
namespace Sys2Proof.Machine

/-! ## Debug domains -/

/-- The rights of a PASID's kernel domain: PULL 1, READ 2, WRITE 4, STEP 8; none while locked (R303, R305). -/
def State.kernelRights (s : State) (pasid : Nat) : BitVec 4 :=
  match s.kernelDomain pasid with
  | some d => d.rights
  | none => 0

/-! ## Pull triggers -/

def Trigger.enabled (t : Trigger) : Bool := t.ctl.getLsbD 0
def Trigger.kind (t : Trigger) : Nat := (t.ctl.extractLsb' 1 2).toNat
def Trigger.proofSel (t : Trigger) : Nat := (t.ctl.extractLsb' 16 4).toNat

/-- Does a trigger admit a gang: armed, PROOF able to fire, the PASID unlocked with PULL, queue and gang filters (R288)? -/
def State.trigAdmits (s : State) (c : Core) (t : Trigger) (g : Gang) : Bool :=
  t.enabled && (t.proofSel < 4 || t.proofSel == 15) && t.gangs.getLsbD g.gangid &&
    (match g.grid? s with
     | some gr => gr.pasid == c.trigPasid.toNat && (s.kernelRights gr.pasid).getLsbD 0 &&
        (!t.ctl.getLsbD 44 || (t.ctl.extractLsb' 32 12).toNat == gr.queue)
     | none => false)

/-- A trigger that fires freezes the gang until its pull; of two that fire in one clock trigger 0 acts, and a pulled gang fires
none (R289, R290). -/
def State.fireTriggers (s : State) (uid kind : Nat) (test : Trigger → Bool) : State :=
  match s.gang? uid with
  | none => s
  | some g =>
    match g.place, s.core? g.home.1 with
    | .press _ _, some c =>
      let fires (t : Trigger) : Bool := t.kind == kind && s.trigAdmits c t g && test t
      let start (k : Nat) (t : Trigger) : State :=
        s.setGang { g with pull := some { core := t.proofSel, at0 := g.home.1, trig := k, fired := s.clockMark g, free := t.ctl.getLsbD 13
                                          window := (t.ctl.extractLsb' 20 12).toNat + 1, place := none } }
      let open0 := match g.pull with
        | none => true
        | some q => q.trig == 1 && q.fired == s.clockMark g && q.place.isNone
      if open0 && fires c.trig0 then start 0 c.trig0
      else if g.pull.isNone && fires c.trig1 then start 1 c.trig1
      else s
    | _, _ => s

/-- The three device-virtual codes compare equal; space 0x10 is the gang's own block (R289). -/
def eaKey (ea : W64) : Option Nat :=
  let a := ea.toNat
  if a / 2 ^ 57 ≤ 2 then some (a % 2 ^ 57) else if a / 2 ^ 57 = 0x10 then some a else none

/-- Does a trigger's DATA condition hold of an aligned word written? -/
def Trigger.dataMatch (t : Trigger) (ea : W64) (val : W32) : Bool := eaKey t.addr == eaKey ea && (eaKey ea).isSome && t.val == val

/-- A store's aligned words that one lane writes whole: address and value. -/
def wholeWords (ea : W64) (n x : Nat) : List (W64 × W32) :=
  if n = 8 then [(ea, BitVec.ofNat 32 x), (ea + 4, BitVec.ofNat 32 (x / 2 ^ 32))]
  else if n = 4 then [(ea, BitVec.ofNat 32 x)] else []

/-! ## Watchpoints -/

/-- One write or read a watchpoint may see: REG 0, MEM-STORE 1, MEM-LOAD 2. -/
structure Seen where
  (kind lane : Nat)
  (addr : W64)
  (old new : W32)
deriving DecidableEq, Repr, Inhabited

/-- COND of a unit (R297). -/
def condHolds (cond : Nat) (x v : W32) : Bool :=
  match cond with
  | 0 => true
  | 1 => x == v
  | 2 => x != v
  | 3 => decide (x.toInt < v.toInt)
  | 4 => decide (v.toInt ≤ x.toInt)
  | 5 => x &&& v != 0
  | _ => false

def Watch.enabled (w : Watch) : Bool := w.ctrl.getLsbD 0
def Watch.cond (w : Watch) : Nat := (w.ctrl.extractLsb' 1 3).toNat
def Watch.hist (w : Watch) : Bool := w.ctrl.getLsbD 6
def Watch.halts (w : Watch) : Bool := w.ctrl.getLsbD 7

/-- Does a unit admit a guest (its domain, GANGS, QFILT)? -/
def Watch.admits (w : Watch) (g : Gang) (pasid queue : Nat) : Bool :=
  w.enabled && w.dom == pasid && w.gangs.getLsbD g.gangid && (!w.ctrl.getLsbD 15 || w.queue.toNat % 4096 == queue)

/-- Does a watchpoint see this write or read? Kind 1 is MEM, 2 is REG (R307). -/
def Watch.sees (w : Watch) (e : Seen) : Bool :=
  if e.kind = 0 then
    w.kind == 2 && w.lo.toNat % 1024 == e.addr.toNat && (e.lane == 128 || (w.ctrl.extractLsb' 8 7).toNat == e.lane)
  else
    w.kind == 1 && (if e.kind = 1 then w.ctrl.getLsbD 4 else w.ctrl.getLsbD 5) &&
      w.lo.toNat ≤ e.addr.toNat && e.addr.toNat < w.hi.toNat

def Proof.addHist (p : Proof) (kind unit gslot lane : Nat) (pc addr : W64) (old new : W32) : Proof :=
  { p with
    nextSeq := p.nextSeq + 1
    hist := ({ seq := p.nextSeq
               info := BitVec.ofNat 32 (kind + unit * 16 + gslot * 256 + lane * 1024)
               pc := pc, addr := addr, old := old, new := new } :: p.hist).take 256 }

/-- A running group gives up its port and stands before its next word. -/
def Group.standBy (r : Group) : Group :=
  if r.status == .running then
    { r with status := .ready, run := r.run.map (fun (u : Run) => { u with port := none, stood := true }) }
  else r

/-- A guest halts: its issuing group stands before its next word, which has passed its match (R295, R296). -/
def Gang.haltGuest (g : Gang) (slice : Nat) (pc : W64) : Gang :=
  let g : Gang := { g with guest := g.guest.map (fun (q : Guest) =>
    { q with halted := true, haltPc := pc, stepping := false }) }
  match g.group? slice with
  | some r =>
    if r.status == .running then
      g.setGroup { r.standBy with run := r.standBy.run.map (fun (u : Run) => { u with unmatched := true }) }
    else g
  | none => g

/-- The watchpoints of a guest's proof core see a list of writes or reads of one instruction: entries of the value history,
and one WATCH event of the instruction for the lowest unit whose condition holds with HALT (R297, R299, R313). `issuing` is a
slice of the group whose word is issuing; `op` is the instruction's operation, where it has one. -/
def State.watchSees (s : State) (uid : Nat) (issuing : Option Nat) (pc : W64) (op : Option Op) (l : List Seen) : State :=
  match s.gang? uid with
  | none => s
  | some g =>
    match g.place with
    | .guest core gslot _ =>
      match s.proof? core with
      | none => s
      | some p =>
        let queue := ((g.grid? s).map (fun x => x.queue)).getD 0
        let units := p.mems.filter (fun w => w.2.admits g (g.pasid s) queue)
        let p' := l.foldl (fun p e => units.foldl (fun (p : Proof) w =>
          if w.2.sees e && w.2.hist then p.addHist e.kind w.1 gslot (e.lane % 128) pc e.addr e.old e.new else p) p) p
        let s := s.setProof p'
        match units.find? (fun w => w.2.halts && !op.any (fun o => o.watched) &&
            l.any (fun e => w.2.sees e && condHolds w.2.cond e.new w.2.val)) with
        | none => s
        | some w =>
          let hit := (l.find? (fun e => w.2.sees e && condHolds w.2.cond e.new w.2.val)).getD
            { kind := 0, lane := 0, addr := 0, old := 0, new := 0 }
          let s := s.updGang uid (fun g =>
            { g with
              guest := g.guest.map (fun q => { q with halted := true, haltPc := 1 })
              ops := g.ops.map (fun o => if op.any (fun x => x.id == o.id) then { o with watched := true } else o) })
          s.addEvent core
            { kind := 2, unit := w.1, gslot := gslot, gang := uid, pc := pc, addr := hit.addr, halt := g.haltWord issuing
              val := hit.new, clock := 0 }
    | _ => s

/-- A mask's element in one lane: its bit (R297). -/
def laneBit (m : Lanes) (k : Nat) : W32 := if m.getLsbD k then 1 else 0

/-- The aligned words an access touches. -/
def wordsOf (ea : W64) (n : Nat) : List W64 := if n = 8 then [ea, ea + 4] else [ea &&& ~~~ 3]

end Sys2Proof.Machine
end

