-- ==== Sys2Proof/Machine/Memory.lean ====
section
/-!
DEFINITION. Loads, stores, prefetch (R152 to R166) and the atomics' issue (R174 to R178): addresses and checks of every lane,
the lanes that wait for a translation (R205, R206), entry of store bytes into the gang galley (R160) or scratch (R157),
read sets (R170), and the loads' own-gang views (R161, R187).
-/
namespace Sys2Proof.Machine

/-! ## Addresses -/

/-- base + sext32(voff) + sext16(imm), modulo 2^64 (R152). -/
def Gang.effAddr (g : Gang) (now : Nat) (base : BitVec 9) (voff : Option (BitVec 8)) (imm : Int) (lane : Nat) : W64 :=
  let off : Int := match voff with
    | some v => (g.rdV now v.toNat lane).toInt
    | none => 0
  g.rdS64 now base.toNat + BitVec.ofInt 64 (off + imm)

/-- An access that may be performed now: its lane, effective address and unified address. -/
structure Hit where
  (lane : Nat)
  (ea : W64)
  (addr : Nat)
deriving DecidableEq, Repr, Inhabited

/-- An access that waits for a translation: lane, effective address, and the device-virtual address to be translated. -/
abbrev Miss := Nat × W64 × Nat

/-- What a list of accesses comes to: a fault, a wait for the translations of some, or those performed now and those whose pages
have no usable translation. -/
inductive Checked
  | bad (tval : W64) (code : Code)
  | wait (misses : List Miss)
  | go (hits : List Hit) (misses : List Miss)
deriving DecidableEq, Repr, Inhabited

/-- Is an address a lane's scratch, in its block's context area (R157, R212)? -/
def isScratch (ea : W64) : Bool := spaceOf ea == 0x20

/-- Does a page request stand for a page and a right? -/
def State.priStands (s : State) (pasid va : Nat) (wr : Bool) : Bool := s.pri.any (fun p => p.asks pasid (pageBase 12 va) wr)

/-- The fault of a group that has been refused the page of an access (R207). -/
def Group.refusal? (r : Group) (e : Miss) : Option Code := (r.refused.find? (fun x => x.1 == pageBase 12 e.2.2)).map (fun x => x.2)

/-- Is it still open whether a page has a usable translation: neither refused to the group nor asked of the host by a page
request? The context area parks no group, and waits for that too (R206, R212). -/
def State.openMiss (s : State) (pasid : Nat) (r : Group) (wr : Bool) (e : Miss) : Bool :=
  (r.refusal? e).isNone && (isScratch e.2.1 || !s.priStands pasid e.2.2 wr)

/-- Checks 1 to 5 of R155 over the lanes: the lowest lane of the highest-ranking fault decides; what is found after translation
is known once every page is answered (log 57). -/
def State.checkAll (s : State) (p : Party) (r : Group) (k : AccKind) (rd wr : Bool) (w n : Nat) (l : List (Nat × W64)) : Checked :=
  let rs := l.map (fun e => (e, s.reach p k wr e.2 w n e.1))
  let rs := rs.map (fun e => match e.2 with
    | .at _ => if rd && wr then (match s.reach p k false e.1.2 w n e.1.1 with
        | .bad b => (e.1, Reach.bad b)
        | _ => e) else e
    | _ => e)
  let bads := rs.filterMap (fun e => match e.2 with
    | .bad b => some (e.1.1, e.1.2, b)
    | _ => none)
  let misses := rs.filterMap (fun e => match e.2 with
    | .miss va => some (e.1.1, e.1.2, va)
    | _ => none)
  if bads.all (fun b => b.2.2 == .rights) && misses.any (s.openMiss p.pasid r wr) then .wait misses
  else match worstFault bads with
  | some (tval, code) => .bad tval code
  | none =>
    .go (rs.filterMap (fun e => match e.2 with
        | .at a => some ⟨e.1.1, e.1.2, a⟩
        | _ => none)) misses

/-! ## Waiting for a translation -/

/-- Who waits for the translation of an address: the grid for its context area, else the core (R212). -/
def Gang.waiterOf (g : Gang) (s : State) (ea : W64) : Waiter :=
  if isScratch ea then .area g.coreKey (((g.grid? s).map (fun x => x.uid)).getD 0) else .core g.coreKey

/-- The request for one page that a lane waits for: a page request already stands, or a translation request goes out. -/
def State.requestMiss (s : State) (g : Gang) (pasid : Nat) (wr : Bool) (e : Miss) : State :=
  if s.priStands pasid e.2.2 wr then s.requestPri pasid (pageBase 12 e.2.2) wr [g.waiterOf s e.2.1]
  else s.requestAts (g.waiterOf s e.2.1) pasid e.2.2 wr

/-- The access of the lowest lane. -/
def lowMiss (l : List Miss) : Option Miss :=
  l.foldl (fun (m : Option Miss) e => match m with
    | none => some e
    | some x => if e.1 < x.1 then some e else m) none

/-- The requests for the pages that some accesses of a group miss; a refused page is not asked for again. -/
def State.requestMisses (s : State) (g : Gang) (r : Group) (pasid : Nat) (wr : Bool) (misses : List Miss) : State :=
  (misses.filter (fun e => (r.refusal? e).isNone)).foldl (fun (s : State) e => s.requestMiss g pasid wr e) s

/-- The word waits at its port until every page is answered, its lanes that miss in `%pendmask`, and has no effect before (R205,
R212; log 57). -/
def State.awaitPages (s : State) (c : Ctx) (pasid : Nat) (wr : Bool) (misses : List Miss) (pend : Lanes) : State :=
  (s.requestMisses c.gang c.grp pasid wr misses).updGang c.uid (fun g => match g.group? c.slice with
    | some r => g.setGroup { r with status := .waitAts, waits := misses, pend := if c.run.replaying then r.pend else pend }
    | none => g)

/-- The lanes of the word that have no usable translation are pending: the group parks, its page requests out, or it faults where
a page has been refused to it (R206, R207). The operation the lanes will join is named where there is one. -/
def State.waitFor (s : State) (c : Ctx) (pasid : Nat) (wr : Bool) (misses : List Miss) (pend : Lanes) (op : Option Nat) : State :=
  let s := (s.requestMisses c.gang c.grp pasid wr misses).updGang c.uid (fun g => match g.group? c.slice with
    | some r => g.setGroup { r with
        status := .parked, pend := pend, waits := misses
        run := r.run.map (fun (u : Run) => { u with replaying := true, replay := op, port := none }) }
    | none => g)
  match misses.findSome? c.grp.refusal? with
  | some code => s.takeFault c.uid c.slice (c.raise code (((lowMiss misses).map (fun e => e.2.1)).getD 0))
  | none => s

/-- The end of a memory word: on to the next, or waiting for the lanes that missed. -/
def Ctx.memEnd (c : Ctx) (s : State) (pasid : Nat) (wr : Bool) (misses : List Miss) (pend : Lanes) (op : Option Nat) : Res :=
  if misses.isEmpty then .ok s else .left (s.waitFor c pasid wr misses pend op)

/-- The operation of the issuing word: the one its replayed lanes join, or a new one. Either issue takes the next number in the
order of issues (R206). -/
def State.joinOp (s : State) (c : Ctx) (new : Nat → Op) (f : Op → Op) : State × Nat :=
  match c.run.replay with
  | some id => (State.updGang { s with nextOp := s.nextOp + 1 } c.uid (fun g => match g.op? id with
      | some o => g.setOp (f o)
      | none => g), id)
  | none => ((s.addOp c.uid (fun id => f (new id))), s.nextOp)

/-! ## Read sets (R170) -/

def readSetLines : Nat := 32

/-- Lines join the open read set of the gang galley. -/
def Gang.noteReads (g : Gang) (lines : List Nat) : Gang :=
  { g with galley := { g.galley with marks := g.galley.marks.map (fun p =>
      if p.hasReads && p.isOpen then
        let r := uniq (p.reads ++ lines)
        if r.length ≤ readSetLines then { p with reads := r } else { p with overfull := true }
      else p) } }

/-- The open read sets close: at a commit, a `commitc`, an abort or a mark of the gang galley (R170). -/
def Gang.closeReads (g : Gang) : Gang :=
  { g with galley := { g.galley with marks := g.galley.marks.map (fun p => { p with isOpen := false }) } }

/-- Is an access outside the lanes' scratch, so that its line joins read sets and galleys (R157, R170)? -/
def Hit.inGalleys (h : Hit) : Bool := !isScratch h.ea

def hitLines (l : List Hit) : List Nat := uniq ((l.filter Hit.inGalleys).map (fun h => lineOf h.addr))

/-! ## Due clocks of memory operations (R60) -/

/-- Is the operation exempt: it reaches another device (R61)? -/
def anyRemote (l : List Hit) : Bool := l.any (fun h => homeRank h.addr == 4)

/-- Local accesses take the local latency, all others the device latency. -/
def State.latOf (s : State) (l : List Hit) : Nat :=
  if l.all (fun h => homeRank h.addr == 2) then s.flash.latLocal else s.flash.latDevice

/-- The due clock of a load or store by the lanes that issue now; with every lane still to issue, this clock (log 23). -/
def State.memDue (s : State) (g : Gang) (l : List Hit) : Option Nat :=
  if l.isEmpty then s.dueAt g 0 else if anyRemote l then none else s.dueAt g (s.latOf l)

/-- The due clock of an operation that further lanes join: the later one, and none where either holds none (R61, R206). -/
def laterDue (a b : Option Nat) : Option Nat :=
  match a, b with
  | some x, some y => some (max x y)
  | _, _ => none

/-- A due clock no earlier than that of an older operation which has to take effect first (log 23). -/
def behindDue (old due : Option Nat) : Option Nat :=
  match old, due with
  | some x, some y => some (max x y)
  | _, d => d

/-! ## Loads -/

/-- The value of a load's bytes placed for its destination (R84). -/
def loadWrites (ty : Ty) (scalar : Bool) (dst lane : Nat) (bytes : List Byte) : List RegWrite :=
  let x := bytesVal bytes
  if scalar then scalarWrites ty (.s (BitVec.ofNat 9 dst)) x else laneWrites ty (.v (BitVec.ofNat 8 dst)) lane x

/-- Home lines of host memory that a load has read stay in the device cache (R341). -/
def State.touchHost (s : State) (l : List (Nat × Nat)) : State :=
  l.foldl (fun s e => match homeOf e.1 with
    | .host => s.touchLine (lineOf e.1)
    | _ => s) s

/-- Does an uncorrectable error stand in the datum of a lane: in its own-gang view, or where another byte is found (R209)? -/
def State.badAcc (s : State) (block n : Nat) (a : Acc) : Bool :=
  a.bad || (List.range n).any (fun k => (Store.get? a.own (a.addr + k)).isNone && s.badSeen block (a.addr + k))

/-- Latch an error on an operation, the first one that arises (R209). -/
def Op.fail (o : Op) (code : Code) (tval : W64) : Op :=
  if o.err.isSome then o else { o with err := some { ctr := o.ctr, flag := o.flag, code := code, tval := tval } }

/-- An aligned word as a load resolves it: the bytes that the load has read, the others as a load of them would find them now (R297,
R299; log 26). -/
def State.wordSeen (s : State) (g : Gang) (a : Acc) (bytes : List Byte) (w : W64) : W32 :=
  let wa := a.addr - (a.ea - w).toNat
  let other := s.resolveBytes g.block (Store.merge (g.ownView wa 4) a.own) wa 4
  BitVec.ofNat 32 (bytesVal ((List.range 4).map (fun k =>
    if a.addr ≤ wa + k && wa + k < a.addr + bytes.length then (bytes[wa + k - a.addr]?).getD 0 else (other[k]?).getD 0)))

/-- Sees in ascending lane (R313). -/
def inLaneOrder (l : List Seen) : List Seen := (List.range 128).flatMap (fun k => l.filter (fun e => e.lane == k))

/-- RESOLVE (R161, R188): every byte of a load takes its value; the load is done. A lane with an uncorrectable datum writes no
destination, and the error is latched (R209). `issuing` is a slice of the group whose word is issuing, where the load resolves at its
issue. -/
def State.resolveOp (s : State) (uid : Nat) (issuing : Option Nat) (o : Op) : State :=
  match s.gang? uid, o.kind with
  | some g, .load ty scalar dst accs =>
    let good := accs.filter (fun a => !s.badAcc g.block ty.bytes a)
    let rs := good.map (fun a => (a, s.resolveBytes g.block a.own a.addr ty.bytes))
    let writes := rs.flatMap (fun r => loadWrites ty scalar dst r.1.lane r.2)
    let bad := accs.find? (s.badAcc g.block ty.bytes)
    let s := s.touchHost (accs.map (fun a => (a.addr, a.lane)))
    let o := { o with done := true, kind := .load ty scalar dst [], writes := o.writes ++ writes }
    let o := match bad with
      | some a => o.fail .uncorrectable a.ea
      | none => o
    let s := s.setGang (g.setOp o)
    let seen := rs.flatMap (fun r => (wordsOf r.1.ea ty.bytes).map (fun w =>
      let x := s.wordSeen g r.1 r.2 w
      { kind := 2, lane := r.1.lane, addr := w, old := x, new := x : Seen }))
    if g.isGuest then s.watchSees uid issuing o.pc (some o) (inLaneOrder seen) else s
  | _, _ => s

/-- One lane's part of a load, with its own-gang view taken now; a lane's scratch is read now (R157, R161). -/
def State.loadAcc (s : State) (g : Gang) (n : Nat) (h : Hit) : Acc :=
  let own := if h.inGalleys then g.ownView h.addr n else (List.range n).map (fun k => (h.addr + k, s.readByte (h.addr + k)))
  { lane := h.lane, addr := h.addr, order := s.nextOp, ea := h.ea, own := own
    bad := if h.inGalleys then own.any (fun e => s.bad.contains (.line 0 g.uid (lineOf e.1))) else s.badBytes h.addr n }

/-- A load issues for lanes with their effective addresses (R164, R165): pending lanes join its operation. -/
def Ctx.load (c : Ctx) (s : State) (ty : Ty) (scalar : Bool) (dst : Nat) (l : List (Nat × W64)) (pend : List Miss → Lanes) :
    Res :=
  let p := c.gang.party s
  if s.heldRemote (l.map (·.2)) then .stay
  else match s.checkAll p c.grp .plain true false ty.bytes ty.bytes l with
  | .bad tval code => .trap s code tval
  | .wait misses => .left (s.awaitPages c p.pasid false misses (pend misses))
  | .go hits misses =>
    let accs := hits.map (s.loadAcc c.gang ty.bytes)
    let due := s.memDue c.gang hits
    let s := s.setGang (c.gang.noteReads (hitLines hits))
    let js := s.joinOp c (fun id => { Op.make id (.load ty scalar dst []) (some .ld) c.run.header.fa c.pc with
        done := true, due := due })
      (fun o => match o.kind with
        | .load t b d old =>
          { o with kind := .load t b d (old ++ accs), done := o.done && accs.isEmpty, due := laterDue o.due due }
        | _ => o)
    let s := js.1
    -- in a deterministic launch the load resolves at its issue (R60)
    let s := if c.gang.det s then (match (s.gang? c.uid).bind (fun g => g.op? js.2) with
        | some o => s.resolveOp c.uid (some c.slice) o
        | none => s) else s
    c.memEnd s p.pasid false misses (pend misses) (some js.2)

/-- The lanes of some accesses. -/
def missLanes (l : List Miss) : Lanes := lanesOfList (l.map (fun e => e.1))

def regNum : Opd → Nat
  | .v n => n.toNat
  | .s n => n.toNat
  | _ => 0

/-- The effective addresses of the active lanes of a format M word. -/
def Ctx.addrsM (c : Ctx) (now : Nat) (f : FmtM) (lanes : Lanes) : List (Nat × W64) :=
  (laneList lanes).map (fun k => (k, c.gang.effAddr now f.base f.voff f.imm.toInt k))

/-- LD (R164). -/
def execLd (f : FmtM) (s : State) : Host.Outcome State Fault Refusal :=
  .next (issueWord f.gang false (fun c s =>
    c.load s f.ty false (regNum f.dst) (c.addrsM s.now f (c.active s.now f.mask)) missLanes) s)

/-- The group lane: the lowest-numbered lane of the group's slices, present or absent (R165). -/
def Ctx.groupLane (c : Ctx) : Nat := 8 * lowSlice c.grp.slices

/-- LDS (R165): one uniform load; it does not consult `em`. -/
def execLds (f : FmtM) (s : State) : Host.Outcome State Fault Refusal :=
  .next (issue (fun c s =>
    c.load s f.ty true (regNum f.dst) [(c.groupLane, c.gang.effAddr s.now f.base none f.imm.toInt 0)]
      (fun _ => c.activeAll)) s)

/-! ## Stores -/

/-- Where the lanes would take G(g) past its capacity: the effective address of the lowest lane that would add a line (R159). -/
def Gang.storeOverflow (g : Gang) (hits : List Hit) : Option W64 :=
  let held := linesOf g.galley.bytes
  let adds := hits.filter (fun h => h.inGalleys && !held.contains (lineOf h.addr))
  if held.length + (hitLines adds).length ≤ gangLines then none else (adds.head?).map (fun h => h.ea)

/-- One lane's bytes into G(g), or into its scratch (R157, R160). -/
def State.enterStore (s : State) (uid : Nat) (h : Hit) (n x : Nat) : State :=
  let cells := cellsOf h.addr n x
  if h.inGalleys then
    s.updGang uid (fun g => { g with galley := { g.galley with bytes := Store.merge g.galley.bytes cells } })
  else s.writeBytes cells

/-- The word a guest's store wrote, as a load by the guest would find it. -/
def State.guestWord (s : State) (uid : Nat) (a : Nat) : W32 :=
  match s.gang? uid with
  | some g => BitVec.ofNat 32 (bytesVal (s.resolveBytes g.block (g.ownView a 4) a 4))
  | none => 0

/-- What the watchpoints and triggers see of one lane's store. -/
def State.storeSeen (s : State) (before : State) (uid : Nat) (h : Hit) (n : Nat) : List Seen :=
  (wordsOf h.ea n).map (fun w =>
    let a := h.addr + (w.toNat : Nat) - h.ea.toNat
    { kind := 1, lane := h.lane, addr := w, old := before.guestWord uid a, new := s.guestWord uid a })

/-- The lanes of a store in ascending number: bytes entered, then seen (R160, R289, R297). -/
def State.storeLanes (s : State) (uid : Nat) (n : Nat) (l : List (Hit × Nat)) : State × List Seen :=
  l.foldl (fun acc e =>
    let s' := acc.1.enterStore uid e.1 n e.2
    (s', match acc.1.gang? uid with
      | some g => if g.isGuest then acc.2 ++ s'.storeSeen acc.1 uid e.1 n else acc.2
      | none => acc.2)) (s, [])

/-- A store issues for lanes with their effective addresses and data (R164, R165). -/
def Ctx.store (c : Ctx) (s : State) (ty : Ty) (data : Nat → Nat) (l : List (Nat × W64)) (pend : List Miss → Lanes) :
    Res :=
  let p := c.gang.party s
  if s.heldRemote (l.map (·.2)) then .stay
  else match s.checkAll p c.grp .plain false true ty.bytes ty.bytes l with
  | .bad tval code => .trap s code tval
  | .wait misses => .left (s.awaitPages c p.pasid true misses (pend misses))
  | .go hits misses =>
    match c.gang.storeOverflow hits with
    | some ea => .trap s .accessDenied ea
    | none =>
      let r := s.storeLanes c.uid ty.bytes (hits.map (fun h => (h, data h.lane)))
      let due := s.memDue c.gang hits
      let js := r.1.joinOp c (fun id => { Op.make id .store (some .st) c.run.header.fa c.pc with done := true, due := due })
        (fun o => { o with due := laterDue o.due due })
      let s := js.1.watchSees c.uid (some c.slice) c.pc ((js.1.gang? c.uid).bind (fun g => g.op? js.2)) r.2
      let words := hits.flatMap (fun h => wholeWords h.ea ty.bytes (data h.lane))
      let s := s.fireTriggers c.uid 1 (fun t => words.any (fun w => t.dataMatch w.1 w.2))
      c.memEnd s p.pasid true misses (pend misses) (some js.2)

/-- ST (R164): the data is read at issue. -/
def execSt (f : FmtM) (s : State) : Host.Outcome State Fault Refusal :=
  .next (issueWord f.gang false (fun c s =>
    c.store s f.ty (c.gang.dataVal s.now f.ty f.dst) (c.addrsM s.now f (c.active s.now f.mask)) missLanes) s)

/-- STS (R165). -/
def execSts (f : FmtM) (s : State) : Host.Outcome State Fault Refusal :=
  .next (issue (fun c s =>
    c.store s f.ty (c.gang.dataVal s.now f.ty f.dst) [(c.groupLane, c.gang.effAddr s.now f.base none f.imm.toInt 0)]
      (fun _ => c.activeAll)) s)

/-- PREFETCH (R166): a hint; it changes no architected state and faults only at decode. -/
def execPrefetch (_f : FmtM) (s : State) : Host.Outcome State Fault Refusal := .next (issue (fun _ s => .ok s) s)

/-! ## Atomics -/

/-- The rank a scope names (R175). -/
def scopeRank : Scope → Nat
  | .block => 1
  | .cluster => 2
  | .device => 3
  | .domain => 4

/-- One request for each distinct address, lanes ascending, at a place in the order of issues (R176). -/
def atomReqs (order : Nat) (hits : List Hit) (b cmp : Nat → W64) : List AReq :=
  hits.foldl (fun (acc : List AReq) h =>
    let e := (h.lane, b h.lane, cmp h.lane)
    if acc.any (fun r => r.addr == h.addr) then
      acc.map (fun r => if r.addr == h.addr then { r with lanes := r.lanes ++ [e] } else r)
    else acc ++ [{ addr := h.addr, order := order, ea := h.ea, lanes := [e], taken := false, done := false }]) []

/-- The due clock of an atomic by the lanes that issue now: none at domain scope (R61), and none earlier than that of an older
atomic of the gang to one of its addresses (R179). -/
def State.atomDue (s : State) (g : Gang) (scope : Scope) (hits : List Hit) : Option Nat :=
  if scope == .domain then none
  else g.ops.foldl (fun d o => match o.kind with
    | .atom a => if a.reqs.any (fun q => !q.taken && hits.any (fun h => h.addr == q.addr)) then behindDue o.due d else d
    | _ => d) (s.dueAt g (if hits.isEmpty then 0 else s.latOf hits))

/-- An atomic issues (R174, R176): kind 0 `atom`, 1 `atomf`, 2 `atomcas`. -/
def Ctx.atomic (c : Ctx) (s : State) (kind : Nat) (f : FmtMA) : Res :=
  let p := c.gang.party s
  let l := (laneList (c.active s.now f.mask)).map (fun k => (k, c.gang.effAddr s.now f.base f.voff 0 k))
  if s.heldRemote (l.map (·.2)) then .stay
  else match s.checkAll p c.grp (.atomic (f.scope == .domain)) true true f.ty.bytes f.ty.bytes l with
  | .bad tval code => .trap s code tval
  | .wait misses => .left (s.awaitPages c p.pasid true misses (missLanes misses))
  | .go hits misses =>
    let val (o : Opd) (k : Nat) : W64 := BitVec.ofNat 64 (c.gang.laneVal s.now f.ty o k)
    let reqs := atomReqs s.nextOp hits (val f.b) (if kind = 2 then val f.dst else fun _ => 0)
    let dst := match f.dst with
      | .v n => some n.toNat
      | _ => none
    let due := s.atomDue c.gang f.scope hits
    let js := s.joinOp c (fun id =>
        { Op.make id (.atom { kind := kind, op := f.sel.toNat, ty := f.ty, scope := f.scope, dst := dst, reqs := [] })
            (some .ld) c.run.header.fa c.pc with
          done := true, due := due })
      (fun o => match o.kind with
        | .atom a =>
          { o with kind := .atom { a with reqs := a.reqs ++ reqs }, done := o.done && reqs.isEmpty, due := laterDue o.due due }
        | _ => o)
    c.memEnd js.1 p.pasid true misses (missLanes misses) (some js.2)

/-- ATOM (R176). -/
def execAtom (f : FmtMA) (s : State) : Host.Outcome State Fault Refusal := .next (issue (fun c s => c.atomic s 0 f) s)

/-- ATOMF (R177). -/
def execAtomf (f : FmtMA) (s : State) : Host.Outcome State Fault Refusal := .next (issue (fun c s => c.atomic s 1 f) s)

/-- ATOMCAS (R178). -/
def execAtomcas (f : FmtMA) (s : State) : Host.Outcome State Fault Refusal := .next (issue (fun c s => c.atomic s 2 f) s)

end Sys2Proof.Machine
end

