-- ==== Sys2Proof/Machine/Commit.lean ====
section
/-!
DEFINITION. Commits, marks, aborts and `waitcnt` (R167 to R173, R180), and the barrier instructions (R182 to R184).
-/
namespace Sys2Proof.Machine

/-! ## Commits -/

/-- G(g) is detached for a later grant: its lines form a new entry of D(g), and its read sets close (R168, R170). -/
def Gang.detach (g : Gang) (op lvl : Nat) (cond : Bool) (arrive : Option (Nat × Slices × Bool)) (due : Option Nat) : Gang :=
  let g := g.closeReads
  { g with
    dlist := g.dlist ++ [{ op := op, bytes := g.galley.bytes, lvl := lvl, cond := cond, arrive := arrive, due := due }]
    galley := { g.galley with bytes := [] } }

/-- The fixed latency of a commit by its target (R60). -/
def State.commitLat (s : State) (lvl : Nat) : Nat :=
  match lvl with
  | 0 => s.flash.latCommitB
  | 1 => s.flash.latCommitC
  | _ => s.flash.latCommitD

/-- A commit issues: an operation on flag A, on `st` unless a barrier instruction performs it (R15), and its entry of D(g). A
domain commit of a deterministic launch that is fabric-exempt holds no due clock (R61); a grant comes no earlier than that of
the entry before it (log 23). -/
def State.issueCommit (s : State) (c : Ctx) (lvl : Nat) (cond : Option Nat) (arrive : Option (Nat × Slices × Bool)) : State :=
  let due := if lvl = 3 then none
    else behindDue ((c.gang.dlist.getLast?).bind (fun d => d.due)) (s.dueAt c.gang (s.commitLat lvl))
  let ctr := if arrive.isSome then none else some Ctr.st
  let id := s.nextOp
  let s := s.addOp c.uid (fun id => { Op.make id (.commit cond) ctr c.run.header.fa c.pc with due := due })
  s.updGang c.uid (fun g => g.detach id lvl cond.isSome arrive due)

/-- A domain commit faults in a deterministic launch without the fabric-exempt bit (R61). -/
def Ctx.commitFaults (c : Ctx) (s : State) (lvl : Nat) : Bool := lvl == 3 && c.gang.det s && !c.gang.fabx s

/-- COMMIT (R168): the at-issue step, after the wait of R50. -/
def execCommit (f : FmtY) (s : State) : Host.Outcome State Fault Refusal :=
  .next (issueWord true false (fun c s =>
    if c.commitFaults s f.lvl.rank then .trap s .detViolation c.pc
    else if f.lvl.rank = 3 && s.domainPending.isSome then .stay
    else .ok (s.issueCommit c f.lvl.rank none none)) s)

/-- COMMITC (R171). -/
def execCommitc (f : FmtY) (s : State) : Host.Outcome State Fault Refusal :=
  .next (issueWord true false (fun c s => .ok (s.issueCommit c f.lvl.rank (some (regNum f.dst)) none)) s)

/-! ## Save points -/

def markLimit : Nat := 8

def Galley.mark (g : Galley) (reads : Bool) : Galley :=
  { g with marks := { bytes := g.bytes, hasReads := reads, isOpen := true, overfull := false, reads := [], writes := [] } :: g.marks }

/-- `abort` of a galley (R172): TOP to the top save point and pops it, ALL or an empty stack empties it. -/
def Galley.abort (g : Galley) (all : Bool) : Galley :=
  match g.marks with
  | p :: rest => if all then Galley.empty else { bytes := p.bytes, marks := rest }
  | [] => Galley.empty

/-- MARK (R170): a gang-level mark waits for the gang's ungranted commits (R173). -/
def execMark (f : FmtY) (s : State) : Host.Outcome State Fault Refusal :=
  .next (issue (fun c s =>
    let reads := f.sel == 1
    match f.lvl with
    | .gang =>
      if !c.gang.dlist.isEmpty then .stay
      else if markLimit ≤ c.gang.galley.marks.length then .trap s .illegalInstruction c.pc
      else
        let g := c.gang.closeReads
        .ok (s.setGang { g with galley := g.galley.mark reads })
    | .block =>
      match s.block? c.gang.block with
      | some b =>
        if markLimit ≤ b.galley.marks.length then .trap s .illegalInstruction c.pc
        else .ok (s.setBlock { b with galley := b.galley.mark false })
      | none => .ok s
    | _ =>
      match (s.block? c.gang.block).bind (fun b => s.cluster? b.cluster) with
      | some k =>
        if markLimit ≤ k.galley.marks.length then .trap s .illegalInstruction c.pc
        else .ok (s.setCluster { k with galley := k.galley.mark false })
      | none => .ok s) s)

/-- ABORT (R172): the gang level takes effect at issue; the block and cluster levels hold until CABORT. -/
def execAbort (f : FmtY) (s : State) : Host.Outcome State Fault Refusal :=
  .next (issueWord true false (fun c s =>
    match f.lvl with
    | .gang =>
      if !c.gang.dlist.isEmpty then .stay
      else
        let g := c.gang.closeReads
        .ok (s.setGang { g with galley := g.galley.abort (f.sel == 1) })
    | l => .left (s.holdAs c (.heldAbort l.rank f.sel.toNat))) s)

/-- The counter CNT names (R167). -/
def ctrOf (sel : Nat) : Ctr :=
  match sel with
  | 0 => .ld
  | 1 => .st
  | 2 => .req
  | 3 => .mx
  | 4 => .gx
  | _ => .coll

/-- WAITCNT (R180): holds its clause on its port until the counter is at most n; a latched error of the counter is raised by
the `waitcnt` that would pass it (R209). -/
def execWaitcnt (f : FmtY) (s : State) : Host.Outcome State Fault Refusal :=
  .next (issue (fun c s =>
    let k := ctrOf f.sel.toNat
    if c.gang.scalar32 s.now f.a < c.gang.count k then .stay
    else match c.gang.latchedErr 0 (some k) false with
      | some e => .trap (s.setGang (c.gang.dropErr e)) e.code e.tval
      | none => .ok s) s)

/-! ## Barriers -/

def FmtY.barNum (f : FmtY) : Nat := f.sel.toNat % 32
def FmtY.barCommit (f : FmtY) : Bool := f.sel.getLsbD 5

/-- The barrier of the word, unless it is disabled (R185). -/
def Ctx.bar? (c : Ctx) (s : State) (n : Nat) : Option (Block × Bar) :=
  match s.block? c.gang.block with
  | some blk => match s.bar? blk n with
    | some b => if b.members = 0 then none else some (blk, b)
    | none => none
  | none => none

/-- `bara` and `bars` (R183): misuse faults at the word; with C = 1 the commit goes first and the arrival follows its grant. A
slice whose arrival there is still on its way counts as arrived (log 54). -/
def Ctx.arriveAt (c : Ctx) (s : State) (n : Nat) (commit sleep : Bool) (lvl : Nat) : Res :=
  match c.bar? s n with
  | none => .trap s .barrierMisuse c.pc
  | some (_, b) =>
    if ((b.gang c.uid).arrived ||| c.gang.arrivalPending n) &&& c.grp.slices != 0 then .trap s .barrierMisuse c.pc
    else if commit && c.commitFaults s lvl then .trap s .detViolation c.pc
    else if commit && lvl = 3 && s.domainPending.isSome then .stay
    else
      let s := if sleep then s.setGang (c.gang.setGroup { c.grp with status := .sleepBar n none }) else s
      if commit then .ok (s.issueCommit c lvl none (some (n, c.grp.slices, sleep)))
      else .ok (s.sendArrival c.uid n c.grp.slices c.pc)

/-- BARA (R183). -/
def execBara (f : FmtY) (s : State) : Host.Outcome State Fault Refusal :=
  .next (issueWord (FmtY.barCommit f) false (fun c s => c.arriveAt s (FmtY.barNum f) (FmtY.barCommit f) false f.lvl.rank) s)

/-- BARS (R183). -/
def execBars (f : FmtY) (s : State) : Host.Outcome State Fault Refusal :=
  .next (issueWord (FmtY.barCommit f) false (fun c s => c.arriveAt s (FmtY.barNum f) (FmtY.barCommit f) true f.lvl.rank) s)

/-- BARW (R183): sleeps until the phase of the gang's last arrival has completed; an arrival on its way is the last one (log 54). -/
def execBarw (f : FmtY) (s : State) : Host.Outcome State Fault Refusal :=
  .next (issue (fun c s =>
    match c.bar? s (FmtY.barNum f) with
    | none => .trap s .barrierMisuse c.pc
    | some (_, b) =>
      let sleep (t : Option Nat) : Res := .ok (s.setGang (c.gang.setGroup { c.grp with status := .sleepBar (FmtY.barNum f) t }))
      if c.gang.arrivalPending (FmtY.barNum f) != 0 then sleep none
      else match (b.gang c.uid).last with
        | some t => if b.phase < t then sleep (some t) else .ok s
        | none => .ok s) s)

/-- BARX (R184): adds to the expected-byte count. -/
def execBarx (f : FmtY) (s : State) : Host.Outcome State Fault Refusal :=
  .next (issue (fun c s =>
    match c.bar? s (FmtY.barNum f) with
    | none => .trap s .barrierMisuse c.pc
    | some (blk, b) =>
      let n := b.bytes + (c.gang.scalar32 s.now f.a : Int)
      if byteLimit < n || n < -byteLimit then .trap s .barrierMisuse c.pc
      else .ok (s.setBar blk { b with bytes := n })) s)

end Sys2Proof.Machine
end

