-- ==== Sys2Proof/Machine/SysOps.lean ====
section
/-!
DEFINITION. `vralloc` (R203, R204), `launch` (R215 to R217) and `sigop` (R218, R219).
-/
namespace Sys2Proof.Machine

/-! ## Register files of partitions -/

/-- Vector-register bytes of a partition (R42). -/
def regFileBytes : Nat := 131072

/-- Is a gang's block resident on its core, so that its resources are held (R41, R42)? -/
def State.holdsCore (s : State) (g : Gang) : Bool :=
  match s.block? g.block with
  | some b => b.stage == .resident
  | none => false

/-- Register bytes of a partition that gangs hold: those at home there, pulled ones included (R290), the guests there, and the
gangs for which a pull has found room there. -/
def State.partUsed (s : State) (core part : Nat) : Nat :=
  s.gangs.foldl (fun n g =>
    let home := g.home == (core, part) && s.holdsCore g
    let guest := match g.place with
      | .guest c _ p => c == core && p == part
      | _ => (g.pull.bind (fun q => q.place)).any (fun x => x.1 == core && x.2.2 == part)
    if home || guest then n + g.reserve * g.measure * 4 else n) 0

/-! ## VRALLOC -/

/-- The pending allotment of the clause, else the one in force, and the least one so far (R204). -/
def Ctx.allotNow (c : Ctx) : Nat × Nat := c.run.allot.getD (c.gang.allot, c.gang.allot)

/-- An accepted `vralloc`: DST, and the allotment that takes effect at the end of the clause. -/
def Ctx.takeAllot (c : Ctx) (s : State) (dst : Opd) (new more : Nat) : State :=
  let g := c.gang.wrScalar32 dst 1
  s.setGang (Gang.setGroup { g with reserve := g.reserve + more }
    { c.grp with run := some { c.run with allot := some (new, min new c.allotNow.2) } })

/-- VRALLOC (R204): SHRINK, or GROW where the gang's home partition has the bytes free. -/
def execVralloc (f : FmtS) (s : State) : Host.Outcome State Fault Refusal :=
  .next (issue (fun c s =>
    let a := c.gang.scalar32 s.now f.a
    let new := 8 * a
    let cur := c.allotNow.1
    if c.gang.live &&& ~~~ c.grp.slices != 0 then .trap s .illegalConvergence c.pc
    else if a = 0 || 32 < a then .trap s .illegalInstruction c.pc
    else if f.sel == 0 then
      if cur < new then .trap s .illegalInstruction c.pc else .ok (c.takeAllot s f.dst new 0)
    else if new < cur then .trap s .illegalInstruction c.pc
    else if s.partUsed c.gang.home.1 c.gang.home.2 + (new - cur) * c.gang.measure * 4 ≤ regFileBytes then
      .ok (c.takeAllot s f.dst new (new - cur))
    else .ok (s.setGang (c.gang.wrScalar32 f.dst 0))) s)

/-! ## LAUNCH -/

/-- Nesting depth of a gang's grid (R41). -/
def Gang.depth (s : State) (g : Gang) : Nat := ((g.grid? s).map (fun x => x.depth)).getD 1

/-- The due clock of a release that issues now: that of `commit.device`, behind the entry before it (R60; log 23). -/
def State.releaseDue (s : State) (g : Gang) : Option Nat :=
  behindDue ((g.dlist.getLast?).bind (fun d => d.due)) (s.dueAt g s.flash.latCommitD)

/-- An operation that issues with a release: its grant is that of `commit.device` (R216, R219, R251). -/
def State.releaseFor (s : State) (c : Ctx) (op : Nat) : State :=
  let due := s.releaseDue c.gang
  s.updGang c.uid (fun g => g.detach op 2 false none due)

/-- LAUNCH (R216): the detach at issue; descriptors are handed over after the grant. -/
def execLaunch (f : FmtS) (s : State) : Host.Outcome State Fault Refusal :=
  .next (issue (fun c s =>
    if 10 ≤ c.gang.depth s then .trap s .nestingOverflow c.pc
    else
      let lanes : List (Nat × W64) := (laneList c.activeAll).map (fun k => (k, c.gang.lane64 s.now f.a k))
      let id := s.nextOp
      let s := s.addOp c.uid (fun id => { Op.make id (.launch (regNum f.dst) lanes) none c.run.header.fa c.pc with
        due := behindDue (s.releaseDue c.gang) (s.dueAt c.gang s.flash.latLaunch) })
      .ok (s.releaseFor c id)) s)

/-! ## SIGOP -/

/-- A space other than 0x00 to 0x02 is no place for a signal (R219). -/
def signalSpace (ea : W64) : Bool := ea.toNat / 2 ^ 57 ≤ 2

/-- SIGOP (R219): steps 1 and 2 at issue; the operation is taken after the grant, at the due clock of an atomic. -/
def execSigop (f : FmtS) (s : State) : Host.Outcome State Fault Refusal :=
  .next (issue (fun c s =>
    let ea := c.gang.scalar64 s.now f.a
    let p := c.gang.party s
    let op := f.sel.toNat
    if !signalSpace ea then .trap s .spaceInvalid ea
    else match s.checkAll p c.grp .plain true (op != 2) 8 8 [(c.groupLane, ea)] with
      | .bad tval code => .trap s code tval
      | .wait misses => .left (s.awaitPages c p.pasid (op != 2) misses c.activeAll)
      | .go [] misses => .left (s.waitFor c p.pasid (op != 2) misses c.activeAll none)
      | .go (h :: _) _ =>
        let id := s.nextOp
        let s := s.addOp c.uid (fun id =>
          { Op.make id (.sigop op (regNum f.dst) h.addr ea (c.gang.scalar64 s.now f.b)) none c.run.header.fa c.pc with
            due := behindDue (if op = 2 then none else s.releaseDue c.gang) (s.dueAt c.gang s.flash.latDevice)
            started := op == 2 })
        .ok (if op = 2 then s else s.releaseFor c id)) s)

end Sys2Proof.Machine
end

