-- ==== Sys2Proof/Machine/VectorFloat.lean ====
section
/-!
DEFINITION. The float vector forms (R139 to R141) and the conversions (R142 to R144).
-/
namespace Sys2Proof.Machine

def floatForm (op : Rnd → FVal → FVal → FVal × W32) (f : FmtF2) (s : State) : State :=
  vecForm f.mask f.gang f.ty f.dst (floatBin op f) s

/-- VFADD (R140). -/
def execVfadd (f : FmtF2) (s : State) : Host.Outcome State Fault Refusal := .next (floatForm addV f s)

/-- VFSUB (R140): the sum with the negated operand; a NaN keeps its kind. -/
def execVfsub (f : FmtF2) (s : State) : Host.Outcome State Fault Refusal :=
  .next (floatForm (fun r a b => addV r a b.negate) f s)

/-- VFMUL (R140). -/
def execVfmul (f : FmtF2) (s : State) : Host.Outcome State Fault Refusal := .next (floatForm (fun _ a b => mulV a b) f s)

/-- VFMA (R140): one rounding. -/
def execVfma (f : FmtA3) (s : State) : Host.Outcome State Fault Refusal :=
  .next (vecForm f.mask f.gang f.ty f.dst (fun now g k =>
    finishTy f.ty f.rnd f.sat g.ftz
      (fmaV f.rnd (g.laneF now f.ty f.a k) (g.laneF now f.ty f.b k) (g.laneF now f.ty f.c k))) s)

/-- VFMIN (R95). -/
def execVfmin (f : FmtF2) (s : State) : Host.Outcome State Fault Refusal :=
  .next (floatForm (fun _ a b => minmaxV false a b) f s)

/-- VFMAX (R95). -/
def execVfmax (f : FmtF2) (s : State) : Host.Outcome State Fault Refusal :=
  .next (floatForm (fun _ a b => minmaxV true a b) f s)

/-- A transcendental form: sources read at issue, the result landing later under flag B (R130). -/
def longForm (op : FVal → FVal × W32) (f : FmtF2) (s : State) : State :=
  issueWord f.gang false (fun c s =>
    let rs := (laneList (c.active s.now f.mask)).map (fun k => (k, floatUn op f s.now c.gang k))
    .ok (s.addResult c (rs.flatMap (fun r => laneWrites f.ty f.dst r.1 r.2.1))
      (rs.foldl (fun (a : W32) (r : Nat × Nat × W32) => a ||| r.2.2) 0))) s

/-- VFRCP (R140). -/
def execVfrcp (f : FmtF2) (s : State) : Host.Outcome State Fault Refusal := .next (longForm rcpV f s)

/-- VFRSQ (R140). -/
def execVfrsq (f : FmtF2) (s : State) : Host.Outcome State Fault Refusal := .next (longForm rsqrtV f s)

/-- VFSQRT (R140). -/
def execVfsqrt (f : FmtF2) (s : State) : Host.Outcome State Fault Refusal := .next (longForm sqrtV f s)

/-- VFEXP2 (R140). -/
def execVfexp2 (f : FmtF2) (s : State) : Host.Outcome State Fault Refusal := .next (longForm exp2V f s)

/-- VFLOG2 (R140). -/
def execVflog2 (f : FmtF2) (s : State) : Host.Outcome State Fault Refusal := .next (longForm log2V f s)

/-- VFCMP (R141, R96). -/
def execVfcmp (f : FmtA2S) (s : State) : Host.Outcome State Fault Refusal :=
  .next (vecCompare f.mask f.gang f.dst (fun now g k =>
    let r := cmpV f.sel.toNat (g.laneF now f.ty f.a k) (g.laneF now f.ty f.b k)
    (boolNat r.1, r.2)) s)

/-- VFCLASS (R141). -/
def execVfclass (f : FmtA2) (s : State) : Host.Outcome State Fault Refusal :=
  .next (vecForm32 f.mask f.gang f.dst (fun now g k => ((Ty.ffmt f.ty).classOf (g.laneF now f.ty f.a k), 0)) s)

/-! ## Conversions -/

def ctySigned : CTy → Bool
  | .i4 | .i8 | .i16 | .i32 | .i64 => true
  | _ => false

/-- The float format of a conversion type. -/
def ctyFmt : CTy → FFmt
  | .f64 => fmt64
  | .f16 => fmt16
  | .bf16 => fmtB16
  | .e4m3 => fmtE4M3
  | .e5m2 => fmtE5M2
  | .e2m1 => fmtE2M1
  | _ => fmt32

/-- The slot operand (R143): destination slot and source slot. -/
def slotsOf (b : Opd) : Nat × Nat :=
  match b with
  | .imm i => (i.toNat % 8, i.toNat / 8 % 8)
  | _ => (0, 0)

/-- The source slot's bits in one lane. -/
def Gang.slotVal (g : Gang) (now : Nat) (f : FmtCV) (lane : Nat) : Nat :=
  if f.sty.width = 64 then (g.lane64 now f.a lane).toNat
  else g.lane32 now f.a lane / 2 ^ (f.sty.width * (slotsOf f.b).2) % 2 ^ f.sty.width

/-- The result in its slot; the other bits of a narrow destination are kept (R143). -/
def Gang.wrSlot (g : Gang) (f : FmtCV) (lane x : Nat) : Gang :=
  match f.dst with
  | .v n =>
    if f.dty.width = 64 then g.wrV64 n.toNat lane (BitVec.ofNat 64 x)
    else
      let sh := f.dty.width * (slotsOf f.b).1
      let old := (g.rawV n.toNat lane).toNat
      let fld := old / 2 ^ sh % 2 ^ f.dty.width
      g.wrV n.toNat lane (BitVec.ofNat 32 (old - fld * 2 ^ sh + x % 2 ^ f.dty.width * 2 ^ sh))
  | _ => g

def convForm (f : FmtCV) (op : Bool → Nat → Nat × W32) (s : State) : State :=
  issueWord f.gang false (fun c s =>
    .ok (s.setGang (c.gang.eachLane (c.active s.now f.mask) (fun g k => op g.ftz (g.slotVal s.now f k))
      (fun h k x => h.wrSlot f k x)))) s

/-- An integer source (R83). -/
def intOf (t : CTy) (x : Nat) : Int := if (ctySigned t) then sintOf t.width x else ((x % 2 ^ t.width : Nat) : Int)

/-- A float source, flushed under FTZ where STYPE is `f32` (R93, R144). -/
def floatOf (t : CTy) (ftz : Bool) (x : Nat) : FVal :=
  match t with
  | .e8m0 => decodeE8M0 x
  | .f32 => ftzOperand ftz (fmt32.decode (x % 2 ^ 32))
  | _ => (ctyFmt t).decode (x % 2 ^ t.width)

/-- A value into a float destination (R90 to R93): NaN to E2M1 is +0 with NV. -/
def toFloat (t : CTy) (rnd : Rnd) (sat ftz : Bool) (v : FVal) : Nat × W32 :=
  match t with
  | .e8m0 => roundE8M0 rnd v
  | .e2m1 => if v.isNaN then (0, flagNV) else fmtE2M1.round rnd sat v
  | .f32 => finishTy .f32 rnd sat ftz (v, 0)
  | _ => (ctyFmt t).round rnd sat v

/-- A finite magnitude m × 2^e rounded to an integer by the mode. -/
def roundInt (rnd : Rnd) (neg : Bool) (m : Nat) (e : Int) : Int × Bool :=
  let r := roundAt rnd neg m e 0
  (if neg then -(r.1 : Int) else r.1, r.2)

/-- Float to integer (R92). -/
def toInt (t : CTy) (rnd : Rnd) (v : FVal) : Nat × W32 :=
  match v with
  | .nan _ => (0, flagNV)
  | .inf neg => (wrapI t.width (if neg then minOf (ctySigned t) t.width else maxOf (ctySigned t) t.width), flagNV)
  | .fin neg m e =>
    let r := roundInt rnd neg m e
    let c := clampTo (ctySigned t) t.width r.1
    if c = r.1 then (wrapI t.width c, if r.2 then flagNX else 0)
    else (wrapI t.width (if neg then minOf (ctySigned t) t.width else maxOf (ctySigned t) t.width), flagNV)

/-- Integer to float before rounding. -/
def intVal (x : Int) : FVal := .fin (x < 0) x.natAbs 0

/-- VCVT (R144). -/
def execVcvt (f : FmtCV) (s : State) : Host.Outcome State Fault Refusal :=
  .next (convForm f (fun _ x => outW f.sat (ctySigned f.dty) f.dty.width (intOf f.sty x)) s)

/-- VFCVT (R144): canonicalises NaNs. An FP32 source converted into another format is not flushed (R93). -/
def execVfcvt (f : FmtCV) (s : State) : Host.Outcome State Fault Refusal :=
  .next (convForm f (fun ftz x => toFloat f.dty f.rnd f.sat ftz (floatOf f.sty (ftz && f.dty == .f32) x)) s)

/-- VFTOI (R144): FTZ flushes its FP32 source (R93; log 55). -/
def execVftoi (f : FmtCV) (s : State) : Host.Outcome State Fault Refusal :=
  .next (convForm f (fun ftz x => toInt f.dty f.rnd (floatOf f.sty ftz x)) s)

/-- VITOF (R144). -/
def execVitof (f : FmtCV) (s : State) : Host.Outcome State Fault Refusal :=
  .next (convForm f (fun ftz x => toFloat f.dty f.rnd f.sat ftz (intVal (intOf f.sty x))) s)

end Sys2Proof.Machine
end

