-- ==== Sys2Proof/Machine/Matrix.lean ====
section
/-!
DEFINITION. The matrix engine (R86 to R89, R100 to R102, R224 to R246): tiles, format words, block decoding, the products,
histogram, scale and quantisation; the issue of a matrix instruction and MSTART.
-/
namespace Sys2Proof.Machine

/-! ## Tiles (R224, R225) -/

def tileM (w : Nat) : Nat := if w = 32 then 16 else 32
def tileN (w : Nat) : Nat := if w = 128 then 32 else 16

/-- A registers of a product: twice as many for `mmas`. -/
def aRegs (w : Nat) (sparse : Bool) : Nat := (if w = 128 then 2 else 4) * (if sparse then 2 else 1)

/-- Registers of the histogram (R232). -/
def histRegs (w : Nat) : Nat := if w = 32 then 2 else 1

/-- The words of a tile held from a base register; an absent lane's words read as zero (R225, R237). -/
def Gang.tileWords (g : Gang) (now base n : Nat) : List W32 :=
  (List.range (n * g.measure)).map (fun q =>
    if g.present.getLsbD (q % g.measure) then g.rdV now (base + q / g.measure) (q % g.measure) else 0)

/-- Element number k of width w in a string of words (R84, R225). -/
def tileElem (words : List W32) (w k : Nat) : Nat := ((words[k * w / 32]?).getD 0).toNat / 2 ^ (k * w % 32) % 2 ^ w

/-- The writes of a tile's words; absent lanes are not written (R237). -/
def Gang.tileWrites (g : Gang) (base : Nat) (words : List (Nat × Nat)) : List RegWrite :=
  words.filterMap (fun e =>
    if g.present.getLsbD (e.1 % g.measure) then
      some (.v (base + e.1 / g.measure) (e.1 % g.measure) (BitVec.ofNat 32 e.2)) else none)

/-! ## The format word (R227, R228) -/

structure FmtWord where
  (af : CTy)
  (la asc : Nat)
  (bf : CTy)
  (lb bsc : Nat)
deriving DecidableEq, Repr, Inhabited

/-- Block length of a code of ABLK or BBLK. -/
def blkLen (x : Nat) : Option Nat :=
  match x with
  | 0 => some 0
  | 1 => some 16
  | 2 => some 32
  | _ => none

/-- Formats and their blocks (R228). -/
def matAccepts (t : CTy) (l : Nat) : Bool :=
  match t with
  | .bf16 | .f16 | .i4 => l == 0
  | .e4m3 | .e5m2 | .e2m1 | .i8 => true
  | .o4 => l == 32
  | _ => false

/-- An unblocked integer operand. -/
def matInt (t : CTy) (l : Nat) : Bool := l == 0 && (t == .i8 || t == .i4)

/-- A format word that R227 and R228 accept; O4 only where its feature is accepted (R319). -/
def decFmtWord (o4 : Bool) (x : W64) : Option FmtWord :=
  match decCTy (x.extractLsb' 59 5), blkLen (x.extractLsb' 57 2).toNat, decCTy (x.extractLsb' 33 5),
      blkLen (x.extractLsb' 31 2).toNat with
  | some af, some la, some bf, some lb =>
    let asc := (x.extractLsb' 38 19).toNat
    let bsc := (x.extractLsb' 12 19).toNat
    if matAccepts af la && matAccepts bf lb && (la != 0 || asc == 0) && (lb != 0 || bsc == 0) &&
        (x.extractLsb' 0 12) == 0 && af.width == bf.width && matInt af la == matInt bf lb &&
        (o4 || (af != .o4 && bf != .o4)) then
      some ⟨af, la, asc, bf, lb, bsc⟩
    else none
  | _, _, _, _ => none

def FmtWord.int (f : FmtWord) : Bool := matInt f.af f.la
def FmtWord.width (f : FmtWord) : Nat := f.af.width
/-- Dense depth K: a row holds 32 bytes (R224). -/
def FmtWord.depth (f : FmtWord) : Nat := 256 / f.width

/-! ## Element values (R85, R86, R89) -/

/-- A value times 2^(s - 127); a scale of 0xFF makes NaN (R86). -/
def scaleBy (s : Nat) (v : FVal) : FVal :=
  if s = 0xFF then .nan false
  else match v with
    | .fin n m e => .fin n m (e + (s : Int) - 127)
    | x => x

/-- A float element, or an MXINT8 element q × 2^-6. -/
def elemVal (t : CTy) (x : Nat) : FVal :=
  match t with
  | .f16 => fmt16.decode x
  | .bf16 => fmtB16.decode x
  | .e4m3 => fmtE4M3.decode x
  | .e5m2 => fmtE5M2.decode x
  | .e2m1 => fmtE2M1.decode x
  | _ => .fin (sintOf 8 x < 0) (sintOf 8 x).natAbs (-6)

/-- The markers of an O4 block as they are visited: outliers with their high nibbles, partners, and later markers. -/
structure O4Roles where
  (k : Nat)
  (outliers : List (Nat × Nat))
  (partners overflow : List Nat)
deriving DecidableEq, Repr, Inhabited

def o4Roles (e : List Nat) (hdr : Nat) : O4Roles :=
  (List.range 32).foldl (fun (r : O4Roles) j =>
    if r.partners.contains j then r
    else if e[j]? == some 8 then
      if r.k < 2 then
        { r with k := r.k + 1, partners := r.partners ++ [j ^^^ 1]
                 outliers := r.outliers ++ [(j, if r.k = 0 then bits hdr 7 4 else bits hdr 3 0)] }
      else { r with k := r.k + 1, overflow := r.overflow ++ [j] }
    else r) ⟨0, [], [], []⟩

/-- `o4_decode` (R89): 32 values, and whether a third marker was met. -/
def o4Decode (e : List Nat) (hdr : Nat) : List FVal × W32 :=
  let s := bits hdr 15 8
  if s = 0xFF then (List.replicate 32 (.nan false), 0)
  else
    let r := o4Roles e hdr
    ((List.range 32).map (fun j =>
      match r.outliers.find? (fun o => o.1 == j) with
      | some o => scaleBy s (fmtE4M3.decode (o.2 * 16 + (e[j ^^^ 1]?).getD 0))
      | none =>
        if r.partners.contains j || r.overflow.contains j then .zero false
        else
          let x := sintOf 4 ((e[j]?).getD 0)
          scaleBy s (.fin (x < 0) x.natAbs 0)),
      if r.overflow.isEmpty then 0 else flagO4)

/-- The values of a row or column of n elements: scale or header b is read by block number (R228, R229). -/
def vecVals (t : CTy) (l n : Nat) (raw : Nat → Nat) (scale : Nat → Nat) : List FVal × W32 :=
  if t == .o4 then
    (List.range (n / 32)).foldl (fun (acc : List FVal × W32) b =>
      let d := o4Decode ((List.range 32).map (fun k => raw (32 * b + k))) (scale b)
      (acc.1 ++ d.1, acc.2 ||| d.2)) ([], 0)
  else ((List.range n).map (fun k =>
    if l = 0 then elemVal t (raw k) else scaleBy (scale (k / l)) (elemVal t (raw k))), 0)

/-! ## Sums (R100 to R102) -/

def matFlags : W32 := flagNV ||| flagOF

def FVal.isInf : FVal → Bool
  | .inf _ => true
  | _ => false

/-- The exact sum of the four products of a group, or its NaN (R100). -/
def groupSum (ps : List FVal) : FVal × W32 :=
  if ps.any FVal.isNaN || (ps.contains (.inf true) && ps.contains (.inf false)) then (qnan, flagNV)
  else match ps.find? FVal.isInf with
    | some i => (i, 0)
    | none =>
      match ps with
      | [] => (.zero false, 0)
      | p :: rest => (rest.foldl (fun a b => (addV .rne a b).1) p, 0)

/-- d := round(d + round(p)) in FP32, subnormals kept (R100). -/
def groupStep (d : Nat × W32) (ps : List FVal) : Nat × W32 :=
  let p := groupSum ps
  let r := fmt32.rne p.1
  let a := addV .rne (fmt32.decode d.1) (fmt32.decode r.1)
  let o := fmt32.rne a.1
  (o.1, d.2 ||| ((p.2 ||| r.2 ||| a.2 ||| o.2) &&& matFlags))

/-- Members 4g to 4g + 3 of a list. -/
def fourOf {α : Type} (l : List α) (g : Nat) : List α := (l.drop (4 * g)).take 4

/-- One product: +0 where a sparse column holds no element (R100, R239). -/
def prodV (a : FVal) (b : Option FVal) : FVal :=
  match b with
  | some y => (mulV a y).1
  | none => .zero false

/-- The real dot product (R100). -/
def dotFloat (d : Nat) (a : List FVal) (b : List (Option FVal)) : Nat × W32 :=
  (List.range (a.length / 4)).foldl (fun acc g =>
    groupStep acc (((fourOf a g).zip (fourOf b g)).map (fun p => prodV p.1 p.2))) (d, 0)

/-- The integer dot product (R102). -/
def dotInt (sat : Bool) (d : Nat) (a b : List Int) : Nat × W32 :=
  let prods := (a.zip b).map (fun p => p.1 * p.2)
  if sat then
    let r := (List.range (a.length / 4)).foldl (fun (acc : Int × W32) g =>
      let v := acc.1 + (fourOf prods g).foldl (· + ·) 0
      (clampTo true 32 v, if clampTo true 32 v = v then acc.2 else flagSAT)) (sintOf 32 d, 0)
    (wrapI 32 r.1, r.2)
  else (wrapI 32 (prods.foldl (· + ·) (sintOf 32 d)), 0)

def rne32 (v : FVal × W32) : Nat × W32 :=
  let r := fmt32.rne v.1
  (r.1, (v.2 ||| r.2) &&& matFlags)

/-- One k of the complex mode (R101): the two accumulators, each with its flags. -/
def cplxStep (d : (Nat × W32) × (Nat × W32)) (ar ai br bi : FVal) : (Nat × W32) × (Nat × W32) :=
  let t1 := rne32 (mulV ar br)
  let re := rne32 (fmaV .rne ai.negate bi (fmt32.decode t1.1))
  let t2 := rne32 (mulV ar bi)
  let im := rne32 (fmaV .rne ai br (fmt32.decode t2.1))
  let x := rne32 (addV .rne (fmt32.decode d.1.1) (fmt32.decode re.1))
  let y := rne32 (addV .rne (fmt32.decode d.2.1) (fmt32.decode im.1))
  ((x.1, d.1.2 ||| t1.2 ||| re.2 ||| x.2), (y.1, d.2.2 ||| t2.2 ||| im.2 ||| y.2))

def dotCplx (re im : Nat) (a b : List FVal) : (Nat × W32) × (Nat × W32) :=
  let at' (l : List FVal) (k : Nat) : FVal := (l[k]?).getD (.zero false)
  (List.range (a.length / 2)).foldl (fun acc k =>
    cplxStep acc (at' a (2 * k)) (at' a (2 * k + 1)) (at' b (2 * k)) (at' b (2 * k + 1))) ((re, 0), (im, 0))

/-! ## Local operands -/

/-- The local-space effective address of an offset (R234). -/
def localEa (off : Nat) : W64 := BitVec.ofNat 64 (2 ^ 61 + off)

/-- A byte of local memory as the engine resolves it: the own view, then R161. -/
def State.localByte (s : State) (block : Nat) (own : Cells) (off : Nat) : Nat :=
  ((Store.get? own (localAddr block off)).getD (s.seenByte block (localAddr block off))).toNat

/-- n bytes, little-endian. -/
def leOf (rd : Nat → Nat) (off n : Nat) : Nat := (List.range n).foldl (fun a k => a + rd (off + k) * 256 ^ k) 0

/-- Element k of width w of a packed string at an offset (R84). -/
def packedElem (rd : Nat → Nat) (off w k : Nat) : Nat :=
  if w = 4 then rd (off + k / 2) / 16 ^ (k % 2) % 16 else leOf rd (off + k * (w / 8)) (w / 8)

/-- Scale byte or header number b of an array (R229). -/
def scaleAt (rd : Nat → Nat) (t : CTy) (base b : Nat) : Nat := if t == .o4 then leOf rd (base + 2 * b) 2 else rd (base + b)

/-! ## Sparse columns (R239) -/

/-- The sum of two values at one position. -/
def addAt (a b : FVal) : FVal := if a.isNaN || b.isNaN then qnan else (addV .rne a b).1

/-- The logical positions of the stored elements of a column, in order: for each live vector, its groups of four twice. -/
def sparseBases (live v : Nat) : List Nat :=
  ((List.range 16).filter (fun j => bit live j)).flatMap (fun j =>
    (List.range (v / 4)).flatMap (fun q => [j * v + 4 * q, j * v + 4 * q]))

/-- One sparse column as (position, stored element number). -/
def sparsePos (rd : Nat → Nat) (idx live v : Nat) : List (Nat × Nat) :=
  (sparseBases live v).mapIdx (fun t q => (q + rd (idx + t / 4) / 4 ^ (t % 4) % 4, t))

/-- A sparse column's values; `none` where it holds no element. -/
def sparseFloat (pos : List (Nat × Nat)) (ks : Nat) (val : Nat → Nat → FVal) : List (Option FVal) :=
  (List.range ks).map (fun k =>
    match pos.filter (fun p => p.1 == k) with
    | [] => none
    | p :: rest => some (rest.foldl (fun a q => addAt a (val k q.2)) (val k p.2)))

def sparseInt (pos : List (Nat × Nat)) (ks : Nat) (val : Nat → Int) : List Int :=
  (List.range ks).map (fun k => (pos.filter (fun p => p.1 == k)).foldl (fun a p => a + val p.2) 0)

/-! ## The products (R238 to R241) -/

/-- Kind of a product. -/
inductive Prod
  | mma | mmas | mmac | mmag
deriving DecidableEq, Repr, Inhabited

/-- The operands of a product: its kind, DST and SAT, the format word, B's offset, IDX and LIVE, and the row counts of the
groups (one group of all rows but for `mmag`). -/
structure ProdOp where
  (kind : Prod)
  (dst : Nat)
  (sat : Bool)
  (fw : FmtWord)
  (boff idx live : Nat)
  (counts : List Nat)
deriving DecidableEq, Repr, Inhabited

/-- Depth K′ of the instruction. -/
def ProdOp.depth (p : ProdOp) : Nat := if p.kind = .mmas then 2 * p.fw.depth else p.fw.depth

/-- The group of a row, if it has one (R241). -/
def rowGroup : List Nat → Nat → Option Nat
  | [], _ => none
  | c :: cs, i => if i < c then some 0 else (rowGroup cs (i - c)).map (· + 1)

/-- Column j of B_g as floats, with its O4 flag (R226, R229, R239). -/
def ProdOp.colFloat (p : ProdOp) (w : Nat) (rd : Nat → Nat) (g j : Nat) : List (Option FVal) × W32 :=
  let n := tileN w
  let kd := p.depth
  let per := if p.fw.lb = 0 then 0 else kd / p.fw.lb
  let first := j * per
  let sbase := p.fw.bsc + g * n * per * (if p.fw.bf == .o4 then 2 else 1)
  let scale (b : Nat) : Nat := scaleAt rd p.fw.bf sbase (first + b)
  let base := p.boff + g * 32 * n + 32 * j
  if p.kind = .mmas then
    (sparseFloat (sparsePos rd (p.idx + 16 * j) p.live (kd / 16)) kd (fun k t =>
      let v := elemVal p.fw.bf (packedElem rd base p.fw.width t)
      if p.fw.lb = 0 then v else scaleBy (scale (k / p.fw.lb)) v), 0)
  else
    let r := vecVals p.fw.bf p.fw.lb kd (packedElem rd base p.fw.width) scale
    (r.1.map some, r.2)

def ProdOp.colInt (p : ProdOp) (w : Nat) (rd : Nat → Nat) (g j : Nat) : List Int :=
  let base := p.boff + g * 32 * tileN w + 32 * j
  let val (t : Nat) : Int := sintOf p.fw.width (packedElem rd base p.fw.width t)
  if p.kind = .mmas then sparseInt (sparsePos rd (p.idx + 16 * j) p.live (p.depth / 16)) p.depth val
  else (List.range p.depth).map val

/-- Row i of A. -/
def ProdOp.rowFloat (p : ProdOp) (a : List W32) (rd : Nat → Nat) (i : Nat) : List FVal × W32 :=
  let per := if p.fw.la = 0 then 0 else p.depth / p.fw.la
  vecVals p.fw.af p.fw.la p.depth (fun k => tileElem a p.fw.width (i * p.depth + k))
    (fun b => scaleAt rd p.fw.af p.fw.asc (i * per + b))

def ProdOp.rowInt (p : ProdOp) (a : List W32) (i : Nat) : List Int :=
  (List.range p.depth).map (fun k => sintOf p.fw.width (tileElem a p.fw.width (i * p.depth + k)))

/-- Columns computed: complex columns for `mmac` (R240). -/
def ProdOp.cols (p : ProdOp) (w : Nat) : Nat := if p.kind = .mmac then tileN w / 2 else tileN w

/-- `mm_compute` (R238): the D words that present lanes hold, and the flags of their elements. -/
def ProdOp.compute (p : ProdOp) (w : Nat) (present : Lanes) (a d : List W32) (rd : Nat → Nat) : List (Nat × Nat) × W32 :=
  let held (l : List (Nat × Nat × W32)) : List (Nat × Nat) × W32 :=
    let k := l.filter (fun r => present.getLsbD (r.1 % w))
    (k.map (fun r => (r.1, r.2.1)), k.foldl (fun (f : W32) r => f ||| r.2.2) 0)
  let n := tileN w
  let acc (q : Nat) : Nat := ((d[q]?).getD 0).toNat
  let groups := (List.range p.counts.length).filter (fun g => (p.counts[g]?).getD 0 != 0)
  let rows := (List.range (tileM w)).filterMap (fun i => (rowGroup p.counts i).map (fun g => (i, g)))
  if p.fw.int then
    let cols := groups.map (fun g => (g, (List.range n).map (p.colInt w rd g)))
    held (rows.flatMap (fun ig =>
      let row := p.rowInt a ig.1
      ((Store.get? cols ig.2).getD []).mapIdx (fun j col => (ig.1 * n + j, dotInt p.sat (acc (ig.1 * n + j)) row col))))
  else
    let cols := groups.map (fun g => (g, (List.range (p.cols w)).map (p.colFloat w rd g)))
    held (rows.flatMap (fun ig =>
      let row := p.rowFloat a rd ig.1
      (((Store.get? cols ig.2).getD []).mapIdx (fun j col =>
        let fl := row.2 ||| col.2
        if p.kind = .mmac then
          let q := ig.1 * n + 2 * j
          let x := dotCplx (acc q) (acc (q + 1)) row.1 (col.1.map (fun v => v.getD (.zero false)))
          [(q, x.1.1, fl ||| x.1.2), (q + 1, x.2.1, fl ||| x.2.2)]
        else
          let q := ig.1 * n + j
          let x := dotFloat (acc q) row.1 col.1
          [(q, x.1, fl ||| x.2)])).flatten))

/-- Stored elements of a sparse column (R239). -/
def ProdOp.stored (p : ProdOp) : Nat := (sparseBases p.live (p.depth / 16)).length

/-- Blocks of k, of a length, that hold a live vector. -/
def liveBlocks (live v l n : Nat) : List Nat :=
  (List.range n).filter (fun b => (List.range 16).any (fun s => bit live s && b * l < (s + 1) * v && s * v < (b + 1) * l))

/-- The local ranges read: offset and length (R226, R229, R239, R241). -/
def ProdOp.ranges (p : ProdOp) (w : Nat) : List (Nat × Nat) :=
  let n := tileN w
  let nrow := p.counts.foldl (· + ·) 0
  let ra := if p.fw.la = 0 then [] else
    [(p.fw.asc, nrow * (p.depth / p.fw.la) * (if p.fw.af == .o4 then 2 else 1))]
  let groups := (List.range p.counts.length).filter (fun g => (p.counts[g]?).getD 0 != 0)
  let per := if p.fw.lb = 0 then 0 else p.depth / p.fw.lb
  let rb := groups.flatMap (fun g =>
    if p.kind = .mmas then
      (List.range n).flatMap (fun j =>
        [(p.boff + 32 * j, cdiv (p.stored * p.fw.width) 8), (p.idx + 16 * j, cdiv p.stored 4)] ++
          (if p.fw.lb = 0 then [] else
            (liveBlocks p.live (p.depth / 16) p.fw.lb per).map (fun b => (p.fw.bsc + j * per + b, 1))))
    else
      let hb := if p.fw.bf == .o4 then 2 else 1
      [(p.boff + g * 32 * n, 32 * p.cols w)] ++
        (if p.fw.lb = 0 then [] else [(p.fw.bsc + g * n * per * hb, n * per * hb)]))
  (ra ++ rb).filter (fun r => r.2 != 0)

/-- The first range with a byte beyond the local size (R234, check 6). -/
def overLocal (size : Nat) (l : List (Nat × Nat)) : Option Nat :=
  (l.find? (fun r => r.2 != 0 && size < r.1 + r.2)).map (·.1)

/-! ## Histogram, scale, quantisation (R242 to R245) -/

/-- The bin of a value (R242). -/
def binOf (v : FVal) : Nat :=
  match v with
  | .fin _ m e => if m = 0 then 0 else (min (max ((Nat.log2 m : Int) + e + 32) 1) 62).toNat
  | _ => 63

/-- A source type of `qhist` and `qcvt`: F16, BF16, F32. -/
def srcFmt (k : Nat) : FFmt :=
  match k with
  | 0 => fmt16
  | 1 => fmtB16
  | _ => fmt32

def srcWidth (k : Nat) : Nat := if k = 2 then 32 else 16

/-- Counts per bin of the elements of present lanes. -/
def Gang.binCounts (g : Gang) (k : Nat) (words : List W32) : List Nat :=
  let w := srcWidth k
  let vals := (List.range words.length).flatMap (fun q =>
    if g.present.getLsbD (q % g.measure) then
      (List.range (32 / w)).map (fun j => binOf ((srcFmt k).decode (((words[q]?).getD 0).toNat / 2 ^ (w * j) % 2 ^ w)))
    else [])
  (List.range 64).map (fun b => (vals.filter (fun x => x == b)).length)

/-- The histogram, bin b in lane b mod W of register base + b div W. -/
def Gang.histogram (g : Gang) (now base : Nat) : List Nat :=
  (List.range 64).map (fun b =>
    if g.present.getLsbD (b % g.measure) then (g.rdV now (base + b / g.measure) (b % g.measure)).toNat else 0)

/-- `emax` of a target (R243). -/
def emaxOf (fmt : Nat) : Int :=
  match fmt with
  | 0x0D => 8
  | 0x0E => 15
  | 0x01 => 0
  | _ => 2

/-- The least bin from 1 whose running sum reaches c. -/
def leastBin (h : List Nat) (c : Nat) : Nat :=
  ((List.range 62).map (· + 1)).foldl (fun (acc : Nat × Option Nat) b =>
    let n := acc.1 + (h[b]?).getD 0
    (n, if acc.2.isNone && c ≤ n then some b else acc.2)) (0, none) |>.2.getD 62

/-- `qscale` (R243). -/
def scaleCode (fmt p : Nat) (h : List Nat) : Nat :=
  let t := ((h.drop 1).take 62).foldl (· + ·) 0
  if t = 0 then 127
  else
    let c := max 1 (cdiv (t * p) 1024)
    (min (max ((leastBin h c : Int) - 32 - emaxOf fmt + 127) 0) 254).toNat

/-- The code of one element for a target but O4 (R244): DFMT 0 to 3. -/
def qcvtCode (dfmt : Nat) (v : FVal) : Nat × W32 :=
  match dfmt with
  | 3 =>
    match v with
    | .nan _ => (0, flagNV)
    | .inf n => (wrapI 8 (if n then -127 else 127), flagSAT)
    | .fin n m e =>
      let r := (roundInt .rne n m (e + 6)).1
      let c := min (max r (-127)) 127
      (wrapI 8 c, if c = r then 0 else flagSAT)
  | k =>
    let f := if k = 0 then fmtE4M3 else if k = 1 then fmtE5M2 else fmtE2M1
    match v with
    | .nan _ => (f.canonNaN, flagNV)
    | v =>
      let r := f.round .rne true v
      (r.1, r.2 &&& flagOF)

/-- |a| > |b| of clipped values. -/
def magGreater (a b : FVal) : Bool :=
  let abs (v : FVal) : FVal := match v with
    | .fin _ m e => .fin false m e
    | .inf _ => .inf false
    | x => x
  decide (0 < FVal.cmp (abs a) (abs b))

/-- A block of 32 values encoded for O4 with scale s (R245): codes, header, flags. -/
def o4Encode (vs : List FVal) (s : Nat) : List Nat × Nat × W32 :=
  let v (k : Nat) : FVal := (vs[k]?).getD (.zero false)
  let r (k : Nat) : Int := match v k with
    | .fin n m e => (roundInt .rne n m e).1
    | _ => 0
  let clipped (k : Nat) : Bool := (v k).isInf || decide (7 < (r k).natAbs)
  let pick (out : List Nat) : List Nat :=
    let best := (List.range 32).foldl (fun (b : Option Nat) k =>
      if clipped k && !out.contains k && !out.contains (k ^^^ 1) then
        match b with
        | none => some k
        | some j => if magGreater (v k) (v j) then some k else b
      else b) none
    match best with
    | some k => out ++ [k]
    | none => out
  let outs := pick (pick [])
  let code (k : Nat) : Nat × W32 :=
    let c := fmtE4M3.round .rne true (v k)
    (if k % 2 = 1 && c.1 % 16 = 8 then c.1 - 1 else c.1, c.2 &&& flagOF)
  let lo := outs.foldl min 32
  let hi := outs.foldl max 0
  let hi0 := if outs.isEmpty then 0 else (code lo).1 / 16
  let hi1 := if outs.length < 2 then 0 else (code hi).1 / 16
  let slot (k : Nat) : Nat × W32 :=
    if outs.contains k then (8, (code k).2)
    else if outs.contains (k ^^^ 1) then ((code (k ^^^ 1)).1 % 16, 0)
    else if clipped k then (if (v k).sign then 9 else 7, flagSAT)
    else (wrapI 4 (r k), 0)
  let cs := (List.range 32).map slot
  (cs.map (·.1), s * 256 + hi0 * 16 + hi1,
    cs.foldl (fun (f : W32) c => f ||| c.2) (if vs.any FVal.isNaN then flagNV else 0))

/-- Depth of a `qcvt` tile: 64 for the 4-bit targets. -/
def qcvtDepth (dfmt : Nat) : Nat := if dfmt = 2 || dfmt = 4 then 64 else 32
def qcvtWidth (dfmt : Nat) : Nat := if dfmt = 2 || dfmt = 4 then 4 else 8

/-- Source and destination registers of `qcvt` (R244). -/
def qcvtSrcRegs (w stype dfmt : Nat) : Nat := tileM w * qcvtDepth dfmt * srcWidth stype / 32 / w
def qcvtDstRegs (w dfmt : Nat) : Nat := tileM w * qcvtDepth dfmt * qcvtWidth dfmt / 32 / w

/-- The bytes of the scale or header array. -/
def qcvtBytes (w dfmt blk : Nat) : Nat :=
  if dfmt = 4 then tileM w * 2 * 2 else tileM w * qcvtDepth dfmt / (if blk = 1 then 16 else 32)

/-- The codes of one row and its headers. -/
def qcvtRow (dfmt s : Nat) (vs : List FVal) : List Nat × List Nat × W32 :=
  if dfmt = 4 then
    let a := o4Encode (vs.take 32) s
    let b := o4Encode (vs.drop 32) s
    (a.1 ++ b.1, [a.2.1, b.2.1], a.2.2 ||| b.2.2)
  else
    let cs := vs.map (qcvtCode dfmt)
    (cs.map (·.1), [], cs.foldl (fun (f : W32) c => f ||| c.2) 0)

/-- `qcvt`: destination words, local bytes, flags (R244, R245). -/
def qcvtTile (w stype dfmt blk s : Nat) (src : List W32) : List (Nat × Nat) × List Nat × W32 :=
  let k := qcvtDepth dfmt
  let sw := srcWidth stype
  let rows := (List.range (tileM w)).map (fun i =>
    qcvtRow dfmt s ((List.range k).map (fun j =>
      match (srcFmt stype).decode (tileElem src sw (i * k + j)) with
      | .fin n m e => .fin n m (e + 127 - (s : Int))
      | x => x)))
  let codes := rows.flatMap (·.1)
  let tw := qcvtWidth dfmt
  let per := 32 / tw
  let words := (List.range (codes.length / per)).map (fun q =>
    (q, ((codes.drop (q * per)).take per).foldr (fun c a => c + a * 2 ^ tw) 0))
  let headers := rows.flatMap (·.2.1)
  (words, if dfmt = 4 then headers.flatMap (fun h => [h % 256, h / 256]) else List.replicate (qcvtBytes w dfmt blk) s,
    rows.foldl (fun (f : W32) r => f ||| r.2.2) 0)

/-! ## Issue (R233, R234) -/

/-- What the checks of an instruction come to: a fault, or the operands read at issue and the local ranges to be read. -/
inductive Prep
  | bad (code : Code) (tval : W64)
  | go (m : MatOp) (ranges : List (Nat × Nat))
deriving DecidableEq, Repr, Inhabited

/-- The matrix unit that serves a gang: the queue of the core that schedules it, by partition. -/
def State.queueMatrix (s : State) (g : Gang) (op : Nat) : State :=
  s.updCore (s.schedAt g).1 (fun k => { k with mq := k.mq ++ [((s.schedAt g).2, g.uid, op)] })

/-- Check 1 of R234: the measure equals the launch measure, and `em` is all ones over the present lanes. -/
def Ctx.wholeGang (c : Ctx) : Bool :=
  c.gang.measureOf c.grp.slices == c.gang.measure && (c.gang.present &&& ~~~ c.gang.em) == 0

/-- A matrix instruction issues (R233, R234): checks, operands, the own view of its local bytes, and the queue. -/
def matIssue (prep : Ctx → State → Prep) (s : State) : State :=
  issue (fun c s =>
    if !c.wholeGang then .trap s .illegalConvergence c.pc
    else match prep c s with
      | .bad code tval => .trap s code tval
      | .go m ranges =>
        let own := ranges.flatMap (fun r => c.gang.ownView (localAddr c.gang.block r.1) r.2)
        let own := own.foldl (fun (l : Cells) e => Store.put l e.1 e.2) []
        let id := s.nextOp
        let s := s.addOp c.uid (fun id => { Op.make id (.matrix { m with own := own }) (some .mx) c.run.header.fb c.pc with
          due := s.dueAt c.gang s.flash.latMatrix })
        .ok (s.queueMatrix c.gang id)) s

def MatOp.make (i : Instr) : MatOp := { ins := i, src := [], b := 0, c := 0, e := 0, own := [], table := [], landBytes := [] }

def Gang.localSize (s : State) (g : Gang) : Nat := ((g.grid? s).map (fun x => x.desc.localSize)).getD 0

/-- An offset with a bit above 18 set (R234, check 4). -/
def badOffset (off : Nat) : Bool := 2 ^ 19 ≤ off

/-- The count table of `mmag`, resolved now as a load would be: G and the counts that it names (R233, R241). -/
def Ctx.countTable (c : Ctx) (s : State) (off : Nat) : Nat × List Nat :=
  let rd (k : Nat) : Nat :=
    ((c.gang.ownByte? (localAddr c.gang.block k)).getD (s.seenByte c.gang.block (localAddr c.gang.block k))).toNat
  let g := rd off
  (g, (List.range (min g 8)).map (fun k => rd (off + 1 + k)))

/-- The checks and issue operands of a product (R234). -/
def Ctx.prepProd (c : Ctx) (s : State) (i : Instr) (kind : Prod) (f : FmtMX) : Prep :=
  let g := c.gang
  let w := g.measure
  let ill : Prep := .bad .illegalInstruction c.pc
  match decFmtWord (s.feature 4) (g.scalar64 s.now f.c) with
  | none => ill
  | some fw =>
    let e64 := if kind = .mmas then g.scalar64 s.now f.e else 0
    let half (t : CTy) : Bool := t == .f16 || t == .bf16
    if (f.sat && !fw.int) || (kind = .mmac && !(half fw.af && half fw.bf)) ||
        (kind = .mmas && (e64.toNat / 2 ^ 35 != 0 || fw.width == 16 || fw.bf == .o4)) then ill
    else
      let boff := g.scalar32 s.now f.b
      let toff := if kind = .mmag then g.scalar32 s.now f.e else 0
      let idx := bits e64.toNat 34 16
      if badOffset boff then .bad .spaceInvalid (localEa boff)
      else if badOffset toff then .bad .spaceInvalid (localEa toff)
      else if boff % 32 != 0 then .bad .misaligned (localEa boff)
      else if idx % 16 != 0 then .bad .misaligned (localEa idx)
      else if fw.af == .o4 && fw.asc % 2 == 1 then .bad .misaligned (localEa fw.asc)
      else if fw.bf == .o4 && fw.bsc % 2 == 1 then .bad .misaligned (localEa fw.bsc)
      else
        let size := g.localSize s
        let tab := c.countTable s toff
        let counts := if kind = .mmag then tab.2 else [tileM w]
        let p : ProdOp := ⟨kind, regNum f.dst, f.sat, fw, boff, idx, bits e64.toNat 15 0, counts⟩
        let tabR := if kind = .mmag then [(toff, 1)] else []
        let cntR := if kind = .mmag then [(toff + 1, min tab.1 8)] else []
        match overLocal size (tabR ++ cntR ++ p.ranges w) with
        | some off => .bad .accessDenied (localEa off)
        | none =>
          if 8 < tab.1 && kind = .mmag || tileM w < counts.foldl (· + ·) 0 then .bad .raggedOverrun c.pc
          else .go { MatOp.make i with
              src := g.tileWords s.now (regNum f.a) (aRegs w (kind = .mmas)), b := BitVec.ofNat 64 boff
              c := g.scalar64 s.now f.c, e := e64, table := counts } (p.ranges w)

/-- MMA (R238). -/
def execMma (f : FmtMX) (s : State) : Host.Outcome State Fault Refusal :=
  .next (matIssue (fun c s => c.prepProd s (.mma f) .mma f) s)

/-- MMAS (R239). -/
def execMmas (f : FmtMX) (s : State) : Host.Outcome State Fault Refusal :=
  .next (matIssue (fun c s => c.prepProd s (.mmas f) .mmas f) s)

/-- MMAC (R240). -/
def execMmac (f : FmtMX) (s : State) : Host.Outcome State Fault Refusal :=
  .next (matIssue (fun c s => c.prepProd s (.mmac f) .mmac f) s)

/-- MMAG (R241). -/
def execMmag (f : FmtMX) (s : State) : Host.Outcome State Fault Refusal :=
  .next (matIssue (fun c s => c.prepProd s (.mmag f) .mmag f) s)

/-- QHIST (R242): the source is counted at issue. -/
def execQhist (f : FmtQ) (s : State) : Host.Outcome State Fault Refusal :=
  .next (matIssue (fun c s =>
    let n := c.gang.scalar32 s.now f.b
    if 32 < n then .bad .illegalInstruction c.pc
    else if c.gang.allot < regNum f.a + n then .bad .regRange c.pc
    else .go { MatOp.make (.qhist f) with
      table := c.gang.binCounts f.sel.toNat (c.gang.tileWords s.now (regNum f.a) n) } []) s)

/-- QSCALE (R243). -/
def execQscale (f : FmtQ) (s : State) : Host.Outcome State Fault Refusal :=
  .next (matIssue (fun c s =>
    let p := c.gang.scalar32 s.now f.b
    if 1024 < p || (f.sel == 0x11 && !s.feature 4) then .bad .illegalInstruction c.pc
    else .go { MatOp.make (.qscale f) with b := BitVec.ofNat 64 p } []) s)

/-- STYPE, DFMT and BLK of `qcvt`. -/
def qcvtSel (f : FmtQ) : Nat × Nat × Nat := (f.sel.toNat / 16, f.sel.toNat / 2 % 8, f.sel.toNat % 2)

/-- QCVT (R244, R245). -/
def execQcvt (f : FmtQ) (s : State) : Host.Outcome State Fault Refusal :=
  .next (matIssue (fun c s =>
    let k := qcvtSel f
    let w := c.gang.measure
    let sc := c.gang.scalar32 s.now f.b % 256
    let off := c.gang.scalar32 s.now f.c
    if sc = 0xFF || (k.2.1 = 4 && !s.feature 4) then .bad .illegalInstruction c.pc
    else if badOffset off then .bad .spaceInvalid (localEa off)
    else if k.2.1 = 4 && off % 2 = 1 then .bad .misaligned (localEa off)
    else if c.gang.localSize s < off + qcvtBytes w k.2.1 k.2.2 then .bad .accessDenied (localEa off)
    else .go { MatOp.make (.qcvt f) with
      src := c.gang.tileWords s.now (regNum f.a) (qcvtSrcRegs w k.1 k.2.1)
      b := BitVec.ofNat 64 sc, c := BitVec.ofNat 64 off } []) s)

/-- QCLR (R242). -/
def execQclr (f : FmtQ) (s : State) : Host.Outcome State Fault Refusal :=
  .next (matIssue (fun _ _ => .go (MatOp.make (.qclr f)) []) s)

/-! ## Start (R233, R246) -/

/-- The operands of a product that was handed over. -/
def MatOp.prod (m : MatOp) (kind : Prod) (f : FmtMX) : Option ProdOp :=
  (decFmtWord true m.c).map (fun fw =>
    ⟨kind, regNum f.dst, f.sat, fw, m.b.toNat, bits m.e.toNat 34 16, bits m.e.toNat 15 0, m.table⟩)

/-- The local ranges that a matrix instruction reads at its start. -/
def MatOp.ranges (m : MatOp) (w : Nat) : List (Nat × Nat) :=
  let p := match m.ins with
    | .mma f => m.prod .mma f
    | .mmas f => m.prod .mmas f
    | .mmac f => m.prod .mmac f
    | .mmag f => m.prod .mmag f
    | _ => none
  (p.map (fun p => p.ranges w)).getD []

/-- The first local byte of the operands in which an uncorrectable error stands (R237). -/
def State.matBad (s : State) (g : Gang) (m : MatOp) : Option Nat :=
  ((m.ranges g.measure).flatMap (fun r => (List.range r.2).map (r.1 + ·))).find? (fun off =>
    let a := localAddr g.block off
    if (Store.get? m.own a).isSome then s.bad.contains (.line 0 g.uid (lineOf a)) else s.badSeen g.block a)

/-- The result of a product at its start: local bytes and D are read now. -/
def State.startProd (s : State) (g : Gang) (m : MatOp) (kind : Prod) (f : FmtMX) : List RegWrite × W32 × Cells :=
  match m.prod kind f with
  | none => ([], 0, [])
  | some p =>
    let r := p.compute g.measure g.present m.src (g.tileWords s.now p.dst 8) (s.localByte g.block m.own)
    (g.tileWrites p.dst r.1, r.2, [])

/-- The result of a matrix instruction: register writes, flags, local bytes to be entered. -/
def State.startMat (s : State) (g : Gang) (m : MatOp) : List RegWrite × W32 × Cells :=
  match m.ins with
  | .mma f => s.startProd g m .mma f
  | .mmas f => s.startProd g m .mmas f
  | .mmac f => s.startProd g m .mmac f
  | .mmag f => s.startProd g m .mmag f
  | .qhist f =>
    let h := g.histogram s.now (regNum f.dst)
    let sums := (h.zip m.table).map (fun p => p.1 + p.2)
    (g.tileWrites (regNum f.dst) (sums.mapIdx (fun b x => (b, min x (2 ^ 32 - 1)))),
      if sums.any (fun x => decide (2 ^ 32 ≤ x)) then flagSAT else 0, [])
  | .qclr f => (g.tileWrites (regNum f.dst) ((List.range 64).map (fun b => (b, 0))), 0, [])
  | .qscale f =>
    ([.s (regNum f.dst) (BitVec.ofNat 32 (scaleCode f.sel.toNat m.b.toNat (g.histogram s.now (regNum f.a))))], 0, [])
  | .qcvt f =>
    let k := qcvtSel f
    let r := qcvtTile g.measure k.1 k.2.1 k.2.2 m.b.toNat m.src
    (g.tileWrites (regNum f.dst) r.1, r.2.2,
      r.2.1.mapIdx (fun j x => (localAddr g.block (m.c.toNat + j), BitVec.ofNat 8 x)))
  | _ => ([], 0, [])

/-- Is an entry's work done, but not landed? -/
def State.entryDone (s : State) (e : Nat × Nat × Nat) : Bool :=
  (((s.gang? e.2.1).bind (fun g => g.op? e.2.2)).map (fun o => o.done)).getD true

/-- The entry of a partition's queue that may start: the head, unless its work is done. -/
def State.startEntry (s : State) (core part : Nat) : Option (Nat × Nat × Nat) :=
  let q := ((s.core? core).map (fun k => k.mq.filter (fun e => e.1 == part))).getD []
  q.head?.filter (fun e => !s.entryDone e)

/-- An entry of a partition's queue starts: its result is computed (R233, R246); with an uncorrectable local byte it writes no
destination and latches the error (R237). -/
def State.startHead (s : State) (core part : Nat) : State :=
  match s.startEntry core part with
  | none => s
  | some e =>
    match s.gang? e.2.1 with
    | none => s
    | some g =>
      match g.op? e.2.2 with
      | none => s
      | some o =>
        match o.kind with
        | .matrix m =>
          if !s.duePassed g o.due then s
          else match s.matBad g m with
          | some off => s.setGang (g.setOp ({ o with done := true }.fail .uncorrectable (localEa off)))
          | none =>
            let r := s.startMat g m
            s.setGang (g.setOp { o with done := true, writes := r.1, sticky := r.2.1
                                        kind := .matrix { m with landBytes := r.2.2 } })
        | _ => s

/-- MSTART (R246): the head of a partition's queue starts, its every earlier instruction having landed; in a deterministic
launch at its due clock (R195). -/
def execMstart (core part : Nat) (s : State) : Host.Outcome State Fault Refusal := .next (s.startHead core part)

/-- The bytes of a `qcvt` enter G(g) at its landing, unless they would pass its capacity (R159, R233). -/
def Gang.enterLandBytes (g : Gang) (o : Op) (bytes : Cells) : Gang :=
  let have0 := linesOf g.galley.bytes
  let r := bytes.foldl (fun (acc : List Nat × Option Nat) e =>
    if acc.1.contains (lineOf e.1) then acc
    else if acc.1.length < gangLines then (acc.1 ++ [lineOf e.1], acc.2)
    else (acc.1, if acc.2.isSome then acc.2 else some e.1)) (have0, none)
  match r.2 with
  | none => { g with galley := { g.galley with bytes := Store.merge g.galley.bytes bytes } }
  | some a => { g with errs := g.errs ++ [{ ctr := some .mx, flag := o.flag, code := .accessDenied
                                            tval := localEa ((a - localBase) % 2 ^ 19) }] }

end Sys2Proof.Machine
end

