-- ==== Sys2Proof/Machine/Signal.lean ====
section
/-!
DEFINITION. Signals and notices (R256, R267, R284): the pending vector, the lane wake masks, and the one operation that reads
and writes a signal at its home.
-/
namespace Sys2Proof.Machine

/-- Set a queue's pending bit (R271). -/
def State.setPending (s : State) (q : Nat) : State :=
  if s.pending.contains q then s else { s with pending := q :: s.pending }

/-- Set the wake bit of the lane that owns a slot (R283). -/
def State.wakeLane (s : State) (slot : Nat) : State :=
  if slot < 32 then { s with wake0 := s.wake0 ||| (1 : W32) <<< slot }
  else { s with wake1 := s.wake1 ||| (1 : W32) <<< (slot - 32) }

/-- A queue whose lane is to look at it: its lane's wake bit while mapped and armed, else its pending bit (R271, R284). -/
def State.wakeQueue (s : State) (q : Queue) : State :=
  match q.slot with
  | some k => if q.armed then s.wakeLane k else s.setPending q.qnum
  | none => s.setPending q.qnum

/-! ## Trace sinks -/

/-- The 32 bytes of a trace record (R298). -/
def TraceRec.toBytes (t : TraceRec) : List Byte :=
  let le (n x : Nat) : List Byte := (List.range n).map (fun k => BitVec.ofNat 8 (x / 256 ^ k))
  le 8 t.pc.toNat ++ le 8 t.clock.toNat ++ le 4 t.lanes.toNat ++ le 4 t.val.toNat ++ le 4 t.block.toNat ++
    [t.gang, t.kind, t.info, 0]

/-- Records a sink holds (R299). -/
def DbgDomain.slots (d : DbgDomain) : Nat := (d.sinkSize - 64) / 32

/-- The LOST record (R298). -/
def lostRecord (dom n clock : Nat) : TraceRec :=
  { dom := dom, pc := 0, clock := BitVec.ofNat 64 clock, lanes := 0, val := BitVec.ofNat 32 n, block := 0, gang := 0
    kind := 7, info := 0 }

/-- Records that go to the sink: those with room, and how many find none; a LOST record comes first when room returns. -/
def fitRecords (dom room lost clock : Nat) (l : List TraceRec) : List TraceRec × Nat :=
  if lost = 0 then (l.take room, (l.drop room).length)
  else if room = 0 then ([], lost + l.length)
  else (lostRecord dom lost clock :: l.take (room - 1), (l.drop (room - 1)).length)

/-- Firmware debug: one COMPOSITOR record for a transition of R285, by its number in that table (R303). A full sink drops the
record, and a LOST record tells of it when room returns (R299). -/
def State.compRec (s : State) (num idx qnum lane : Nat) : State :=
  match s.dbgDomains.find? (fun d => d.firmware) with
  | none => s
  | some d =>
    let base := fwBase + d.sink.toNat
    let clock := ((s.core? 256).map (fun c => c.clock)).getD 0
    let t : TraceRec :=
      { dom := 0, pc := BitVec.ofNat 64 idx, clock := BitVec.ofNat 64 clock, lanes := 0, val := 0, block := BitVec.ofNat 32 qnum
        gang := BitVec.ofNat 8 lane, kind := 9, info := BitVec.ofNat 8 num }
    let r := fitRecords 0 (d.slots - (d.prod - s.readLE (base + 8) 8)) d.lost clock [t]
    let s := (r.1.mapIdx (fun k t => (k, t))).foldl (fun (s : State) e =>
      s.writeBytes (((List.range 32).map (base + 64 + 32 * ((d.prod + e.1) % d.slots) + ·)).zip e.2.toBytes)) s
    let s := s.writeBytes (cellsOf base 8 (d.prod + r.1.length))
    let s := if r.2 = 0 then s else s.writeBytes (cellsOf (base + 16) 8 (s.readLE (base + 16) 8 ||| 2))
    { s with dbgDomains := s.dbgDomains.map (fun x =>
        if x.firmware then { x with prod := d.prod + r.1.length, lost := r.2 } else x) }

/-- NOTICE for a signal address (R284): every watch that holds it. -/
def State.notice (s : State) (a : Nat) : State :=
  let s := s.compRec 1 0 0 0
  s.queues.foldl (fun s q =>
    if (q.slot.isSome && q.watches.contains a) || s.watchTable.contains (q.qnum, a) then s.wakeQueue q else s) s

/-- A signal's line as its home holds it: of a line of host memory the device cache first writes back its dirty bytes (log 46). -/
def State.signalHome (s : State) (a : Nat) : State :=
  match homeOf a with
  | .host => s.writeBack (fun x => lineOf x == lineOf a)
  | _ => s

/-- Bytes written at their home itself: in host memory past the device cache (R219, R341). -/
def State.atHome (s : State) (l : List (Nat × Byte)) : State :=
  ((l.filter (fun e => homeOf e.1 == .host)).foldl (fun (s : State) e => s.hostWrite e.1 e.2) s).homeWrites
    (l.filter (fun e => homeOf e.1 != .host)) none

/-- ADD 0, STORE 1, READ 2 on the 64-bit word at an address, at its home, in one transition (R219, R256): the old value. A
signal in host memory is reached there by a PCIe AtomicOp or read. -/
def State.signalOp (s0 : State) (a op : Nat) (x : W64) : W64 × State :=
  let s := s0.signalHome a
  let old : W64 := BitVec.ofNat 64 (bytesVal ((List.range 8).map (fun k => Memory.read s.mem (a + k))))
  if op = 2 then (old, s)
  else
    let new := if op = 0 then old + x else x
    (old, (s.atHome (cellsOf a 8 new.toNat)).notice a)

end Sys2Proof.Machine
end

