-- ==== Sys2Proof/Machine/Request.lean ====
section
/-!
DEFINITION. The request engine (R248 to R260): the checks at issue, the units of each request, barrier counts, signals, lists
of request blocks and the kick register.
-/
namespace Sys2Proof.Machine

/-! ## Requests

KIND: 0 copy, 1 fill, 2 gather, 3 scatter, 4 puts, 5 red, 6 a list block that has not been fetched, 7 swap. -/

def ReqOp.make (kind sel : Nat) : ReqOp :=
  { kind := kind, sel := sel, dst := 0, src := 0, count := 0, idx := 0, sig := none, bar := none, block := none
    fetched := true, own := none, held := none, moved := [], flying := [], signalled := false, reason := 0 }

/-- Element size: of gathers and scatters by SIZE, of `rqred` by ET, else 4 (R252). -/
def ReqOp.elem (r : ReqOp) : Nat :=
  if r.kind = 2 || r.kind = 3 then 4 * 2 ^ r.sel else if r.kind = 5 && 3 ≤ r.sel % 8 then 2 else 4

def ReqOp.indexed (r : ReqOp) : Bool := r.kind == 2 || r.kind == 3

def pageSize (sel : Nat) : Nat := if sel = 0 then 4096 else 2 ^ 21

/-- Bytes that the request moves. -/
def ReqOp.bytes (r : ReqOp) : Nat :=
  if r.kind = 7 then pageSize r.sel else if r.indexed then r.count * r.elem else r.count

/-- Units: destination lines; the elements of a scatter; the line pairs of a swap (R253). -/
def ReqOp.units (r : ReqOp) : Nat :=
  if r.kind = 7 then pageSize r.sel / 128
  else if r.kind = 3 then r.count
  else if r.bytes = 0 then 0
  else (r.dst.toNat % 128 + r.bytes + 127) / 128

/-- First byte and length of a unit by destination line, counted from the destination's start. -/
def ReqOp.span (r : ReqOp) (u : Nat) : Nat × Nat :=
  let lo := if u = 0 then 0 else 128 * u - r.dst.toNat % 128
  (lo, min r.bytes (128 * (u + 1) - r.dst.toNat % 128) - lo)

/-- Bytes of a unit, as they count on a barrier (R255). -/
def ReqOp.unitBytes (r : ReqOp) (u : Nat) : Nat :=
  if r.kind = 7 then 256 else if r.kind = 3 then r.elem else (r.span u).2

/-- The counter of a request (R250); every block of a list counts on `req` (R258). -/
def ReqOp.ctr (r : ReqOp) : Ctr :=
  if r.block.isSome then .req else if r.indexed then .gx else if r.kind = 5 then .coll else .req

def Op.isRequest (o : Op) : Bool :=
  match o.kind with
  | .request _ => true
  | _ => false

/-! ## Checks at issue (R251, R252) -/

/-- Spaces 0x00 to 0x02, 0x30, and the local ones where a form takes them. -/
def reqSpace (loc : Bool) (ea : W64) : Bool :=
  let sp := spaceOf ea
  sp ≤ 2 || sp == 0x30 || (loc && (sp == 0x10 || sp == 0x11))

/-- R153 and checks 1, 3 and 4 of R155 of one address, with the length of its local range; rights come with the translation. -/
def State.checkReqEa (s : State) (p : Party) (spaces : Bool) (ea : W64) (w n : Nat) : Option (Code × W64) :=
  if !spaces then some (.spaceInvalid, ea)
  else match s.checkEa { p with det := false } .plain ea w n 0 with
    | .error b => if b.rank < 5 then some (b.code, ea) else none
    | .ok _ => none

/-- A frame of `rqswap`: a physical address of installed DRAM, aligned to the page (R252). -/
def checkFrame (sel : Nat) (a : W64) : Option (Code × W64) :=
  if 2 ^ 56 ≤ a.toNat then some (.spaceInvalid, a)
  else if a.toNat % pageSize sel != 0 then some (.misaligned, a)
  else if dramBytes < a.toNat + pageSize sel then some (.accessDenied, a)
  else none

/-- The limit of a count and its multiple (R252). -/
def ReqOp.countOk (r : ReqOp) : Bool :=
  if r.indexed then r.count ≤ 2 ^ 20 else r.count ≤ 2 ^ 32 - 4 && r.count % r.elem == 0

/-- The addresses of a request in the order D, A, index array, signal: accepted space, address, width, local length. -/
def ReqOp.addrs (r : ReqOp) : List (Bool × W64 × Nat × Nat) :=
  let dev := r.kind == 4 || r.kind == 5
  let one (loc : Bool) (ea : W64) (w n : Nat) : Bool × W64 × Nat × Nat := (reqSpace loc ea, ea, w, n)
  [one (!dev) r.dst r.elem (if r.kind = 3 then 0 else r.bytes)] ++
    (if r.kind = 1 then [] else [one true r.src r.elem (if r.kind = 2 then 0 else r.bytes)]) ++
    (if r.indexed then [(true, localEa r.idx, 4, 4 * r.count)] else []) ++
    (match r.sig with
     | some g => [one false g.1 8 8]
     | none => [])

/-- The checks of R251 and R252; a missing `%tval` stands for the instruction's word. -/
def State.checkReq (s : State) (p : Party) (r : ReqOp) : Option (Code × Option W64) :=
  if r.kind = 7 then
    match checkFrame r.sel r.dst with
    | some e => some (e.1, some e.2)
    | none => (checkFrame r.sel r.src).map (fun e => (e.1, some e.2))
  else if !r.countOk then some (.illegalInstruction, none)
  else match r.addrs.findSome? (fun a => s.checkReqEa p a.1 a.2.1 a.2.2.1 a.2.2.2) with
    | some e => some (e.1, some e.2)
    | none =>
      if p.det && !p.fabx && r.addrs.any (fun a => s.remoteEa a.2.1) then some (.detViolation, none) else none

/-! ## Issue -/

/-- The due clock of a request: its kind's latency and its bytes (R60); none for one that reaches another device (R61). -/
def State.reqDue (s : State) (g : Gang) (r : ReqOp) : Option Nat :=
  if r.kind != 7 && r.addrs.any (fun a => s.remoteEa a.2.1) then none
  else s.dueAt g (s.flash.latRequest + cdiv r.bytes 64)

/-- A request joins the engine's queue (R251, step 4). -/
def State.queueReq (s : State) (c : Ctx) (r : ReqOp) (due : Option Nat) : State :=
  let id := s.nextOp
  let s := s.addOp c.uid (fun id => { Op.make id (.request r) (some r.ctr) c.run.header.fa c.pc with
    done := r.units == 0 && r.sig.isNone && r.fetched, due := due })
  s.updCore (s.schedAt c.gang).1 (fun k => { k with rq := k.rq ++ [(c.uid, id)] })

/-- A disabled barrier is no barrier to count on (R185). -/
def Ctx.badBar (c : Ctx) (s : State) (bar : Option Nat) : Bool :=
  match bar with
  | some n => (c.bar? s n).isNone
  | none => false

/-- A request instruction of a register form issues (R251). -/
def reqIssue (rel : Bool) (mk : Ctx → State → ReqOp) (s : State) : State :=
  issue (fun c s =>
    let r := mk c s
    match s.checkReq (c.gang.party s) r with
    | some (code, tval) => .trap s code (tval.getD c.pc)
    | none =>
      if c.badBar s r.bar then .trap s .barrierMisuse c.pc
      else if r.kind != 7 && s.heldRemote (r.addrs.map (fun a => a.2.1)) then .stay
      else
        let id := s.nextOp
        let due := if rel then behindDue (s.releaseDue c.gang) (s.reqDue c.gang r) else s.reqDue c.gang r
        let s := s.queueReq c { r with held := if rel then some id else none } due
        .ok (if rel then s.releaseFor c id else s)) s

def FmtRQ.barOf (f : FmtRQ) : Option Nat := if f.bv then some f.bar.toNat else none

/-- The signal operand sq to sq + 3 (R250). -/
def Ctx.sigOf (c : Ctx) (now : Nat) (o : Opd) : Option (W64 × W64) :=
  match o with
  | .s n => some (c.gang.rdS64 now n.toNat, c.gang.rdS64 now (n.toNat + 2))
  | _ => none

/-- The operands that the register forms share. -/
def Ctx.reqBase (c : Ctx) (now : Nat) (kind : Nat) (f : FmtRQ) : ReqOp :=
  { ReqOp.make kind f.sel.toNat with
    dst := c.gang.scalar64 now f.dst, src := c.gang.scalar64 now f.a, count := c.gang.scalar32 now f.b
    bar := FmtRQ.barOf f }

/-- RQCOPY (R253). -/
def execRqcopy (f : FmtRQ) (s : State) : Host.Outcome State Fault Refusal :=
  .next (reqIssue f.rel (fun c s => c.reqBase s.now 0 f) s)

/-- RQFILL (R253): A is a 32-bit pattern. -/
def execRqfill (f : FmtRQ) (s : State) : Host.Outcome State Fault Refusal :=
  .next (reqIssue f.rel (fun c s =>
    { c.reqBase s.now 1 f with src := BitVec.ofNat 64 (c.gang.scalar32 s.now f.a) }) s)

/-- RQGATHER (R253). -/
def execRqgather (f : FmtRQ) (s : State) : Host.Outcome State Fault Refusal :=
  .next (reqIssue f.rel (fun c s => { c.reqBase s.now 2 f with idx := c.gang.scalar32 s.now f.c }) s)

/-- RQSCATTER (R253). -/
def execRqscatter (f : FmtRQ) (s : State) : Host.Outcome State Fault Refusal :=
  .next (reqIssue f.rel (fun c s => { c.reqBase s.now 3 f with idx := c.gang.scalar32 s.now f.c }) s)

/-- RQPUTS (R253, R256). -/
def execRqputs (f : FmtRQ) (s : State) : Host.Outcome State Fault Refusal :=
  .next (reqIssue f.rel (fun c s => { c.reqBase s.now 4 f with sig := c.sigOf s.now f.c }) s)

/-- RQRED (R253). -/
def execRqred (f : FmtRQ) (s : State) : Host.Outcome State Fault Refusal :=
  .next (reqIssue f.rel (fun c s => { c.reqBase s.now 5 f with sig := c.sigOf s.now f.c }) s)

/-- RQSWAP (R253). -/
def execRqswap (f : FmtRQ) (s : State) : Host.Outcome State Fault Refusal :=
  .next (reqIssue false (fun c s => c.reqBase s.now 7 f) s)

/-- The kick register's value (R259). -/
def kickValue (off n slot : Nat) : W64 := BitVec.ofNat 64 ((n - 1) * 2 ^ 40 + slot % 256 * 2 ^ 32 + off % 2 ^ 19)

/-- Gang slot: partition × 16 + the lowest slot the gang holds (R259). -/
def Gang.slotIndex (g : Gang) : Nat :=
  match g.place with
  | .press part slot => part * 16 + slot
  | .guest _ gslot part => part * 16 + gslot
  | _ => 0

/-- RQLIST writes the kick register; of two in one clock of the core the one of the higher port writes last (R259). -/
def State.writeKick (s : State) (c : Ctx) (x : W64) : State :=
  s.updCore c.gang.coreKey (fun k =>
    let mark := (k.clock + 1, 2 * (s.schedAt c.gang).2 + c.run.port.getD 0)
    if k.kickMark.1 = mark.1 && mark.2 < k.kickMark.2 then k else { k with kick := x, kickMark := mark })

/-- RQLIST (R258, R259): one operation for each block. The count is read again at the issue: where a sibling group has raised it since
the clause started, the queue may pass its 64 places and the counter its range (log 15). -/
def execRqlist (f : FmtRQ) (s : State) : Host.Outcome State Fault Refusal :=
  .next (issue (fun c s =>
    let off := c.gang.scalar32 s.now f.a
    let n := c.gang.scalar32 s.now f.b
    if n = 0 || 64 < n then .trap s .illegalInstruction c.pc
    else match s.checkReqEa (c.gang.party s) true (localEa off) 64 (64 * n) with
      | some (code, tval) => .trap s code tval
      | none =>
        let id := s.nextOp
        let own := s.dueAt c.gang s.flash.latRequest
        let due := if f.rel then behindDue (s.releaseDue c.gang) own else own
        let s := (List.range n).foldl (fun s k =>
          s.queueReq c { ReqOp.make 6 0 with block := some (off + 64 * k), fetched := false, own := own
                                             held := if f.rel then some id else none } due) s
        let s := s.writeKick c (kickValue off n c.gang.slotIndex)
        .ok (if f.rel then s.releaseFor c id else s)) s)

/-! ## The end of a request -/

/-- A request ends with an error: reason 7 is DET_VIOLATION, the others REQUEST_FAULT (R258). It waits for no page any more. -/
def State.endRequest (s : State) (uid id reason : Nat) : State :=
  (s.dropWaiter (.engine (((s.gang? uid).map Gang.coreKey).getD 0) id)).updGang uid (fun g => match g.op? id with
    | some o => match o.kind with
      | .request r =>
        g.setOp { o with
          done := true, kind := .request { r with reason := reason }
          err := some { ctr := o.ctr, flag := o.flag, code := if reason = 7 then .detViolation else .requestFault
                        tval := match r.block with
                          | some off => localEa off
                          | none => o.pc } }
      | _ => g
    | none => g)

/-- Change a request; it is done once every unit has been written and its signal performed (R255). -/
def State.updReq (s : State) (uid id : Nat) (f : ReqOp → ReqOp) : State :=
  s.updGang uid (fun g => match g.op? id with
    | some o => match o.kind with
      | .request r =>
        let r := f r
        g.setOp { o with kind := .request r
                         done := o.done || (r.moved.length == r.units && (r.sig.isNone || r.signalled)) }
      | _ => g
    | none => g)

/-- COUNT (R184, R255): bytes delivered come off the barrier's expected-byte count. -/
def State.countDown (s : State) (block : Nat) (bar : Option Nat) (n : Nat) : State :=
  match bar, s.block? block with
  | some k, some blk => match s.bar? blk k with
    | some b => s.setBar blk { b with bytes := b.bytes - n }
    | none => s
  | _, _ => s

/-- Would the count pass its limit (R184)? -/
def State.countOver (s : State) (block : Nat) (bar : Option Nat) (n : Nat) : Bool :=
  match bar, s.block? block with
  | some k, some blk => match s.bar? blk k with
    | some b => decide (b.bytes - n < -byteLimit)
    | none => false
  | _, _ => false

/-! ## Units (R253, R255) -/

/-- Where a piece's bytes come from. -/
inductive Src
  | mem (ea : W64)
  | lit (l : List Byte)
deriving DecidableEq, Repr, Inhabited

/-- A piece of a unit: destination, source, length. -/
structure Piece where
  (dst : W64)
  (src : Src)
  (n : Nat)
deriving DecidableEq, Repr, Inhabited

/-- Rank of an index that leaves its space or the local size: reason 3 (R253). -/
def badIndex : Nat := 7

/-- The address of element i of an indexed side: it stays in its space and within the local size (R253). -/
def State.indexEa (s : State) (p : Party) (base : W64) (i e : Nat) : Eng W64 :=
  let ea := base + BitVec.ofNat 64 (i * e)
  let keep := match spaceOf base with
    | 0x30 => 48
    | 0x10 | 0x11 => 19
    | _ => 56
  if base.toNat % 2 ^ keep + i * e + e > 2 ^ keep then .bad badIndex
  else match s.checkEa { p with det := false } .plain ea e e 0 with
    | .error b => if b.rank < 5 then .bad badIndex else .ok ea
    | .ok _ => .ok ea

/-- Index word j (R253). -/
def State.indexAt (s : State) (p : Party) (block : Nat) (r : ReqOp) (j : Nat) : Eng Nat :=
  (s.engineRead p (some block) (localEa (r.idx + 4 * j)) 4).bind (fun l => .ok (bytesVal l))

/-- The pieces of a unit. -/
def State.pieces (s : State) (p : Party) (block : Nat) (r : ReqOp) (u : Nat) : Eng (List Piece) :=
  let e := r.elem
  let at' (base : W64) (k : Nat) : W64 := base + BitVec.ofNat 64 k
  if r.kind = 3 then
    (s.indexAt p block r u).bind (fun i => (s.indexEa p r.dst i e).bind (fun ea =>
      .ok [⟨ea, .mem (at' r.src (u * e)), e⟩]))
  else
    let sp := r.span u
    if r.kind = 2 then
      engMap (fun j => (s.indexAt p block r j).bind (fun i => (s.indexEa p r.src i e).bind (fun ea =>
        .ok (Piece.mk (at' r.dst (j * e)) (.mem ea) e)))) ((List.range (sp.2 / e)).map (· + sp.1 / e))
    else if r.kind = 1 then
      .ok [⟨at' r.dst sp.1, .lit ((List.range sp.2).map (fun k =>
        BitVec.ofNat 8 (r.src.toNat / 256 ^ ((sp.1 + k) % 4)))), sp.2⟩]
    else .ok [⟨at' r.dst sp.1, .mem (at' r.src sp.1), sp.2⟩]

/-- The bytes of a unit with their unified addresses. -/
def State.unitCells (s : State) (p : Party) (block : Option Nat) (l : List Piece) : Eng (List (Nat × Byte)) :=
  (engMap (fun (q : Piece) => (s.engineDest p q.dst q.n).bind (fun a =>
    ((match q.src with
      | .lit b => .ok b
      | .mem ea => s.engineRead p block ea q.n) : Eng (List Byte)).bind (fun b => .ok (a.zip b)))) l).bind
    (fun l => .ok l.flatten)

/-- One element of `rqred` (R253): OP and ET by SEL; no flag is set, FTZ is not applied. -/
def redElem (sel a b : Nat) : Nat :=
  let op := sel / 8
  let et := sel % 8
  if et < 2 then
    let t := et == 0
    let x := if t then sintOf 32 a else ((a % 2 ^ 32 : Nat) : Int)
    let y := if t then sintOf 32 b else ((b % 2 ^ 32 : Nat) : Int)
    match op with
    | 0 => wrapI 32 (x + y)
    | 1 => wrapI 32 (min x y)
    | 2 => wrapI 32 (max x y)
    | 3 => a &&& b
    | 4 => a ||| b
    | _ => a ^^^ b
  else
    let f := if et = 2 then fmt32 else if et = 3 then fmtB16 else fmt16
    let x := f.decode a
    let y := f.decode b
    (f.rne (if op = 0 then (addV .rne x y).1 else (minmaxV (op == 2) x y).1)).1

/-- Bytes combined with what stands at their home (R253). -/
def State.combineCells (s : State) (sel : Nat) (l : List (Nat × Byte)) : List (Nat × Byte) :=
  let w := if 3 ≤ sel % 8 then 2 else 4
  (List.range (l.length / w)).flatMap (fun k =>
    let part := (l.drop (k * w)).take w
    let a := (part.head?.map (·.1)).getD 0
    cellsOf a w (redElem sel (s.readLE a w) (bytesVal (part.map (·.2)))))

/-- A unit's bytes reach their home. -/
def State.landUnit (s : State) (r : ReqOp) (l : List (Nat × Byte)) : State :=
  s.homeWrites (if r.kind = 5 then s.combineCells r.sel l else l) none

/-- The two lines of a swap change places (R253, R255), unless an uncorrectable error stands in one (R258). -/
def State.swapLine (s : State) (a b : Nat) : Eng State :=
  if s.badBytes a 128 || s.badBytes b 128 then .bad badSource else .ok <|
  let x := s.readBytes a 128
  let y := s.readBytes b 128
  s.homeWrites (((List.range 128).map (a + ·)).zip y ++ ((List.range 128).map (b + ·)).zip x) none

/-- The reason a failed access ends a request with (R258, R324). -/
def reasonOf (rank : Nat) : Nat :=
  if rank = badIndex then 3 else if rank = badSource then 4 else if rank = badReach then 5 else 2

/-- One unit moves (R255): at its home, or onto a fabric lane. -/
def State.moveUnit (s : State) (uid id u : Nat) (g : Gang) (r : ReqOp) : Eng State :=
  let p := (g.party s).engineFor id
  if r.kind = 7 then
    (s.swapLine (r.dst.toNat + 128 * u) (r.src.toNat + 128 * u)).bind (fun s =>
      .ok ((s.updReq uid id (fun r => { r with moved := r.moved ++ [u] })).countDown g.block r.bar 256))
  else
    (s.pieces p g.block r u).bind (fun ps => (s.unitCells p (some g.block) ps).bind (fun cells =>
      let a := (cells.head?.map (·.1)).getD 0
      match homeOf a with
      | .remote d =>
        if s.unreachable.contains d then .bad badReach
        else
          .ok ((s.sendItem d (remoteLane a).2 (.unit g.coreKey uid id u cells)).updReq uid id
            (fun r => { r with flying := r.flying ++ [u] }))
      | _ =>
        .ok (((s.landUnit r cells).updReq uid id (fun r => { r with moved := r.moved ++ [u] })).countDown g.block r.bar
          (r.unitBytes u))))

/-- Has a request started: a unit moved, or none to move (R255)? -/
def reqStarted (o : Op) (r : ReqOp) : Bool :=
  o.done || !r.moved.isEmpty || !r.flying.isEmpty || (r.fetched && r.held.isNone && r.units == 0)

/-- The request of an entry of a queue. -/
def State.reqAt (s : State) (e : Nat × Nat) : Option (Gang × Op × ReqOp) :=
  match s.gang? e.1 with
  | some g => match g.op? e.2 with
    | some o => match o.kind with
      | .request r => some (g, o, r)
      | _ => none
    | none => none
  | none => none

/-- The entry of a queue for an operation, and whether every earlier entry satisfies a test. -/
def State.reqEntry (s : State) (core id : Nat) (before : Op → ReqOp → Bool) : Option (Nat × Gang × Op × ReqOp) :=
  match s.core? core with
  | none => none
  | some k =>
    let earlier := k.rq.takeWhile (fun e => e.2 != id)
    match k.rq.find? (fun e => e.2 == id) with
    | none => none
    | some e => match s.reqAt e with
      | some x =>
        if earlier.all (fun q => match s.reqAt q with
          | some y => before y.2.1 y.2.2
          | none => true) then some (e.1, x) else none
      | none => none

/-- An engine waits for a page, or its request ends. -/
def State.engineEnd (s : State) (uid id : Nat) (x : Eng State) : State :=
  match x with
  | .ok s => s
  | .miss q => s.ask q
  | .bad rank => s.endRequest uid id (reasonOf rank)

/-- Is a signal still to be performed: every unit written, none in flight (R255)? -/
def ReqOp.signalDue (r : ReqOp) : Bool := r.sig.isSome && !r.signalled && r.reason == 0 && r.moved.length == r.units

/-- RQSIGNAL's effect (R256): ADD, or STORE by the SIG of `rqputs`. -/
def State.performSignal (s : State) (uid id : Nat) (g : Gang) (r : ReqOp) : Eng State :=
  match r.sig with
  | none => .ok s
  | some (ea, x) =>
    (s.engineAt ((g.party s).engineFor id) true ea 8 8).bind (fun a =>
      if s.lost a then .bad badReach
      else .ok ((s.signalOp a (if r.kind = 4 then r.sel else 0) x).2.updReq uid id (fun r => { r with signalled := true })))

/-- A request of a deterministic launch takes effect whole (R255): its units in ascending order, then its signal. A unit that
misses leaves the whole request to be taken later; one that fails ends it after the units moved. -/
def State.moveAll (s : State) (uid id : Nat) (g : Gang) (r : ReqOp) : Eng State :=
  let unit (x : Eng (State × Option Nat)) (f : State → Eng State) : Eng (State × Option Nat) := x.bind (fun y =>
    match y.2 with
    | some _ => .ok y
    | none => match f y.1 with
      | .ok s => .ok (s, none)
      | .miss q => .miss q
      | .bad rank => .ok (y.1, some rank))
  let x := (List.range r.units).foldl (fun x u => unit x (fun s => s.moveUnit uid id u g r)) (.ok (s, none))
  let x := if r.sig.isSome then unit x (fun s => s.performSignal uid id g r) else x
  x.bind (fun y => .ok (match y.2 with
    | some rank => y.1.endRequest uid id (reasonOf rank)
    | none => y.1))

/-- A core's engine moves a unit of a request, or in a deterministic launch the whole request at its due clock (R255). -/
def State.moveReq (s : State) (core req unit : Nat) : State :=
  match s.reqEntry core req reqStarted with
  | none => s
  | some (uid, g, o, r) =>
    if !r.fetched || r.held.isSome || o.done || !s.duePassed g o.due then s
    else if o.due.isSome then
      if (s.reqEntry core req (fun o _ => o.done)).isNone then s
      else if s.countOver g.block r.bar (r.units * (if r.kind = 7 then 256 else 0) + (if r.kind = 7 then 0 else r.bytes)) then
        s.endRequest uid req 6
      else s.engineEnd uid req (s.moveAll uid req g r)
    else if r.units ≤ unit || r.moved.contains unit || r.flying.contains unit then s
    else if !(r.kind != 7 && s.remoteEa r.dst) && s.countOver g.block r.bar (r.unitBytes unit) then s.endRequest uid req 6
    else s.engineEnd uid req (s.moveUnit uid req unit g r)

/-- RQSIGNAL (R256). -/
def execRqsignal (core req : Nat) (s : State) : Host.Outcome State Fault Refusal :=
  .next (match s.reqEntry core req (fun _ _ => true) with
  | none => s
  | some (uid, g, o, r) =>
    if o.due.isSome || !r.signalDue || r.held.isSome || !r.fetched then s
    else s.engineEnd uid req (s.performSignal uid req g r))

/-! ## Request blocks (R258) -/

/-- SEL values of a KIND (R250). -/
def reqSelOk (kind sel : Nat) : Bool :=
  match kind with
  | 2 | 3 => sel < 6
  | 4 => sel < 2
  | 5 => sel / 8 < 6 && sel % 8 < 5 && (sel / 8 < 3 || sel % 8 < 2)
  | _ => sel == 0

/-- A block's 64 bytes as a request, unless a field breaks the table. -/
def parseBlock (b : List Byte) (off : Nat) (held : Option Nat) : Option ReqOp :=
  let u (o n : Nat) : Nat := bytesVal ((b.drop o).take n)
  let kind := u 0 1
  let sel := u 1 1
  let bar := u 2 1
  let fl := u 3 1
  let bad := 5 < kind || 64 ≤ sel || bits bar 6 5 != 0 || 1 < fl || u 28 4 != 0 || u 48 8 != 0 || 21 < bar % 32 ||
    (bar < 128 && bar % 32 != 0) || !reqSelOk kind sel || (kind == 1 && u 20 4 != 0) ||
    (kind != 2 && kind != 3 && u 24 4 != 0) || (fl == 1 && kind != 4 && kind != 5) || (kind == 4 && fl == 0) ||
    (fl == 0 && (u 32 8 != 0 || u 40 8 != 0))
  if bad then none
  else some { ReqOp.make kind sel with
    dst := BitVec.ofNat 64 (u 8 8), src := BitVec.ofNat 64 (if kind = 1 then u 16 4 else u 16 8), count := u 4 4
    idx := u 24 4, sig := if fl = 1 then some (BitVec.ofNat 64 (u 32 8), BitVec.ofNat 64 (u 40 8)) else none
    bar := if 128 ≤ bar then some (bar % 32) else none, block := some off, held := held }

/-- The oldest entry of a core's queue that has not started. -/
def State.reqHead (s : State) (core : Nat) : Option (Nat × Gang × Op × ReqOp) :=
  match s.core? core with
  | none => none
  | some k => k.rq.findSome? (fun e => match s.reqAt e with
    | some x => if reqStarted x.2.1 x.2.2 then none else some (e.1, x)
    | none => none)

/-- The block at the head of a core's queue is read from G(block), then L(b), and checked (R258); one with an uncorrectable
byte ends with reason 4 (log 51). -/
def State.fetchBlock (s : State) (core : Nat) : State :=
  match s.reqHead core with
  | none => s
  | some (uid, g, o, r) =>
    match r.block with
    | none => s
    | some off =>
      if r.fetched || r.held.isSome || !s.duePassed g o.due then s
      else
        let bytes := (List.range 64).map (fun k => s.seenByte g.block (localAddr g.block (off + k)))
        if (List.range 64).any (fun k => s.badSeen g.block (localAddr g.block (off + k))) then s.endRequest uid o.id 4
        else match parseBlock bytes off none with
        | none => s.endRequest uid o.id 1
        | some q =>
          if s.heldRemote (q.addrs.map (fun a => a.2.1)) then s
          else match s.checkReq (g.party s) q with
          | some (.detViolation, _) => s.endRequest uid o.id 7
          | some _ => s.endRequest uid o.id 1
          | none =>
            let due := if q.addrs.any (fun a => s.remoteEa a.2.1) then none
              else behindDue o.due (r.own.map (· + cdiv q.bytes 64))
            let disabled := match q.bar, s.block? g.block with
              | some n, some blk => match s.bar? blk n with
                | some b => b.members == 0
                | none => true
              | _, _ => false
            if disabled then s.endRequest uid o.id 1
            else s.updGang uid (fun g => g.setOp { o with
              kind := .request q, due := due, done := q.units == 0 && q.sig.isNone })

/-- RQLIST_BLOCK_FETCH (R258). -/
def execRqlistBlockFetch (core : Nat) (s : State) : Host.Outcome State Fault Refusal := .next (s.fetchBlock core)

/-- The STATUS of a block, written into L(b) at its LAND (R258). -/
def State.blockStatus (s : State) (g : Gang) (r : ReqOp) : State :=
  match r.block with
  | some off => s.homeWrites (cellsOf (localAddr g.block (off + 56)) 8 r.reason) none
  | none => s

end Sys2Proof.Machine
end

