-- ==== Sys2Proof/Machine/Placement.lean ====
section
/-!
DEFINITION. Where blocks and gangs go: shapes and room (R39, R42, R43, R57), the choice of cores (R56, R59, R61), the start
of a block (R42, R220), and the order in which an imposer takes what waits (R274).
-/
namespace Sys2Proof.Machine

/-! ## Shapes -/

/-- A gang of a launch's block: number, role, live lanes, allotment in registers, priority, entry word (R39, R276). -/
structure GangShape where
  (gangid role live allot prio entry : Nat)
deriving DecidableEq, Repr, Inhabited

/-- The gangs of one role, numbered from a base. -/
def Role.shapes (r : Role) (role base : Nat) : List GangShape :=
  (List.range r.gangs).map (fun k =>
    { gangid := base + k, role := role, live := if k + 1 = r.gangs then r.lastLive else r.live, allot := r.allot
      prio := r.prio, entry := r.entry })

/-- The gangs of a block in ascending `%gangid`, role 0 first (R38); a block without roles has priority 0 (R43). -/
def Desc.shapes (d : Desc) : List GangShape :=
  if d.roles then d.role0.shapes 0 0 ++ d.role1.shapes 1 d.role0.gangs
  else (d.role0.shapes 0 0).map (fun x => { x with prio := 0 })

def Desc.gangCount (d : Desc) : Nat := d.shapes.length

/-- Has the device stopped for its temperature (R339)? -/
def State.thermal (s : State) : Bool := s.host.startStat.toNat % 16 == 3

/-! ## Room -/

def partSlots : Nat := 16
def blockPlaces : Nat := 32
def localBytes : Nat := 327680

/-- Room of a core: block places, local bytes, and for each partition free slots and register bytes (R57). -/
structure Room where
  (places localFree : Nat)
  (parts : List (Nat × Nat))
deriving DecidableEq, Repr, Inhabited

/-- The slots of a partition that gangs hold. -/
def State.slotsHeld (s : State) (core part : Nat) : List Nat :=
  s.gangs.flatMap (fun g => if g.home == (core, part) && s.holdsCore g then g.slots else [])

def State.residents (s : State) (core : Nat) : List Block :=
  s.blocks.filter (fun b => b.stage == .resident && b.core == core)

def State.roomOf (s : State) (core : Nat) : Room :=
  let bs := s.residents core
  { places := blockPlaces - bs.length
    localFree := localBytes - bs.foldl (fun n b => n + ((s.grid? b.grid).map (fun g => g.desc.localSize)).getD 0) 0
    parts := (List.range (partsOf core)).map (fun p =>
      (partSlots - (s.slotsHeld core p).length, regFileBytes - s.partUsed core p)) }

/-- The partition of a gang: most free register bytes among those where it fits, ties to the lowest (R42). -/
def choosePart (parts : List (Nat × Nat)) (slots bytes : Nat) : Option Nat :=
  ((List.range parts.length).foldl (fun (best : Option (Nat × Nat)) k =>
    match parts[k]? with
    | none => best
    | some p =>
      if p.1 < slots || p.2 < bytes then best
      else match best with
        | some b => if b.2 < p.2 then some (k, p.2) else best
        | none => some (k, p.2)) none).map (·.1)

/-- The partitions of a block's gangs and what is left (R42, R43): the whole block, or nothing. -/
def fitGangs (measure : Nat) : List GangShape → List (Nat × Nat) → Option (List Nat × List (Nat × Nat))
  | [], parts => some ([], parts)
  | g :: rest, parts =>
    match choosePart parts (measure / 32) (g.allot * measure * 4) with
    | none => none
    | some k =>
      let left := parts.mapIdx (fun j p => if j == k then (p.1 - measure / 32, p.2 - g.allot * measure * 4) else p)
      (fitGangs measure rest left).map (fun r => (k :: r.1, r.2))

/-- A block of given gangs put into a room. -/
def Room.fit (r : Room) (d : Desc) (shapes : List GangShape) : Option (List Nat × Room) :=
  if r.places = 0 || r.localFree < d.localSize then none
  else (fitGangs d.measure shapes r.parts).map (fun x =>
    (x.1, { places := r.places - 1, localFree := r.localFree - d.localSize, parts := x.2 }))

/-- Some gangs put into given partitions, one for each; with none given, or where they do not fit there, as a new block is. -/
def Room.refit (r : Room) (d : Desc) (shapes : List GangShape) (parts : List Nat) : Option (List Nat) :=
  let bytes (l : List (GangShape × Nat)) : Nat := l.foldl (fun n e => n + e.1.allot * d.measure * 4) 0
  let fits := r.places != 0 && d.localSize ≤ r.localFree && parts.length == shapes.length &&
    (r.parts.mapIdx (fun k p => (k, p))).all (fun e =>
      let l := (shapes.zip parts).filter (fun x => x.2 == e.1)
      l.length * (d.measure / 32) ≤ e.2.1 && bytes l ≤ e.2.2)
  if fits then some parts else (r.fit d shapes).map (·.1)

/-- One block of a launch's shape put into a room. -/
def Room.take (r : Room) (d : Desc) : Option (List Nat × Room) := r.fit d d.shapes

/-- Blocks of a shape that a room holds. -/
def Room.countFor (d : Desc) : Nat → Room → Nat
  | 0, _ => 0
  | n + 1, r => match r.take d with
    | some x => 1 + Room.countFor d n x.2
    | none => 0

def Room.count (r : Room) (d : Desc) : Nat := Room.countFor d blockPlaces r

def dieCores (die : Nat) : List Nat := (List.range 40).map (64 * die + ·)

/-- Blocks of a shape for which a die's latest advertisement shows room (R56, R57). -/
def State.advertised (s : State) (die : Nat) (d : Desc) : Nat :=
  match s.adverts.find? (fun a => a.die == die) with
  | none => 0
  | some a => a.room.foldl (fun n e => n + Room.count ⟨e.2.1, e.2.2.1, e.2.2.2⟩ d) 0

/-- The die with the most advertised room, ties to the lowest (R56). -/
def State.bestDie (s : State) (d : Desc) (dies : List Nat) : Nat :=
  (dies.foldl (fun (best : Option (Nat × Nat)) k =>
    let n := s.advertised k d
    match best with
    | some b => if b.2 < n then some (k, n) else best
    | none => some (k, n)) none).map (·.1) |>.getD 0

/-! ## The choice of cores -/

/-- A deterministic launch holds a core alone (R61). -/
def State.coreOpen (s : State) (gr : Grid) (core : Nat) : Bool :=
  (s.residents core).all (fun b => match s.grid? b.grid with
    | some h => (!h.desc.det && !gr.desc.det) || h.root == gr.root
    | none => true)

/-- Room of a core for a grid: less what the claims of other grids take there (R58). -/
def State.roomFor (s : State) (gr : Grid) (core : Nat) : Room :=
  s.grids.foldl (fun r h =>
    if h.uid == gr.uid then r
    else (h.claims.filter (· == core)).foldl (fun r _ => match Room.take r h.desc with
      | some x => x.2
      | none => r) r) (s.roomOf core)

/-- Room on a core for each of some blocks, given by their gangs. -/
def State.coreFits (s : State) (gr : Grid) (blocks : List (List GangShape)) (core : Nat) : Bool :=
  s.coreOpen gr core && blocks.all (fun sh => ((s.roomFor gr core).fit gr.desc sh).isSome)

def State.tempOf (s : State) (core : Nat) : Nat := ((s.core? core).map (fun c => c.temp)).getD 0

/-- Insert by a key, keeping equal keys in order. -/
def insertBy (key : Nat → Nat) (x : Nat) : List Nat → List Nat
  | [] => [x]
  | y :: l => if key x < key y then x :: y :: l else y :: insertBy key x l

def sortBy (key : Nat → Nat) (l : List Nat) : List Nat := l.foldl (fun acc x => insertBy key x acc) []

/-- The cores of one hardware cluster for n blocks: the n coolest with room, ascending; and the temperature of the hottest
of them. In a deterministic launch the lowest-numbered (R56, R59). -/
def State.clusterPick (s : State) (gr : Grid) (blocks : List (List GangShape)) (first : Nat) : Option (Nat × List Nat) :=
  let n := blocks.length
  let fit := ((List.range 4).map (first + ·)).filter (fun c => s.coreFits gr blocks c)
  let byTemp := if gr.desc.det then fit else sortBy s.tempOf fit
  let pick := byTemp.take n
  if pick.length < n then none
  else some (if gr.desc.det then 0 else pick.foldl (fun m c => max m (s.tempOf c)) 0, sortBy id pick)

/-- The cores for n blocks of a grid on some dies (R56, R59): a single block goes to the coolest core with room, which is the
coolest cluster's. -/
def State.pickCores (s : State) (gr : Grid) (dies : List Nat) (blocks : List (List GangShape)) : Option (List Nat) :=
  let firsts := dies.flatMap (fun d => (List.range 10).map (fun k => 64 * d + 4 * k))
  (firsts.foldl (fun (best : Option (Nat × List Nat)) f =>
    match s.clusterPick gr blocks f with
    | none => best
    | some x => match best with
      | some b => if x.1 < b.1 then some x else best
      | none => some x) none).map (·.2)

/-! ## The start of a block -/

/-- The lowest free slots of a partition (log 16). -/
def State.freeSlots (s : State) (core part n : Nat) : List Nat :=
  ((List.range partSlots).filter (fun k => !(s.slotsHeld core part).contains k)).take n

/-- A gang with every register zero and no work, in one group at an address. -/
def Gang.start (uid block gangid role prio measure live allot : Nat) (place : Place) (home : Nat × Nat) (slots : List Nat)
    (image pc tvec : W64) : Gang :=
  { uid := uid, block := block, gangid := gangid, role := role, prio := prio, measure := measure, place := place
    home := home, slots := slots, present := lowLanes live, exited := 0, allot := allot, reserve := allot, sregs := []
    vregs := [], masks := [], em := lowLanes live, astatus := 0, freshBits := 0, tvec := tvec, tcause := 0, tval := 0, tret := 0
    fresh := [], flags := 0, ops := [], galley := Galley.empty, dlist := [], image := image, entry := pc, trap := none, latched := []
    errs := []
    groups := [Group.at (lowSlices (measure / 8)) pc], reconv := List.replicate (measure / 8) [], pull := none
    guest := none, clauseCount := 0, known := [], arriving := [] }

/-- The start values of R220: `s2:3` and FTZ. -/
def Gang.startValues (g : Gang) (d : Desc) : Gang :=
  { g.wrS64 2 d.args with astatus := if d.ftz then 0x10000 else 0, fresh := [] }

/-- Membership of barrier k (R181, R276). -/
def Desc.members (d : Desc) (k dflt : Nat) : Nat :=
  match d.barm[k]? with
  | some x => if x = 0xFFFFFFFF then dflt else x.toNat
  | none => dflt

def Desc.bars (d : Desc) (ks : List Nat) (dflt : Nat) : List Bar := ks.map (fun k => Bar.make k (d.members k dflt))

def blockBars : List Nat := List.range 16
def clusterBars : List Nat := [16, 17, 18, 19]
def gridBars : List Nat := [20, 21]

/-- One gang of a block that starts on a core. -/
def State.startGang (s : State) (gr : Grid) (block core part : Nat) (x : GangShape) : State :=
  let d := gr.desc
  let slots := s.freeSlots core part (d.measure / 32)
  let g := Gang.start s.nextUid block x.gangid x.role x.prio d.measure x.live x.allot (.press part (slots.headD 0))
    (core, part) slots d.code (d.code + 64 + BitVec.ofNat 64 (8 * x.entry)) d.tvec
  let s := { s with nextUid := s.nextUid + 1, gangs := s.gangs ++ [g.startValues d] }
  s.updBlock block (fun b => { b with gangs := b.gangs ++ [g.uid] })

/-- One block starts on a core (R42, R43). -/
def State.startBlock (s : State) (gr : Grid) (blockid cluster crank core : Nat) : State :=
  match (s.roomOf core).take gr.desc with
  | none => s
  | some x =>
    let uid := s.nextUid
    let b : Block :=
      { uid := uid, grid := gr.uid, blockid := blockid, crank := crank, cluster := cluster, stage := .resident
        core := core, die := dieOf core
        resident := if gr.desc.det then ((s.root? gr.root).map (fun r => r.clock)).getD 0 else s.clockOf core
        since := s.now, preempt := false, sliced := false, awaited := false, galley := Galley.empty
        bars := gr.desc.bars blockBars gr.desc.gangCount, gangs := [], children := 0 }
    let s := { s with nextUid := s.nextUid + 1, blocks := s.blocks ++ [b] }
    let s := s.updCluster cluster (fun c => { c with blocks := c.blocks ++ [uid] })
    (gr.desc.shapes.zip x.1).foldl (fun s e => s.startGang gr uid core e.2 e.1) s

/-- A cluster launch's blocks start together, rank i on the i-th core (R56). -/
def State.startCluster (s : State) (gr : Grid) (blockid : Nat) (cores : List Nat) : State :=
  let uid := s.nextUid
  let c : Cluster :=
    { uid := uid, grid := gr.uid, galley := Galley.empty
      bars := gr.desc.bars clusterBars (gr.desc.gangCount * cores.length), blocks := [] }
  let s := { s with nextUid := s.nextUid + 1, clusters := s.clusters ++ [c] }
  (cores.mapIdx (fun k core => (k, core))).foldl (fun s e => s.startBlock gr (blockid + e.1) uid e.1 e.2) s

/-! ## What waits on a die -/

/-- A waiting unit: blocks of a grid not yet dispatched, by the first's number and their count, or a suspended cluster. -/
inductive Unit0
  | fresh (blockid n : Nat)
  | saved (cluster : Nat)
deriving DecidableEq, Repr, Inhabited

/-- Blocks of the cluster launch that starts at a block number. -/
def Grid.unitSize (gr : Grid) (blockid : Nat) : Nat := min gr.desc.cluster (gr.desc.grid - blockid)

/-- Undispatched blocks of a grid that some dies hold: those passed there, and the next of its receiving die (R56, R57). -/
def Grid.freshOn (gr : Grid) (dies : List Nat) : List Nat :=
  (gr.passed.filter (fun e => dies.contains e.2)).map (·.1) ++
    (if dies.contains gr.die && gr.nextBlock < gr.desc.grid then [gr.nextBlock] else [])

/-- Does a suspended block come before another: it has waited longer, or as long with the lower number (R58)? -/
def Block.before (a b : Block) : Bool := a.since < b.since || (a.since == b.since && a.blockid < b.blockid)

/-- The first blocks of a grid's suspended units that some dies hold. -/
def State.savedOn (s : State) (gr : Grid) (dies : List Nat) : List Block :=
  s.blocks.filter (fun b => b.grid == gr.uid && b.stage == .suspended && dies.contains b.die && b.crank == 0)

/-- The dies whose waiting blocks an imposer places: its own; those of a deterministic launch are one queue, placed on cores
of every die (R56, R59). -/
def Grid.diesOf (gr : Grid) (die : Nat) : List Nat := if !gr.desc.det then [die] else if die = 0 then [0, 1, 2, 3] else []

/-- Does a deterministic launch wait for saved blocks before its launch clock goes on (R60)? -/
def State.rootAwaits (s : State) (root : Nat) : Bool :=
  s.blocks.any (fun b => b.stage == .suspended && b.awaited && (s.grid? b.grid).any (fun x => x.root == root && !x.stopped))

def State.gridAwaits (s : State) (gr : Grid) : Bool := gr.desc.det && s.rootAwaits gr.root

/-- A grid's waiting units on some dies with their first block numbers: undispatched, unless it has ended early, and
suspended; where its launch clock waits for saved blocks, those alone (log 23). -/
def State.unitsOn (s : State) (gr : Grid) (dies : List Nat) : List (Nat × Unit0) :=
  let waits := s.gridAwaits gr
  (if gr.aborted || waits then [] else (gr.freshOn dies).map (fun k => (k, Unit0.fresh k (gr.unitSize k)))) ++
    (if gr.stopped then [] else
      ((s.savedOn gr dies).filter (fun b => b.awaited || !waits)).map (fun b => (b.blockid, Unit0.saved b.cluster)))

/-- In ascending `%blockid` (R56, R57). -/
def unitsAscending (l : List (Nat × Unit0)) : List Unit0 :=
  (sortBy id (l.map (·.1))).filterMap (fun k => (l.find? (fun e => e.1 == k)).map (·.2))

/-- The gangs of a saved block with the allotments they hold; retired gangs need no room. -/
def State.savedShapes (s : State) (b : Block) : List GangShape :=
  ((s.gangsOf b.uid).filter (fun g => g.live != 0)).map (fun g =>
    { gangid := g.gangid, role := g.role, live := 0, allot := g.reserve, prio := g.prio, entry := 0 })

/-- The gangs of each block of a unit, ranks ascending. -/
def State.unitShapes (s : State) (gr : Grid) (u : Unit0) : List (List GangShape) :=
  match u with
  | .fresh _ n => List.replicate n gr.desc.shapes
  | .saved c => (List.range 4).filterMap (fun k => (s.rankBlock c k).map s.savedShapes)

/-- Effective priority of a queue: PRIO and its ageing (R274). -/
def State.effPrio (s : State) (q : Nat) : Nat :=
  match s.queue? q with
  | some x => min 15 (x.prio + x.age / 2 ^ s.flash.ageK)
  | none => 0

/-- Grids in descending effective priority, then in dispatch order (R274). -/
def State.gridOrder (s : State) : List Grid :=
  let byOrder := sortBy (fun u => ((s.grid? u).map (fun g => g.order)).getD 0) (s.grids.map (fun g => g.uid))
  let byPrio := sortBy (fun u => 15 - s.effPrio (((s.grid? u).map (fun g => g.queue)).getD 0)) byOrder
  byPrio.filterMap (fun u => s.grid? u)

/-- What a block of a launch with AFTER waits for: 1 or more, a negative word, or neither yet (R277). -/
def State.afterWord (s : State) (gr : Grid) (blockid : Nat) : Eng Int :=
  if gr.after = 0 then .ok 1
  else (s.engineRead (ioParty (ioWork 3 gr.uid) gr.pasid) none (gr.after + BitVec.ofNat 64 (8 * blockid)) 8).bind (fun l =>
    .ok (sintOf 64 (bytesVal l)))

/-- May the unit start as far as AFTER goes: every one of its blocks has its word? -/
def State.afterReady (s : State) (gr : Grid) (u : Unit0) : Bool :=
  match u with
  | .saved _ => true
  | .fresh b n => (List.range n).all (fun k => match s.afterWord gr (b + k) with
    | .ok x => decide (1 ≤ x)
    | _ => false)

/-- A grid's units on a die that may start, in ascending `%blockid` (R56); undispatched ones wait for their AFTER words, and
those behind them with them (R277), which holds no suspended one. -/
def State.readyUnits (s : State) (gr : Grid) (dies : List Nat) : List Unit0 :=
  (unitsAscending (s.unitsOn gr dies)).filter (fun u => s.afterReady gr u)

/-- The unit of a grid that has waited longest: an undispatched one, waiting since the dispatch, else a suspended one (R58,
log 17). -/
def State.longestUnit (s : State) (gr : Grid) : Option Unit0 :=
  let l := s.readyUnits gr [0, 1, 2, 3]
  match l.find? (fun u => match u with
    | .fresh _ _ => true
    | .saved _ => false) with
  | some u => some u
  | none => ((s.savedOn gr [0, 1, 2, 3]).filter (fun b => l.contains (.saved b.cluster))).foldl
    (fun (m : Option Block) b => match m with
      | some x => if b.before x then some b else m
      | none => some b) none |>.map (fun b => Unit0.saved b.cluster)

/-- Does a cluster launch hold a gang pulled to a proof core (R57, R290)? -/
def State.hasGuest (s : State) (cluster : Nat) : Bool :=
  (s.blocksOf cluster).any (fun b => (s.gangsOf b.uid).any (fun g => g.isGuest || g.pull.isSome))

/-- The dies on which a unit may be placed by a die's imposer: its own, and for a deterministic launch any (R59); a unit with a
guest stays on the die it was saved on (R291). -/
def State.unitDies (s : State) (gr : Grid) (die : Nat) (u : Unit0) : List Nat :=
  let all := if gr.desc.det then [0, 1, 2, 3] else [die]
  match u with
  | .fresh _ _ => all
  | .saved c => if s.hasGuest c then (s.rankBlock c 0).toList.map (fun b => b.die) else all

/-- The place of a victim on a die, for the unit of its grid that has waited longest (R58). -/
def State.claimed (s : State) (gr : Grid) (die : Nat) : Option (Unit0 × List Nat) :=
  match gr.claims with
  | [] => none
  | c :: _ =>
    if dieOf c != die || s.gridAwaits gr then none
    else (s.longestUnit gr).bind (fun u =>
      let sh := s.unitShapes gr u
      let cores := sortBy id (gr.claims.take sh.length)
      if (s.unitDies gr die u).contains die && cores.length == sh.length && cores.all (s.coreFits gr sh) then some (u, cores)
      else none)

/-- The first waiting unit of a die that can be placed now, with its grid and cores (R56, R58, R274). -/
def State.nextUnit (s : State) (die : Nat) : Option (Grid × Unit0 × List Nat) :=
  s.gridOrder.findSome? (fun gr => match s.claimed gr die with
    | some x => some (gr, x.1, x.2)
    | none => (s.readyUnits gr (gr.diesOf die)).findSome? (fun u =>
        (s.pickCores gr (s.unitDies gr die u) (s.unitShapes gr u)).map (fun cores => (gr, u, cores))))

end Sys2Proof.Machine
end

