-- ==== Sys2Proof/Machine/QueueOps.lean ====
section
/-!
DEFINITION. Queues, packets and launches as the compositor instructions and the engines act on them (R261 to R278): ring and
QCB bytes, packet checks, the start rules of R266, completion (R263, R269, R270), descriptors (R276), grids, packet copies.
-/
namespace Sys2Proof.Machine

/-! ## Accesses of the I/O die -/

/-- A refused access gives nothing; a miss still waits. -/
def Eng.orNone {α : Type} : Eng α → Eng (Option α)
  | .ok x => .ok (some x)
  | .miss q => .miss q
  | .bad _ => .ok none

/-- 64-bit word k of a list of bytes, by its byte offset and length. -/
def fieldOf (l : List Byte) (off n : Nat) : Nat := bytesVal ((l.drop off).take n)

/-- The value a doorbell holds (R271). -/
def State.doorbell (s : State) (q : Nat) : Nat := (Store.getD s.doorbells q (0 : W64)).toNat

/-- Bytes written by the I/O die, with no gang of its own. -/
def State.ioWrite (s : State) (addrs : List Nat) (l : List Byte) : State := s.homeWrites (addrs.zip l) none

/-- A value's little-endian bytes. -/
def leBytes (n x : Nat) : List Byte := (List.range n).map (fun k => BitVec.ofNat 8 (x / 256 ^ k))

/-- Is a line of host memory one of a PASID's (R264)? -/
def State.hostLineOf (s : State) (pasid a : Nat) : Bool :=
  s.mapped.any (fun t => !t.own && t.pasid == pasid && hostBase + t.frame ≤ a && a < hostBase + t.frame + 2 ^ t.log2)

/-- Acquire at SYSTEM scope: copies of the host lines of a PASID leave the device's caches (R264). -/
def State.acquireSystem (s : State) (pasid : Nat) : State := s.dropCopies (s.hostLineOf pasid)

/-- Release at SYSTEM scope: host memory holds every byte the device has written (R264). -/
def State.releaseSystem (s : State) : State := s.writeBack (fun _ => true)

/-! ## Rings and tags -/

/-- The expected tag of index i (R262, R282). -/
def Queue.tag (q : Queue) (i : Nat) : Nat := (i / 2 ^ q.log2) % 255 + 1

def Queue.slotAddr (q : Queue) (i : Nat) : W64 := q.base + BitVec.ofNat 64 (256 * (i % 2 ^ q.log2))

def Queue.pkt? (q : Queue) (i : Nat) : Option Pkt := q.window.find? (fun p => p.idx == i)

def Queue.setPkt (q : Queue) (p : Pkt) : Queue :=
  if q.window.any (fun x => x.idx == p.idx) then
    { q with window := q.window.map (fun x => if x.idx == p.idx then p else x) }
  else { q with window := q.window ++ [p] }

/-! ## Packet checks (R262, R284) -/

def Pkt.word (p : Pkt) (k : Nat) : Nat := ((p.words[k]?).map (fun x => x.toNat)).getD 0
def Pkt.word64 (p : Pkt) (off : Nat) : W64 := BitVec.ofNat 64 (p.word (off / 4) + p.word (off / 4 + 1) * 2 ^ 32)

/-- A signal's address: 8-byte aligned in spaces 0x00 to 0x02. -/
def signalAddr (a : W64) : Bool := a.toNat % 8 == 0 && a.toNat / 2 ^ 57 ≤ 2 && !bit a.toNat 56

/-- The last body word a type names, and the bits of it that are named. -/
def bodyWords (ty : Nat) : Nat :=
  match ty with
  | 1 => 8
  | 2 => 14
  | 3 => 6
  | 4 => 8
  | 5 => 6
  | _ => 2

/-- A reserved body bit is set, or a field holds a value that its type does not take. -/
def Pkt.badBody (p : Pkt) : Bool :=
  let tail := p.words.take 63 |>.drop (if p.ty = 3 then 7 else bodyWords p.ty)
  tail.any (fun w => w != 0) ||
    (p.ty == 3 && (p.word 6 / 256 != 0 || 1 < p.word 6 % 256)) ||
    (p.ty == 4 && 2 ^ 40 < (p.word64 24).toNat) || (p.ty == 5 && 2 ^ 63 ≤ (p.word64 16).toNat)

/-- An address field breaks its alignment or space. -/
def State.badAddrs (s : State) (p : Pkt) : Bool :=
  let sig (o : Nat) (opt : Bool) : Bool := !(signalAddr (p.word64 o) || (opt && p.word64 o == 0))
  let copyEa (o : Nat) : Bool :=
    let a := (p.word64 o).toNat
    !(a / 2 ^ 57 ≤ 2 && !bit a 56) && !(s.feature 7 && a / 2 ^ 57 == 0x30)
  sig 0 true || (match p.ty with
    | 1 => (p.word64 8).toNat % 64 != 0 || !signalAddr (p.word64 8) || sig 16 true || sig 24 true
    | 2 => [8, 16, 24, 32, 40, 48].any (fun o => sig o true)
    | 3 => sig 8 false
    | 4 => copyEa 8 || copyEa 16
    | 5 => sig 8 false
    | _ => false)

/-- The check code that `pktld` places, lowest first. -/
def State.checkCode (s : State) (p : Pkt) (trailer : Nat) : Nat :=
  if p.ty = 0 || 7 < p.ty then 1
  else if bits trailer 7 1 != 0 || p.acq = 3 || p.rel = 3 || p.badBody then 2
  else if p.ty = 5 && !s.feature 11 then 3
  else if s.badAddrs p then 4
  else 0

/-- A packet from the 256 bytes of its slot. -/
def State.parsePkt (s : State) (i : Nat) (b : List Byte) : Pkt :=
  let t := fieldOf b 252 4
  let p : Pkt :=
    { idx := i, ty := bits t 23 16, ord := bits t 15 13, acq := bits t 12 11, rel := bits t 10 9, bar := bit t 8
      irq := bit t 0, csig := BitVec.ofNat 64 (fieldOf b 0 8)
      words := (List.range 63).map (fun k => BitVec.ofNat 32 (fieldOf b (4 * k) 4)), check := 0, started := false
      dispatched := false, done := false, aborted := false, seen := 0, grid := none }
  { p with check := s.checkCode p t }

/-- The signal addresses of a BARRIER or WAIT, with the entry number. -/
def Pkt.signals (p : Pkt) : List (Nat × W64) :=
  (match p.ty with
  | 2 => (List.range 6).map (fun k => (k, p.word64 (8 + 8 * k)))
  | 5 => [(0, p.word64 8)]
  | _ => []).filter (fun e => e.2 != 0)

/-- Entries with address 0 count as seen from the start (R287). -/
def Pkt.seen0 (p : Pkt) : BitVec 6 :=
  (List.range 6).foldl (fun (m : BitVec 6) k =>
    if p.ty == 2 && p.word64 (8 + 8 * k) == 0 then m ||| (1 : BitVec 6) <<< k else m) 0

/-! ## Order (R266) -/

/-- May a packet of the queue start now? Indices below RDIDX have completed. -/
def Queue.mayStart (q : Queue) (p : Pkt) : Bool :=
  ((List.range (p.idx - q.rdidx)).map (q.rdidx + ·)).all (fun k => match q.pkt? k with
    | none => false
    | some e =>
      (e.done || (e.ty != 3 && p.ord != 0)) && (e.started || e.done || (!p.bar && e.ord != p.ord)))

/-- Has every earlier packet started (R266, for BAR)? -/
def Queue.allStarted (q : Queue) (i : Nat) : Bool :=
  ((List.range (i - q.rdidx)).map (q.rdidx + ·)).all (fun k => match q.pkt? k with
    | none => false
    | some e => e.started || e.done)

/-! ## Completion (R263, R269, R270) -/

/-- A fault record's 64 bytes (R270). -/
def faultBytes (code first gang packet : Nat) (tval tret : W64) (block extra : Nat) : List Byte :=
  leBytes 1 code ++ leBytes 1 first ++ leBytes 2 0 ++ leBytes 4 gang ++ leBytes 8 packet ++ leBytes 8 tval.toNat ++
    leBytes 8 tret.toNat ++ leBytes 4 block ++ leBytes 4 extra ++ leBytes 24 0

/-- RDIDX passes completed packets. -/
def Queue.passDone : Nat → Queue → Queue
  | 0, q => q
  | n + 1, q => match q.pkt? q.rdidx with
    | some p => if p.done then
        Queue.passDone n { q with rdidx := q.rdidx + 1, window := q.window.filter (fun x => x.idx != p.idx) } else q
    | none => q

/-- What names a packet among the work of the I/O die. -/
def packetKey (q : Queue) (p : Pkt) : Nat := 4096 * p.idx + q.qnum

/-- The acquire scope of a packet acts at its start (R264, R285). -/
def State.startScope (s : State) (q : Queue) (p : Pkt) : State := if p.acq = 2 then s.acquireSystem q.pasid else s

/-- The record of a START (R285, R303). -/
def State.startRec (s : State) (q : Queue) (slot : Nat) (p : Pkt) : State := s.compRec 3 p.idx q.qnum (slot % 32)

/-- START of a packet that its lane carries out itself (R263, R285). -/
def State.startPkt (s : State) (q : Queue) (slot : Nat) (p : Pkt) : State := (s.startScope q p).startRec q slot p

/-- The STATE word of a QCB (R261). -/
def stateNum : QState → Nat
  | .unmapped => 0
  | .mapped => 1
  | .teardown => 2
  | .dead => 3

def Queue.stateWord (q : Queue) : Nat :=
  stateNum q.state + (if q.abort then 2 ^ 8 else 0) + (if q.hold then 2 ^ 9 else 0)

/-- COMPLETE (R263): the fault record if there is one, release scope, completion signal, IRQ, DONE, then RDIDX; of an
unmapped queue it is applied to the QCB in memory (R272). An access that is refused is left out. -/
def State.completePacket (s : State) (q : Queue) (p : Pkt) (aborted : Bool) (record : Option (List Byte)) : Eng State :=
  let io := ioParty (ioWork 0 (packetKey q p)) q.pasid
  let q' := Queue.passDone 8 { q.setPkt { p with started := true, done := true, aborted := aborted } with
    abort := q.abort || aborted, hold := q.hold && !p.bar }
  (match record with
    | none => .ok none
    | some _ => (s.engineDest io q.faultrec 64).orNone : Eng (Option (List Nat))).bind fun recAt =>
  ((if p.csig == 0 || !signalAddr p.csig then .ok none else (s.engineAt io true p.csig 8 8).orNone :
    Eng (Option Nat))).bind fun sigAt =>
  (s.engineDest io (q.qcb + 8) 8).orNone.bind fun rdAt =>
  ((if q.slot.isSome then .ok none else (s.engineDest io (q.qcb + 32) 4).orNone) : Eng (Option (List Nat))).bind fun stAt =>
    let s := (s.dropWaiter io.who).compRec 5 p.idx q.qnum ((q.slot.getD 0) % 32)
    let s := match recAt with
      | some a => s.ioWrite a (record.getD [])
      | none => s
    let s := if p.rel = 2 then s.releaseSystem else s
    let s := match sigAt with
      | some a => (s.signalOp a (if aborted then 1 else 0) (-1)).2
      | none => s
    let s := if p.irq then s.raiseMsi (16 + q.qnum % 2032) else s
    let s := match rdAt with
      | some a => if q'.rdidx = q.rdidx then s else (s.ioWrite a (leBytes 8 q'.rdidx)).releaseSystem
      | none => s
    let s := match stAt with
      | some a => (s.ioWrite a (leBytes 4 q'.stateWord)).releaseSystem
      | none => s
    -- the notice may have changed the queue's other fields only in the wake masks
    .ok (s.setQueue q')

/-! ## Launch descriptors (R276) -/

def parseRole (b : List Byte) (off : Nat) : Role :=
  { entry := fieldOf b off 4, gangs := fieldOf b (off + 4) 1, live := fieldOf b (off + 5) 1
    lastLive := fieldOf b (off + 6) 1, allot := 8 * fieldOf b (off + 7) 1, prio := fieldOf b (off + 8) 1 }

def roleOk (b : List Byte) (off measure length : Nat) : Bool :=
  let r := parseRole b off
  r.entry < length && 1 ≤ r.gangs && 1 ≤ r.live && r.live ≤ measure && 1 ≤ r.lastLive && r.lastLive ≤ measure &&
    8 ≤ r.allot && r.allot ≤ 256 && r.prio ≤ 3 && fieldOf b (off + 9) 7 == 0

/-- The descriptor of 256 bytes, as far as it can be accepted with an image of a length. -/
def parseDesc (det : Bool) (b : List Byte) (length : Nat) : Option Desc :=
  let u := fieldOf b
  let fl := u 38 1
  let roles := bit fl 3
  let measure := u 36 1
  let r0 := parseRole b 56
  let r1 := parseRole b 72
  let gangs := r0.gangs + (if roles then r1.gangs else 0)
  let barm := (List.range 22).map (fun k => BitVec.ofNat 32 (u (88 + 4 * k) 4))
  let ok := u 0 1 == 0 && u 16 1 == 0 && u 24 1 == 0 && 1 ≤ u 32 4 && [32, 64, 128].contains measure &&
    1 ≤ u 37 1 && u 37 1 ≤ 4 && fl < 16 && (!bit fl 1 || bit fl 0) && (!bit fl 0 || det) && u 39 1 == 0 &&
    50 ≤ u 40 4 && u 40 4 ≤ 10000 && u 44 4 % 16 == 0 && u 44 4 ≤ localBytes && u 48 4 % 8 == 0 &&
    u 48 4 < 2 ^ 24 && u 52 4 == 0 && roleOk b 56 measure length &&
    (if roles then roleOk b 72 measure length else u 72 16 == 0) && gangs * measure ≤ 1024 &&
    (barm.take 16).all (fun x => x == 0xFFFFFFFF || x.toNat ≤ gangs) && u 176 80 == 0
  if ok then some
    { code := BitVec.ofNat 64 (u 0 8), args := BitVec.ofNat 64 (u 8 8), tvec := BitVec.ofNat 64 (u 16 8)
      ctx := BitVec.ofNat 64 (u 24 8), grid := u 32 4, measure := measure, cluster := u 37 1, det := bit fl 0
      fabx := bit fl 1, ftz := bit fl 2, roles := roles, quantum := u 40 4, localSize := u 44 4, scratch := u 48 4
      role0 := r0, role1 := r1, barm := barm }
  else none

/-- A descriptor read under a PASID: `none` where it is refused, its memory included. -/
def State.readDesc (s : State) (who : Waiter) (pasid : Nat) (a : W64) : Eng (Option Desc) :=
  if a.toNat % 64 != 0 || !signalAddr a then .ok none
  else (s.engineRead (ioParty who pasid) none a 256).orNone.bind fun b => match b with
    | none => .ok none
    | some b => (s.engineRead (ioParty who pasid) none (BitVec.ofNat 64 (fieldOf b 0 8)) 4).orNone.bind fun p => match p with
      | none => .ok none
      | some l => .ok (parseDesc (s.feature 1) b (bytesVal l))

/-! ## Grids -/

/-- A grid is handed to the imposers (R56, R59, R278): of a queue's LAUNCH, or a child of a block. A grid launched from a
deterministic one runs under that launch's clock. -/
def State.newGrid (s : State) (q : Queue) (packet : Nat) (d : Desc) (events after : W64) (parent : Option (Nat × Grid)) :
    State :=
  let uid := s.nextUid
  let inDet := match parent with
    | some p => p.2.desc.det
    | none => false
  let d : Desc := match parent with
    | some p => if inDet then { d with det := true, fabx := p.2.desc.fabx } else d
    | none => d
  let d : Desc := if d.ctx = 0 then { d with ctx := q.ctxpool } else d
  let root : Nat := match parent with
    | some p => if inDet then p.2.root else uid
    | none => uid
  let gr : Grid :=
    { uid := uid, desc := d, queue := q.qnum, packet := packet, pasid := q.pasid
      priv := match parent with
        | some p => p.2.priv
        | none => q.priv && s.flash.drvQueues.contains q.qnum
      parent := parent.map (·.1), depth := match parent with
        | some p => p.2.depth + 1
        | none => 1
      events := events, after := after, die := if d.det then 0 else s.bestDie d [0, 1, 2, 3], nextBlock := 0, passed := []
      retired := 0, aborted := false, stopped := false, fault := none
      bars := d.bars gridBars (d.gangCount * d.grid), root := root, order := uid, claims := [], doomed := false }
  { s with
    nextUid := uid + 1
    grids := s.grids ++ [gr]
    roots := if d.det && root = uid then s.roots ++ [{ grid := uid, clock := 0, stopped := false }] else s.roots }

/-- The compositor core of a slot. -/
def slotCore (slot : Nat) : Nat := slot / 32

/-- Has a queue a packet ready to start, or an unmapped one work waiting (R274)? -/
def State.readyToStart (s : State) (q : Queue) : Bool :=
  q.window.any (fun p => !p.started && !p.done && q.mayStart p) ||
    (q.slot.isNone && s.pending.contains q.qnum && q.fetch < s.doorbell q.qnum)

/-- A queue dispatches: its w is 0 again, and the waiting queues of the same compositor age (R274). -/
def State.ageQueues (s : State) (qnum slot : Nat) : State :=
  { s with queues := s.queues.map (fun x =>
      if x.qnum == qnum then { x with age := 0 }
      else
        let same := match x.slot with
          | some k => slotCore k == slotCore slot
          | none => true
        if same && s.readyToStart x then { x with age := x.age + 1 } else x) }

/-! ## Packet copies (R265) -/

def copyLimit : Nat := 256

def Copy.units (c : Copy) : Nat := if c.count = 0 then 0 else (c.dst.toNat % 128 + c.count + 127) / 128

def Copy.span (c : Copy) (u : Nat) : Nat × Nat :=
  let lo := if u = 0 then 0 else 128 * u - c.dst.toNat % 128
  (lo, min c.count (128 * (u + 1) - c.dst.toNat % 128) - lo)

def Copy.started (c : Copy) : Bool := !c.moved.isEmpty || !c.flying.isEmpty || c.units == 0 || c.reason != 0

def State.updCopy (s : State) (q p : Nat) (f : Copy → Copy) : State :=
  { s with copies := s.copies.map (fun c => if c.queue == q && c.packet == p then f c else c) }

/-- The first address of a list of parts whose access is refused. -/
def State.firstRefused (s : State) (io : Party) (write : Bool) (l : List (W64 × Nat)) : Option W64 :=
  (l.find? (fun e => match s.engineAt io write e.1 1 e.2 with
    | .bad _ => true
    | _ => false)).map (·.1)

/-- The offset of the first byte of a source part in which an uncorrectable error stands. -/
def State.firstBad (s : State) (io : Party) (e : W64 × Nat) : Nat :=
  match s.engineAt io false e.1 1 e.2 with
  | .ok a => ((List.range e.2).find? (fun k => s.engineBad none (a + k) 1)).getD 0
  | _ => 0

/-- The first byte of a list of source parts that cannot be read, with the rank of its failure (R270). -/
def State.firstUnread (s : State) (io : Party) (l : List (W64 × Nat)) : Option (W64 × Nat) :=
  l.findSome? (fun e => match s.engineRead io none e.1 e.2 with
    | .bad rank => some (if rank = badSource then e.1 + BitVec.ofNat 64 (s.firstBad io e) else e.1, rank)
    | _ => none)

/-- One unit of a packet copy moves: R255's RQMOVE of the copy engine, the copy named by its place in the engine's queue. -/
def State.moveCopy (s : State) (k u : Nat) : State :=
  match s.copies[k]? with
  | none => s
  | some c =>
    if (c.moved.isEmpty && c.flying.isEmpty && s.heldRemote [c.dst, c.src]) || !(s.copies.take k).all Copy.started || c.reason != 0 || c.units ≤ u || c.moved.contains u || c.flying.contains u then s
    else
      let who := ioWork 1 (4096 * c.packet + c.queue)
      let io := { ioParty who c.pasid with handler := false }
      let sp := c.span u
      let dst := c.dst + BitVec.ofNat 64 sp.1
      let src := c.src + BitVec.ofNat 64 sp.1
      let fail (reason : Nat) (a : W64) : State :=
        (s.dropWaiter who).updCopy c.queue c.packet (fun c => { c with reason := reason, bad := a })
      match s.firstRefused io true (lineParts dst sp.2), s.firstUnread io (lineParts src sp.2) with
      | some a, _ => fail 2 a
      | none, some a => fail (reasonOf a.2) a.1
      | none, none =>
        match (s.engineDest io dst sp.2).bind (fun a => (s.engineRead io none src sp.2).bind (fun b => .ok (a.zip b))) with
        | .miss q => s.ask q
        | .bad rank => fail (reasonOf rank) dst
        | .ok cells =>
          let a := (cells.head?.map (·.1)).getD 0
          match homeOf a with
          | .remote d =>
            if s.unreachable.contains d then fail 5 dst
            else (s.sendItem d (remoteLane a).2 (.copyUnit c.queue c.packet u cells)).updCopy c.queue c.packet
              (fun c => { c with flying := c.flying ++ [u] })
          | _ => (s.homeWrites cells none).updCopy c.queue c.packet (fun c => { c with moved := c.moved ++ [u] })

/-- RQMOVE (R255): of a core's request engine, or of the copy engine of the I/O die. -/
def execRqmove (core req unit : Nat) (s : State) : Host.Outcome State Fault Refusal :=
  .next (if core = ioKey then s.moveCopy req unit else s.moveReq core req unit)

end Sys2Proof.Machine
end

