-- ==== Sys2Proof/Machine/Compositor.lean ====
section
/-!
DEFINITION. The compositor-class instructions (R281 to R284). Each acts for its active lanes in ascending order, each lane on
its own slot; the whole word waits until every access of it translates, and a fault of a lane leaves no lane's effect.
-/
namespace Sys2Proof.Machine

/-- What one lane's effect comes to: a value, a translation to wait for, a refused access by its rank, ILLEGAL_INSTRUCTION. -/
inductive CRes (α : Type)
  | ok (x : α)
  | miss (q : Ask)
  | bad (rank : Nat)
  | ill

def CRes.bind {α β : Type} (x : CRes α) (f : α → CRes β) : CRes β :=
  match x with
  | .ok a => f a
  | .miss q => .miss q
  | .bad k => .bad k
  | .ill => .ill

def CRes.of {α : Type} (x : Eng α) : CRes α :=
  match x with
  | .ok a => .ok a
  | .miss q => .miss q
  | .bad k => .bad k

/-- The slot of a lane (R281). -/
def Ctx.slotOf (c : Ctx) (lane : Nat) : Nat := 32 * (c.gang.coreKey - 256) + lane

/-- The queue in a slot (R272). -/
def State.slotQueue (s : State) (slot : Nat) : Option Queue := s.queues.find? (fun q => q.slot == some slot)

/-- One lane after another, collecting their results. -/
def compFold (f : Nat → State → CRes (List RegWrite × State)) (lanes : List Nat) (s : State) : CRes (List RegWrite × State) :=
  lanes.foldl (fun acc k => acc.bind (fun r => (f k r.2).bind (fun q => .ok (r.1 ++ q.1, q.2)))) (.ok ([], s))

/-- The code of a refused access by its rank in R155. -/
def rankCode (rank : Nat) : Code :=
  match rank with
  | 1 => .spaceInvalid
  | 3 => .misaligned
  | _ => .accessDenied

/-- The party that acts for the queue in a slot. -/
def Queue.party (q : Queue) (slot : Nat) : Party := ioParty (ioWork 4 slot) q.pasid

/-- Results written at issue (R281, `qarm`). -/
def Gang.writeNow (g : Gang) (l : List RegWrite) : Gang :=
  l.foldl (fun (g : Gang) w => match w with
    | .v reg lane x => g.wrV reg lane x
    | _ => g) g

/-- The word goes on with the lanes that have not acted, in transitions of their own (R285). -/
def State.keepLanes (s : State) (c : Ctx) (rest : List Nat) (op : Option Nat) : State :=
  s.updGang c.uid (fun g => match g.group? c.slice with
    | some r => g.setGroup { r with
        pend := lanesOfList rest, run := r.run.map (fun (u : Run) => { u with replaying := true, replay := op }) }
    | none => g)

/-- One lane of a word has acted: its results are written at issue, or join the operation that lands under flag A with the last
lane's (R281). -/
def Ctx.laneDone (c : Ctx) (atIssue : Bool) (writes : List RegWrite) (rest : List Nat) (s : State) : Res :=
  if atIssue then
    let s := s.updGang c.uid (fun g => g.writeNow writes)
    if rest.isEmpty then .ok s else .left (s.keepLanes c rest none)
  else
    let js := s.joinOp c (fun id => Op.make id .result none c.run.header.fa c.pc)
      (fun o => { o with done := rest.isEmpty, writes := o.writes ++ writes })
    if rest.isEmpty then .ok js.1 else .left (js.1.keepLanes c rest (some js.2))

/-- What a word comes to that a lane keeps from going on. -/
def Ctx.laneStop {α : Type} (c : Ctx) (s : State) (x : CRes α) : Res :=
  match x with
  | .miss q => .left (s.ask q)
  | .bad rank => .trap s (rankCode rank) c.pc
  | _ => .trap s .illegalInstruction c.pc

/-- A lane-wise compositor word (R281, R285): the lanes act one after another in ascending number, each in a transition of its
own. The first acts only once all of them could, so that a fault of a lane leaves no lane's effect (R6); a later lane that can act no
more, what it names having gone in between, takes no effect and writes no DST (log 56). -/
def compIssue (atIssue : Bool) (f : Ctx → Nat → State → CRes (List RegWrite × State)) (s : State) : State :=
  issue (fun c s =>
    match laneList c.activeAll with
    | [] => c.laneDone atIssue [] [] s
    | k :: rest =>
      let dropped (s : State) (j : Nat) : State := s.dropWaiter (ioWork 4 (c.slotOf j))
      match (if c.run.replaying then .ok ([], s) else compFold (f c) (k :: rest) s), f c k s with
      | .ok _, .ok (writes, s') => c.laneDone atIssue writes rest (dropped s' k)
      | .ok _, .miss q | .miss q, _ => .left (s.ask q)
      | .ok _, _ => c.laneDone atIssue [] rest (dropped s k)
      | x, _ => c.laneStop ((k :: rest).foldl dropped s) x) s

/-! ## PKTLD -/

/-- The next index to fetch: the first from the fetch index that is not DISPATCHED or DONE in the window. -/
def Queue.nextFetch : Nat → Queue → Nat → Nat
  | 0, _, i => i
  | n + 1, q, i => match q.pkt? i with
    | some p => if p.dispatched || p.done then Queue.nextFetch n q (i + 1) else i
    | none => i

def windowSize : Nat := 8

/-- Is the window full? -/
def Queue.full (q : Queue) (i : Nat) : Bool := windowSize ≤ i - q.rdidx || (windowSize ≤ q.window.length && (q.pkt? i).isNone)

/-- The watch list of a BARRIER or WAIT: the translated addresses of its signals; a refused one is not watched. -/
def State.watchList (s : State) (q : Queue) (slot : Nat) (p : Pkt) : Eng (List Nat) :=
  (engMap (fun (e : Nat × W64) => (s.engineAt (q.party slot) false e.2 8 8).orNone)
    (if p.check = 0 then p.signals else [])).bind (fun l => .ok (l.filterMap id))

/-- FETCH for one lane (R282, R285). -/
def State.fetchPacket (s : State) (slot : Nat) : CRes (Option Pkt × State) :=
  match s.slotQueue slot with
  | none => .ok (none, s)
  | some q =>
    let i := Queue.nextFetch windowSize q q.fetch
    if q.state != .mapped || q.hold || q.full i || q.wridx ≤ i then .ok (none, s)
    else (CRes.of (s.engineRead (q.party slot) none (q.slotAddr i) 256)).bind fun b =>
      if fieldOf b 255 1 != q.tag i then .ok (none, s)
      else
        let p := s.parsePkt i b
        if p.bar && !q.allStarted i then .ok (none, s)
        else
          let p := match q.pkt? i with
            | some old => { p with started := old.started, seen := old.seen }
            | none => { p with seen := p.seen0 }
          (CRes.of (s.watchList q slot p)).bind fun w =>
            let q' := { q.setPkt p with fetch := i + 1, hold := q.hold || p.bar }
            let q' := if p.ty = 2 || p.ty = 5 then { q' with watches := w } else q'
            .ok (some { p with words := p.words ++ [BitVec.ofNat 32 (fieldOf b 252 3 + p.check * 2 ^ 24)] },
              (s.setQueue q').compRec 2 i q.qnum (slot % 32))

/-- PKTLD (R282). -/
def execPktld (f : FmtQ) (s : State) : Host.Outcome State Fault Refusal :=
  .next (compIssue false (fun c k s =>
    (s.fetchPacket (c.slotOf k)).bind fun r => match r.1 with
      | none => .ok ([.m (match f.a with | .m n => n.toNat | _ => 0) (Lanes1 k) 0], r.2)
      | some p => .ok (p.words.mapIdx (fun j x => RegWrite.v (regNum f.dst + j) k x) ++
          [.m (match f.a with | .m n => n.toNat | _ => 0) (Lanes1 k) (Lanes1 k)], r.2)) s)

/-! ## PKTDONE -/

/-- The packet at a window offset from RDIDX. -/
def Queue.atOffset (q : Queue) (o : Nat) : Option Pkt := if o < windowSize then q.pkt? (q.rdidx + o) else none

/-- The fault record of a malformed packet (R270). -/
def Queue.malformedRecord (q : Queue) (p : Pkt) : List Byte :=
  faultBytes Code.packetMalformed.num 0 0 p.idx (if p.check = 5 then p.word64 8 else q.slotAddr p.idx) 0 0 p.check

/-- `pktdone` for one lane: a packet that has not started starts with it, with its acquire scope, unless it is aborted (R263,
R285); of a queue in TEARDOWN none starts, and the lane reads RDIDX alone (R279; log 56). -/
def State.pktdone (s : State) (slot code off : Nat) : CRes (W32 × State) :=
  match s.slotQueue slot with
  | none => .ill
  | some q =>
    match q.atOffset off with
    | none => .ill
    | some p =>
      if p.done then .ill
      else if q.state == .teardown && !p.started then .ok (BitVec.ofNat 32 q.rdidx, s)
      else
        let q := if p.ty = 6 && code = 0 then { q with abort := false } else q
        let s := if p.started || code != 0 then s else s.startPkt q slot p
        (CRes.of (s.completePacket q p (code != 0) (if code = 2 then some (q.malformedRecord p) else none))).bind
          fun s' => .ok (BitVec.ofNat 32 (((s'.queue? q.qnum).map (fun x => x.rdidx)).getD 0), s')

/-- PKTDONE (R282). -/
def execPktdone (f : FmtQ) (s : State) : Host.Outcome State Fault Refusal :=
  .next (compIssue false (fun c k s =>
    (s.pktdone (c.slotOf k) f.sel.toNat (c.gang.lane32 s.now f.a k)).bind fun r =>
      .ok ([.v (regNum f.dst) k r.1], r.2)) s)

/-! ## SIGRMW -/

/-- Does a packet name the signal that the lane reads or writes: a SIGNAL by its operation, a BARRIER or WAIT by a read? -/
def Pkt.usesSignal (p : Pkt) (ea : W64) (op : Nat) : Bool :=
  !p.done && p.check == 0 && (if p.ty = 3 then op != 2 && p.word64 8 == ea else op == 2 && p.signals.any (fun e => e.2 == ea))

/-- The packets that a read or write of a signal starts (R263): those that name it, have not started and may start now (R266,
R268). -/
def Queue.startsWith (q : Queue) (ea : W64) (op : Nat) : List Pkt :=
  q.window.filter (fun p => p.usesSignal ea op && !p.started && !q.abort && q.mayStart p)

/-- What a started packet learns of its signal: a read of 0 sets an entry's seen bit (R287). -/
def Pkt.noteSignal (p : Pkt) (ea : W64) (val : W64) : Pkt :=
  if p.ty != 2 || val != 0 then p
  else { p with seen := p.signals.foldl (fun (m : BitVec 6) e => if e.2 == ea then m ||| (1 : BitVec 6) <<< e.1 else m) p.seen }

/-- `sigrmw` for one lane; of a queue in TEARDOWN no packet starts, and the signal is only read (R279; log 56). -/
def State.sigrmw (s : State) (slot op rel : Nat) (ea x : W64) : CRes (W64 × State) :=
  match s.slotQueue slot with
  | none => .bad 5
  | some q =>
    (CRes.of (s.engineAt (q.party slot) (op != 2) ea 8 8)).bind fun a =>
      let op := if q.state == .teardown then 2 else op
      let starts := if q.state == .teardown then [] else q.startsWith ea op
      let s := starts.foldl (fun (s : State) p => s.startPkt q slot p) s
      let s := if rel = 2 then s.releaseSystem else s
      let r := s.signalOp a op x
      let s' := match q.window.find? (fun p => p.usesSignal ea op && (p.started || starts.contains p)) with
        | some p => if op = 2 then r.2.compRec 4 p.idx q.qnum (slot % 32) else r.2
        | none => r.2
      .ok (r.1, s'.updQueue q.qnum (fun q => { q with window := q.window.map (fun p =>
        let p : Pkt := if starts.any (fun e => e.idx == p.idx) then { p with started := true } else p
        if p.started && p.usesSignal ea op then p.noteSignal ea r.1 else p) }))

/-- SIGRMW (R282). -/
def execSigrmw (f : FmtQ) (s : State) : Host.Outcome State Fault Refusal :=
  .next (compIssue false (fun c k s =>
    let op := bits f.sel.toNat 1 0
    let rel := bits f.sel.toNat 3 2
    (s.sigrmw (c.slotOf k) op rel (c.gang.lane64 s.now f.a k) (c.gang.lane64 s.now f.b k)).bind fun r =>
      .ok ([.v (regNum f.dst) k (loHalf r.1), .v (regNum f.dst + 1) k (hiHalf r.1)], r.2)) s)

/-! ## QSAVE, QLOAD, QARM -/

/-- The named fields of a QCB, bytes 0 to 63 (R261). -/
def Queue.qcbBytes (q : Queue) : List Byte :=
  leBytes 8 q.base.toNat ++ leBytes 8 q.rdidx ++ leBytes 8 q.wridx ++
    leBytes 4 (q.log2 + q.prio * 2 ^ 8 + (if q.priv then 2 ^ 12 else 0)) ++ leBytes 4 q.pasid ++
    leBytes 4 q.stateWord ++ leBytes 4 q.qnum ++
    leBytes 8 q.faultrec.toNat ++ leBytes 8 q.ctxpool.toNat ++ leBytes 8 0

/-- Does a queue hold what a PRIVATE of all zeros does not stand for (R261)? -/
def Queue.inWork (q : Queue) : Bool := q.fetch != q.rdidx || !q.window.isEmpty || !q.watches.isEmpty

/-- PRIVATE is written in a layout of the device's own: its bytes are free, but not all zero for a queue in work (R261; log 10). -/
def State.privateBytes (s : State) (q : Queue) : List Byte :=
  (List.range 64).map (fun k =>
    let x := Config.freeNat s.now (2 ^ 20 + q.qnum * 64 + k)
    BitVec.ofNat 8 (if k = 0 && q.inWork then 1 + x % 255 else x))

def watchTableSize : Nat := 1024

/-- The fetch index that a save leaves: the oldest packet neither started nor done, else unchanged (R282). -/
def Queue.rewound (q : Queue) : Nat :=
  (q.window.filter (fun p => !p.started && !p.done)).foldl (fun m p => min m p.idx) q.fetch

/-- Work waiting (R272): the fetch index is below the write index, or a fetched packet has not completed. -/
def State.workWaiting (s : State) (q : Queue) : Bool := q.fetch < s.doorbell q.qnum || q.window.any (fun p => !p.done)

/-- SAVE for one lane (R272, R282). -/
def State.qsave (s : State) (slot : Nat) (ea : W64) : CRes State :=
  match s.slotQueue slot with
  | none => .ill
  | some q =>
    if q.armed then .ill
    else
      let q' := { q with
        fetch := q.rewound, slot := none, saved := true
        window := q.window.filter (fun p => p.started || p.done)
        state := if q.state == .mapped then QState.unmapped else q.state }
      (CRes.of (s.engineDest (q.party slot) ea 128)).bind fun a =>
        let waiting := s.workWaiting { q with fetch := q.rewound }
        let s := (s.ioWrite a (q'.qcbBytes ++ s.privateBytes q')).releaseSystem
        let moved := q.watches.map (fun w => (q.qnum, w))
        let s := if s.watchTable.length + moved.length ≤ watchTableSize then { s with watchTable := s.watchTable ++ moved } else s
        let s := if waiting then s.setPending q.qnum else s
        .ok ((s.setQueue q').compRec 6 0 q.qnum (slot % 32))

/-- QSAVE (R282). -/
def execQsave (f : FmtQ) (s : State) : Host.Outcome State Fault Refusal :=
  .next (compIssue false (fun c k s =>
    (s.qsave (c.slotOf k) (c.gang.lane64 s.now f.a k)).bind fun s => .ok ([], s)) s)

/-- A QCB of 128 bytes as a queue's fields, where no field breaks R261; a PRIVATE of all zeros is an empty window, with no watches
and the fetch index at RDIDX. -/
def Queue.parse (q : Queue) (b : List Byte) : Option Queue :=
  let u := fieldOf b
  let cfg := u 24 4
  let st := u 32 4
  let held := q.saved && (b.drop 64).any (fun x => x != 0)
  let ok := u 0 1 == 0 && signalAddr (BitVec.ofNat 64 (u 0 8)) && 4 ≤ cfg % 32 && cfg % 32 ≤ 16 && cfg / 2 ^ 13 == 0 &&
    u 28 4 == q.pasid && st % 8 ≤ 3 && st / 2 ^ 10 == 0 && u 36 4 == q.qnum && u 56 8 == 0
  if ok then some
    { q with base := BitVec.ofNat 64 (u 0 8), rdidx := u 8 8, log2 := cfg % 32, prio := bits cfg 11 8, priv := bit cfg 12
             abort := bit st 8, hold := bit st 9, faultrec := BitVec.ofNat 64 (u 40 8)
             ctxpool := BitVec.ofNat 64 (u 48 8)
             fetch := if held then q.fetch else u 8 8, window := if held then q.window else []
             watches := if held then q.watches else [] }
  else none

/-- LOAD for one lane (R272, R273, R282): 0 loaded, 1 dead, 2 bad QCB, 3 mapped elsewhere. -/
def State.qload (s : State) (slot : Nat) (ea : W64) : CRes (Nat × State) :=
  if (s.slotQueue slot).isSome then .ill
  else match s.queues.find? (fun q => q.qcb == ea && q.state != .dead && ea != 0) with
    | none => .ok (2, s)
    | some q =>
      if ea.toNat % 128 != 0 then .ok (2, s)
      else (CRes.of (s.engineRead (q.party slot) none ea 128).orNone).bind fun r => match r with
        | none => .ok (2, s)
        | some b =>
          let st := fieldOf b 32 4 % 8
          if st = 2 || st = 3 || q.state == .teardown then .ok (1, s)
          else match q.parse b with
            | none => .ok (2, s)
            | some q' =>
              if q.slot.isSome then .ok (3, s)
              else
                let s := s.compRec 6 0 q.qnum (slot % 32)
                .ok (0, State.setQueue { s with watchTable := s.watchTable.filter (fun w => w.1 != q.qnum) }
                  { q' with slot := some slot, wridx := s.doorbell q.qnum, armed := false, state := .mapped })

/-- QLOAD (R282). -/
def execQload (f : FmtQ) (s : State) : Host.Outcome State Fault Refusal :=
  .next (compIssue false (fun c k s =>
    (s.qload (c.slotOf k) (c.gang.lane64 s.now f.a k)).bind fun r =>
      .ok ([.v (regNum f.dst) k (BitVec.ofNat 32 r.1)], r.2)) s)

/-- ARM and DISARM for one lane (R272, R282); what kicks have left in the doorbell table comes in with the arming. -/
def State.qarm (s : State) (slot : Nat) (on : Bool) : CRes (Nat × State) :=
  match s.slotQueue slot with
  | none => .ill
  | some q =>
    let s := (s.setQueue { q with armed := on, wridx := if on then s.doorbell q.qnum else q.wridx }).compRec 6 0 q.qnum (slot % 32)
    if on && s.pending.contains q.qnum then
      .ok (1, State.wakeLane { s with pending := s.pending.filter (· != q.qnum) } slot)
    else .ok (0, s)

/-- QARM (R282): at issue. -/
def execQarm (f : FmtQ) (s : State) : Host.Outcome State Fault Refusal :=
  .next (compIssue true (fun c k s =>
    (s.qarm (c.slotOf k) (f.sel == 1)).bind fun r => .ok ([.v (regNum f.dst) k (BitVec.ofNat 32 r.1)], r.2)) s)

/-! ## DISPATCH -/

/-- START of a LAUNCH or COPY for one lane (R265, R276, R282); of a queue in TEARDOWN none starts (R279). -/
def State.dispatchPacket (s : State) (slot kind off : Nat) : CRes (Nat × State) :=
  match s.slotQueue slot with
  | none => .ill
  | some q =>
    match q.atOffset off with
    | none => .ill
    | some p =>
      if p.started || p.done || p.ty != (if kind = 0 then 1 else 4) then .ill
      else if p.check != 0 then .ok (2, s)
      else if q.state == .teardown || q.abort || !q.mayStart p || (kind == 1 && copyLimit ≤ s.copies.length) then .ok (1, s)
      else
        let s0 := s
        let s := s.startScope q p
        let take (s : State) (grid : Option Nat) : State :=
          ((s.startRec q slot p).updQueue q.qnum (fun q => q.setPkt { p with started := true, dispatched := true, grid := grid })).ageQueues
            q.qnum slot
        if kind = 1 then
          .ok (0, take { s with copies := s.copies ++
            [{ queue := q.qnum, packet := p.idx, pasid := q.pasid, dst := p.word64 8, src := p.word64 16
               count := (p.word64 24).toNat, moved := [], flying := [], reason := 0, bad := 0 }] } none)
        else (CRes.of (s.readDesc (q.party slot).who q.pasid (p.word64 8))).bind fun d => match d with
          | none => .ok (2, s0.setQueue (q.setPkt { p with check := 5 }))
          | some d => .ok (0, take (s.newGrid q p.idx d (p.word64 16) (p.word64 24) none) (some s.nextUid))

/-- DISPATCH (R282). -/
def execDispatch (f : FmtQ) (s : State) : Host.Outcome State Fault Refusal :=
  .next (compIssue false (fun c k s =>
    (s.dispatchPacket (c.slotOf k) f.sel.toNat (c.gang.lane32 s.now f.a k)).bind fun r =>
      .ok ([.v (regNum f.dst) k (BitVec.ofNat 32 r.1)], r.2)) s)

/-! ## PENDSCAN (R283) -/

/-- The first set bit of the pending vector from a start, upwards and cyclically. -/
def State.firstPending (s : State) (start : Nat) : Option Nat :=
  s.pending.foldl (fun (best : Option Nat) q => match best with
    | none => some q
    | some b => if (q + 4096 - start % 4096) % 4096 < (b + 4096 - start % 4096) % 4096 then some q else best) none

def State.wakeMask (s : State) (core : Nat) : W32 := if core == 256 then s.wake0 else s.wake1

def State.clearWake (s : State) (core : Nat) : State := if core == 256 then { s with wake0 := 0 } else { s with wake1 := 0 }

/-- PENDSCAN (R283): with WAIT and nothing found the group sleeps, until PENDSCAN_WAKE, and then executes. -/
def execPendscan (f : FmtQ) (s : State) : Host.Outcome State Fault Refusal :=
  .next (issue (fun c s =>
    let core := c.gang.coreKey
    let lanes := f.sel.getLsbD 0
    let wait := f.sel.getLsbD 1 && !c.run.collected
    let s := s.compRec 7 0 0 0
    let none? := if lanes then s.wakeMask core == 0 else s.pending.isEmpty
    if wait && none? then .left (s.holdAs c .sleepScan)
    else if lanes then .ok ((s.setGang (c.gang.wrScalar32 f.dst (s.wakeMask core).toNat)).clearWake core)
    else match s.firstPending (c.gang.scalar32 s.now f.a) with
      | none => .ok (s.setGang (c.gang.wrScalar32 f.dst 0xFFFFFFFF))
      | some q => .ok (State.setGang { s with pending := s.pending.filter (· != q) } (c.gang.wrScalar32 f.dst q))) s)

end Sys2Proof.Machine
end

