-- ==== Sys2Proof/Machine/Control.lean ====
section
/-!
DEFINITION. The control instructions (R113 to R122) and `rte` (R199, R200).
-/
namespace Sys2Proof.Machine

/-- The address a branch word names: its own address + 8 × TARGET (R74). -/
def Ctx.target (c : Ctx) (t : BitVec 24) : W64 := c.pc + BitVec.ofInt 64 (8 * t.toInt)

/-- The whole group branches (R114). -/
def Ctx.goto (c : Ctx) (s : State) (g : Gang) (t : W64) (st : GStatus) : Res :=
  .ok (s.setGang (g.setGroup { c.grp with status := st, run := some { c.run with next := some t } }))

/-- Some of the active lanes branch and the group splits, its fall-through part going on; a push past the stack's limit faults
before any effect (R45, R118). -/
def Ctx.splitTo (c : Ctx) (s : State) (take : Lanes) (t : W64) : Res :=
  match c.gang.branch c.grp c.run c.base take t with
  | some (g, k) => .left ((s.setGang g).advance c.uid k)
  | none => .trap s .illegalConvergence c.pc

/-- BRA (R114): the whole group branches, also where some of its active lanes skip the word (log 53). -/
def execBra (f : FmtB) (s : State) : Host.Outcome State Fault Refusal :=
  .next (issue (fun c s => c.goto s c.gang (c.target f.target) c.grp.status) s)

/-- BRU (R114): A is read once. -/
def execBru (f : FmtB) (s : State) : Host.Outcome State Fault Refusal :=
  .next (issue (fun c s =>
    if (c.gang.scalar32 s.now f.a != 0) == (f.cond == .nz) then c.goto s c.gang (c.target f.target) c.grp.status else .ok s) s)

/-- The active lanes that take a `brv` or `brau` (R115). -/
def Ctx.takers (c : Ctx) (now : Nat) (f : FmtB) : Lanes :=
  let hold := c.gang.condLanes now f.a c.activeAll
  if f.cond == .nz then hold else c.activeAll &&& ~~~ hold

/-- BRV (R115, R45, R116): a group with no active lane falls through. -/
def execBrv (f : FmtB) (s : State) : Host.Outcome State Fault Refusal :=
  .next (issue (fun c s => c.splitTo s (c.takers s.now f) (c.target f.target)) s)

/-- BRAU (R115): all active lanes, none, or UNIFORM_DIVERGED, among the lanes that do not skip the word (R120). -/
def execBrau (f : FmtB) (s : State) : Host.Outcome State Fault Refusal :=
  .next (issue (fun c s =>
    let take := c.takers s.now f
    if take == 0 then .ok s
    else if take == c.activeAll then c.goto s c.gang (c.target f.target) c.grp.status
    else .trap s .uniformDiverged c.pc) s)

/-- SKIP (R79, R120): the lanes that skip each of the next n words; the lanes that skip the `skip` itself take no part in it, which the
spec leaves open (log 53). -/
def execSkip (f : FmtK) (s : State) : Host.Outcome State Fault Refusal :=
  .next (issue (fun c s =>
    let n := f.imm.toNat % 2 ^ 16
    let cond := f.imm.getLsbD 16
    let sk := (if cond then c.gang.condLanes s.now f.a c.lanes else c.lanes) &&& ~~~ c.skip
    let whole := !(cond && f.a.isS) || c.gang.scalar32 s.now f.a != 0
    let new := (List.range n).map (fun k => (c.run.idx + 1 + k, sk, whole))
    .ok (s.setGang (c.gang.setGroup { c.grp with run := some { c.run with skips := c.run.skips ++ new } }))) s)

/-- CALL (R119): the address of the word after the call to a pair. -/
def execCall (f : FmtBL) (s : State) : Host.Outcome State Fault Refusal :=
  .next (issue (fun c s => c.goto s (c.gang.wrScalar64 f.dst (c.pc + 8)) (c.target f.target) c.grp.status) s)

/-- RET (R119). -/
def execRet (f : FmtB) (s : State) : Host.Outcome State Fault Refusal :=
  .next (issue (fun c s => c.goto s c.gang (c.gang.scalar64 s.now f.a) c.grp.status) s)

/-! ## Joins and exits -/

/-- What a slice of a joining or exiting group does: go to an address, ready or held there as at a `join`. -/
structure SliceMove where
  (slice : Nat)
  (addr : W64)
  (held : Bool)
deriving DecidableEq, Repr, Inhabited

/-- Slices that go to one address in one state form one group; groups in the order of their first slice (R117, R121). -/
def groupsOf (l : List SliceMove) : List Group :=
  l.foldl (fun (acc : List Group) m =>
    let st : GStatus := if m.held then .heldJoin else .ready
    if acc.any (fun r => r.pc == m.addr && r.status == st) then
      acc.map (fun r => if r.pc == m.addr && r.status == st then { r with slices := r.slices ||| (1 : Slices) <<< m.slice } else r)
    else acc ++ [{ Group.at ((1 : Slices) <<< m.slice) m.addr with status := st }]) []

def Gang.stack (g : Gang) (k : Nat) : List StackEntry := (g.reconv[k]?).getD []
def Gang.setStack (g : Gang) (k : Nat) (st : List StackEntry) : Gang :=
  { g with reconv := g.reconv.mapIdx (fun j x => if j == k then st else x) }

/-- Replace the lanes of one slice in `em`. -/
def Gang.sliceEm (g : Gang) (k : Nat) (x : Lanes) : Gang :=
  { g with em := (g.em &&& ~~~ (lanesOfSlice k)) ||| (x &&& lanesOfSlice k) }

/-- `join label` for one slice by its top entry, cases 1 to 3 of R117. -/
def Gang.joinSlice (g : Gang) (label : W64) (k : Nat) : Gang × SliceMove :=
  match g.stack k with
  | [] => (g, ⟨k, label, true⟩)
  | e :: rest =>
    if e.merge then ((g.setStack k rest).sliceEm k (g.em ||| e.lanes), ⟨k, label, true⟩)
    else
      ((g.setStack k ({ merge := true, lanes := g.em &&& lanesOfSlice k, addr := label } :: rest)).sliceEm k e.lanes,
        ⟨k, e.addr, false⟩)

/-- Case 4 of R117: a MERGE entry with another address. -/
def Gang.joinBad (g : Gang) (label : W64) (slices : Slices) : Bool :=
  (sliceList slices).any (fun k => match g.stack k with
    | e :: _ => e.merge && e.addr != label
    | [] => false)

/-- One function over the slices of a set in ascending number, each giving a move. -/
def Gang.moveSlices (g : Gang) (slices : Slices) (f : Gang → Nat → Gang × Option SliceMove) : Gang × List SliceMove :=
  (sliceList slices).foldl (fun acc k =>
    let r := f acc.1 k
    (r.1, acc.2 ++ r.2.toList)) (g, [])

/-- JOIN (R117): the whole group joins, with all of its lanes, also where some of its active lanes skip the word (log 53). -/
def execJoin (f : FmtB) (s : State) : Host.Outcome State Fault Refusal :=
  .next (issue (fun c s =>
    let label := c.target f.target
    let x := c.grp.slices &&& c.gang.live
    if c.gang.joinBad label x then .trap s .illegalConvergence c.pc
    else
      let g := c.gang.leaveClause c.grp c.grp
      let r := g.moveSlices x (fun g k => let m := g.joinSlice label k; (m.1, some m.2))
      .left (s.setGang (r.1.replaceGroups c.grp.slices (groupsOf r.2)))) s)

/-- GANG_ALL (R121): the wait of R50, and nothing further. -/
def execGangAll (_f : FmtK) (s : State) : Host.Outcome State Fault Refusal :=
  .next (issueWord true false (fun _ s => .ok s) s)

/-- `exit` for one slice (R121): its active lanes that do not skip the word retire; lanes of the slice that skip it go on to
the next clause (R79); else the top entry continues, and with an empty stack the slice retires. -/
def Gang.exitSlice (g : Gang) (c : Ctx) (next : W64) (k : Nat) : Gang × Option SliceMove :=
  let lanes := lanesOfSlice k
  let act := c.base &&& lanes
  let out := act &&& ~~~ c.skip
  let g := { g with present := g.present &&& ~~~ out, em := g.em &&& ~~~ out }
  if act &&& c.skip != 0 || (act == 0 && c.lanes &&& lanes != 0 && (c.lanes &&& lanes &&& ~~~ c.skip) == 0) then
    (g, some ⟨k, next, false⟩)
  else
    match g.stack k with
    | [] => ({ g with exited := g.exited ||| (1 : Slices) <<< k }, none)
    | e :: rest => ((g.setStack k rest).sliceEm k e.lanes, some ⟨k, e.addr, e.merge⟩)

/-- A trap ends once every slice that entered has exited, and an `rte` completes once all that are left stand at one; an
uneven stack there is a double fault (R200, R201). -/
def State.settleTrap (s : State) (uid : Nat) (pc : W64) : State :=
  match s.gang? uid with
  | none => s
  | some g =>
    match g.trap with
    | none => s
    | some t =>
      if t.slices &&& g.live == 0 then s.setGang ((g.takePending t.allot0).endTrap t)
      else if g.rteComplete t then
        if g.rteUneven t then
          s.unhandled uid { code := .illegalConvergence, tval := pc, tret := pc, word := 0, mid := none, skips := [], allot := none }
            (some t.code0)
        else s.setGang (g.finishRte t)
      else s

/-- Would the exit retire the gang's last slices? -/
def Ctx.lastExit (c : Ctx) : Bool :=
  (c.gang.live &&& ~~~ c.grp.slices) == 0 && (sliceList c.grp.slices).all (fun k => (c.gang.stack k).isEmpty)

/-- EXIT (R121): a latched error that nothing has waited for is raised at the exit of the gang's last slice (R209). -/
def execExit (_f : FmtK) (s : State) : Host.Outcome State Fault Refusal :=
  .next (issue (fun c s =>
    match (if c.lastExit then c.gang.latchedErr 0 none true else none) with
    | some e => .trap (s.setGang (c.gang.dropErr e)) e.code e.tval
    | none =>
      match c.gang.place with
      | .handler core => .left ((s.setGang (c.gang.leaveClause c.grp c.grp)).endHandling core c.uid)
      | .compositor core => .left ((s.setGang (c.gang.leaveClause c.grp c.grp)).stopCompositor core)
      | _ =>
        let next := c.run.after
        let g := c.gang.leaveClause c.grp c.grp
        let r := g.moveSlices (c.grp.slices &&& g.live) (fun g k => g.exitSlice c next k)
        let s := s.setGang (r.1.replaceGroups c.grp.slices (groupsOf r.2))
        .left ((s.retestBars c.uid).settleTrap c.uid c.pc)) s)

/-- TRAP (R121, R197): SOFTWARE_TRAP with n in `%tval`; `%tret` is the word after it, or the next clause header, and then the clause
has ended, and a pending allotment with it (R204). -/
def execTrap (f : FmtK) (s : State) : Host.Outcome State Fault Refusal :=
  .next (issue (fun c s =>
    let f : Raise := { c.raise .softwareTrap (BitVec.ofNat 64 f.imm.toNat) with tret := c.pc + 8 }
    if c.run.words.length ≤ c.run.idx + 1 then
      .left ((s.setGang (c.gang.takePending c.run.allot)).takeFault c.uid c.slice { f with mid := none, skips := [], allot := none })
    else .left (s.takeFault c.uid c.slice f)) s)

/-- YIELD (R122): asleep until the `req` counter is at most c, then on at the label. -/
def execYield (f : FmtB) (s : State) : Host.Outcome State Fault Refusal :=
  .next (issue (fun c s =>
    c.goto s c.gang (c.target f.target) (.sleepYield (c.gang.scalar32 s.now f.a))) s)

/-- NOP (R121). -/
def execNop (_f : FmtK) (s : State) : Host.Outcome State Fault Refusal := .next (issue (fun _ s => .ok s) s)

/-- RTE (R199, R200): ends the debug handler's handling (R296); outside a handler it faults; else the group holds until
every slice of the handler has arrived. -/
def execRte (_f : FmtK) (s : State) : Host.Outcome State Fault Refusal :=
  .next (issue (fun c s =>
    match c.gang.place with
    | .handler core => .left ((s.setGang (c.gang.leaveClause c.grp c.grp)).endHandling core c.uid)
    | _ =>
      if c.gang.inHandler c.grp then
        .left ((s.setGang (c.gang.leaveClause c.grp { c.grp with status := .heldRte, pc := c.pc })).settleTrap c.uid c.pc)
      else .trap s .illegalInstruction c.pc) s)

end Sys2Proof.Machine
end

