-- ==== Sys2Proof/Machine/MaskSpecial.lean ====
section
/-!
DEFINITION. The mask instructions (R111, R112) and the special registers (R47, R98, R123 to R127).
-/
namespace Sys2Proof.Machine

/-- The lanes a mask instruction writes and counts: the group's gang mask, less the lanes that skip it (R111, R120). -/
def Ctx.maskLanes (c : Ctx) : Lanes := c.lanes &&& ~~~ c.skip

def maskForm (f : Nat → Gang → Lanes → Gang) (s : State) : State :=
  issueWord false true (fun c s => .ok (s.setGang (f s.now c.gang c.maskLanes))) s

def maskBin (op : Lanes → Lanes → Lanes) (f : FmtS) (s : State) : State :=
  maskForm (fun now g lanes => g.wrMask f.dst lanes (op (g.maskVal now f.a) (g.maskVal now f.b))) s

/-- MAND (R112). -/
def execMand (f : FmtS) (s : State) : Host.Outcome State Fault Refusal := .next (maskBin (· &&& ·) f s)

/-- MOR (R112). -/
def execMor (f : FmtS) (s : State) : Host.Outcome State Fault Refusal := .next (maskBin (· ||| ·) f s)

/-- MXOR (R112). -/
def execMxor (f : FmtS) (s : State) : Host.Outcome State Fault Refusal := .next (maskBin (· ^^^ ·) f s)

/-- MNOT (R112). -/
def execMnot (f : FmtS) (s : State) : Host.Outcome State Fault Refusal :=
  .next (maskForm (fun now g lanes => g.wrMask f.dst lanes (~~~ (g.maskVal now f.a))) s)

/-- MMOV (R112). -/
def execMmov (f : FmtS) (s : State) : Host.Outcome State Fault Refusal :=
  .next (maskForm (fun now g lanes => g.wrMask f.dst lanes (g.maskVal now f.a)) s)

/-- A mask instruction with a scalar destination: it executes only where an active lane does not skip it (R104, R120). -/
def maskCount (f : Nat → Gang → Lanes → Gang) (s : State) : State :=
  issue (fun c s => .ok (s.setGang (f s.now c.gang c.maskLanes))) s

/-- MPOPC (R112). -/
def execMpopc (f : FmtS) (s : State) : Host.Outcome State Fault Refusal :=
  .next (maskCount (fun now g lanes => g.wrScalar32 f.dst (laneCount (g.maskVal now f.a &&& lanes))) s)

/-- MFIRST (R112): the lowest set lane, or 0xFFFF_FFFF. -/
def execMfirst (f : FmtS) (s : State) : Host.Outcome State Fault Refusal :=
  .next (maskCount (fun now g lanes =>
    g.wrScalar32 f.dst (match (laneList (g.maskVal now f.a &&& lanes)).head? with
      | some k => k
      | none => 0xFFFFFFFF)) s)

/-- MEASURE (R123, R127). -/
def execMeasure (f : FmtS) (s : State) : Host.Outcome State Fault Refusal :=
  .next (issue (fun c s => .ok (s.setGang (c.gang.wrScalar32 f.dst (c.gang.measureOf c.grp.slices)))) s)

/-! ## Special registers -/

/-- `%clusterid` of a core (R8, R125). -/
def clusterNum (core : Nat) : Nat := if isPressCore core then coreNum core / 4 else 0x3F

/-- A 32-bit or 64-bit special register as a number, for the group that reads it (R47, R98, R125, R126). -/
def State.specialVal (s : State) (g : Gang) (grp : Group) (r : SReg) : Nat :=
  let home := g.home.1
  let blk := s.block? g.block
  match r with
  | .gangid => g.gangid
  | .blockid => (blk.map (fun b => b.blockid)).getD 0
  | .clusterid => clusterNum home
  | .role => g.role
  | .measure => g.measureOf grp.slices
  | .launchw => g.measure
  | .coreid => coreNum home
  | .dieid => dieOf home
  | .cycles => if g.det s then s.launchClock g else s.clockOf g.coreKey
  | .astatus => g.astatus.toNat
  | .tvec => g.tvec.toNat
  | .tcause => g.tcause.toNat
  | .tval => g.tval.toNat
  | .tret => g.tret.toNat
  | .crank => (blk.map (fun b => b.crank)).getD 0
  | .laneid | .gangmask | .pendmask => 0

/-- Is an operand a mask register or `em`? -/
def namesMask : Opd → Bool
  | .m _ | .em => true
  | _ => false

/-- SRD (R123): per active lane into a vector, by R111 into a mask, whole into a scalar or pair. -/
def execSrd (f : FmtS) (s : State) : Host.Outcome State Fault Refusal :=
  .next (issueWord false (namesMask f.dst) (fun c s =>
    match f.a with
    | .sr .laneid => .ok (s.setGang (c.gang.eachLane c.activeAll (fun _ k => (k, 0)) (fun h k x => h.wrLane32 f.dst k x)))
    | .sr .gangmask => .ok (s.setGang (c.gang.wrMask f.dst c.maskLanes (c.gang.gangMask c.grp.slices)))
    | .sr .pendmask => .ok (s.setGang (c.gang.wrMask f.dst c.maskLanes c.grp.pend))
    | .sr r =>
      let x := s.specialVal c.gang c.grp r
      match r with
      | .cycles | .tvec | .tval | .tret => .ok (s.setGang (c.gang.wrScalar64 f.dst (BitVec.ofNat 64 x)))
      | _ => .ok (s.setGang (c.gang.wrScalar32 f.dst x))
    | _ => .ok s) s)

/-- The bits of `%astatus` that a write changes (R98). -/
def astatusMask : W32 := 0x1007F

/-- SWR (R124): read-only registers and reserved fields ignore the write; the trap registers take it only in the gang's
handler. Bits of `%astatus` that are set in the same clock stay set (R99). -/
def Gang.writeSpecial (g : Gang) (now : Nat) (r : SReg) (a : Opd) : Gang :=
  match r with
  | .astatus => { g with astatus := (BitVec.ofNat 32 (g.scalar32 now a) &&& astatusMask) ||| g.freshBits }
  | .tvec => { g with tvec := g.scalar64 now a &&& ~~~ 0xFF }
  | .tcause => if g.trap.isSome then { g with tcause := BitVec.ofNat 32 (g.scalar32 now a) &&& 0x1FFF } else g
  | .tval => if g.trap.isSome then { g with tval := g.scalar64 now a } else g
  | .tret => if g.trap.isSome then { g with tret := g.scalar64 now a } else g
  | _ => g

/-- The special registers that a write may change, as they stand (R124). -/
def Gang.swrValue (g : Gang) (r : SReg) : Option W64 :=
  match r with
  | .astatus => some (g.astatus.setWidth 64)
  | .tvec => some g.tvec
  | .tcause => if g.trap.isSome then some (g.tcause.setWidth 64) else none
  | .tval => if g.trap.isSome then some g.tval else none
  | .tret => if g.trap.isSome then some g.tret else none
  | _ => none

/-- SWR (R124). -/
def execSwr (f : FmtS) (s : State) : Host.Outcome State Fault Refusal :=
  .next (issue (fun c s =>
    match f.dst with
    | .sr r => .ok (s.setGang (c.gang.writeSpecial s.now r f.a))
    | _ => .ok s) s)

end Sys2Proof.Machine
end

