-- ==== Sys2Proof/Machine/Debug.lean ====
section
/-!
DEFINITION. The debug-class instructions (R300, R307 to R309), the shadow edits and their application, the trace buffer's
drain to its sink (R299).
-/
namespace Sys2Proof.Machine

/-! ## Guests -/

/-- The guest in a slot of a proof core (R290). -/
def State.guestAt (s : State) (core gslot : Nat) : Option Gang :=
  s.gangs.find? (fun g => match g.place with
    | .guest c k _ => c == core && k == gslot
    | _ => false)

/-- The guest in a slot as the handler of a proof core may name it: one of its own domain (R303). -/
def State.guestFor (s : State) (p : Proof) (gslot : Nat) : Option Gang :=
  (s.guestAt p.key gslot).filter (fun g => g.pasid s == p.domain)

def Gang.halted (g : Gang) : Bool :=
  match g.guest with
  | some q => q.halted
  | none => false

/-- State of a group as a selector reads it: 0 ready, 1 held, 2 parked, 3 asleep, 4 trap hold (R308). -/
def Gang.groupState (g : Gang) (r : Group) : Nat :=
  if g.trapHeld r then 4
  else match r.status with
    | .heldJoin | .heldColl | .heldAbort _ _ | .heldRte => 1
    | .parked => 2
    | .sleepBar _ _ | .sleepYield _ | .sleepScan => 3
    | _ => 0

/-! ## Selectors (R308) -/

structure Selector where
  (guest space number lane : Nat)
  (high : Bool)
deriving DecidableEq, Repr, Inhabited

def parseSelector (x : Nat) : Option Selector :=
  if 4 ≤ bits x 31 29 || 9 ≤ bits x 28 25 || bits x 15 8 != 0 then none
  else some { guest := bits x 31 29, space := bits x 28 25, number := bits x 24 16, lane := bits x 6 0, high := bit x 7 }

def half (high : Bool) (x : Nat) : Nat := if high then x / 2 ^ 32 % 2 ^ 32 else x % 2 ^ 32

/-- A special register of the guest, for the group that holds a lane's slice. -/
def State.readSpecialOf (s : State) (g : Gang) (r : SReg) (lane : Nat) (high : Bool) : Nat :=
  match r with
  | .laneid => lane
  | _ =>
    match g.group? (lane / 8) with
    | none => match r with
      | .measure | .gangmask | .pendmask => 0
      | _ => half high (s.specialVal g (Group.at 0 0) r)
    | some grp => match r with
      | .gangmask => (g.gangMask grp.slices).toNat / 2 ^ (32 * (lane / 32)) % 2 ^ 32
      | .pendmask => grp.pend.toNat / 2 ^ (32 * (lane / 32)) % 2 ^ 32
      | _ => half high (s.specialVal g grp r)

/-- The item of a selector that names a guest; a register with a result in flight reads as its old or new value (R14). -/
def State.guestItem (s : State) (g : Gang) (x : Selector) : Option Nat :=
  match x.space with
  | 0 => if x.number < g.allot && x.lane < g.measure then some (g.rdV s.now x.number x.lane).toNat else none
  | 1 => some (g.rdS s.now x.number).toNat
  | 2 =>
    if 16 < x.number || 4 ≤ x.lane then none
    else some ((if x.number = 16 then g.em else g.rdM s.now x.number).toNat / 2 ^ (32 * x.lane) % 2 ^ 32)
  | 3 =>
    if 256 ≤ x.number || g.measure ≤ x.lane then none
    else (decSReg x.number).map (fun r => s.readSpecialOf g r x.lane x.high)
  | 4 =>
    if g.nslices ≤ x.number then none
    else
      let grp := g.group? x.number
      let pc := (grp.map (fun r => r.at?.toNat)).getD 0
      match x.lane with
      | 0 => some (half false pc)
      | 1 => some (half true pc)
      | 2 => some ((grp.map g.groupState).getD 0)
      | 3 => some (g.stack x.number).length
      | _ => none
  | 6 => match s.core? g.home.1 with
    | some c =>
      let t := if x.number < 4 then c.trig0 else c.trig1
      if 8 ≤ x.number then none
      else match x.number % 4 with
        | 0 => some (half x.high t.addr.toNat)
        | 1 => some (half x.high t.val.toNat)
        | 2 => some (half x.high t.ctl.toNat)
        | _ => some (half x.high t.gangs.toNat)
    | none => none
  | 8 => if x.number = 0 then (s.core? g.home.1).map (fun c => half x.high c.kick.toNat) else none
  | _ => none

/-- EVENT words (R308). -/
def Proof.eventWord (p : Proof) (k : Nat) : Option Nat :=
  let e := p.current.getD { kind := 0, unit := 0, gslot := 0, gang := 0, pc := 0, addr := 0, halt := 0, val := 0, clock := 0 }
  match k with
  | 0 => some (e.kind + e.unit * 16 + e.gslot * 256)
  | 1 => some (half false e.pc.toNat)
  | 2 => some (half true e.pc.toNat)
  | 3 => some (half false e.addr.toNat)
  | 4 => some (half true e.addr.toNat)
  | 5 => some e.val.toNat
  | _ => none

/-- What `dbgrd` reads: `none` for a selector that faults. -/
def State.dbgItem (s : State) (p : Proof) (x : Selector) : Option Nat :=
  if x.space = 5 then (if x.number = 0 then p.eventWord x.lane else none)
  else if x.space = 7 then
    if x.number < 80 && (s.guestFor p x.guest).isSome then
      (s.core? p.key).map (fun c => half x.high (Store.getD c.lc.cnt x.number (0 : W64)).toNat)
    else none
  else (s.guestFor p x.guest).bind (fun g => s.guestItem g x)

/-- May `dbgwr` write the item (R308)? -/
def Gang.writable (g : Gang) (x : Selector) : Bool :=
  match x.space with
  | 0 => x.number < g.allot && x.lane < g.measure
  | 1 => x.number != 0
  | 2 => x.number ≤ 16 && x.lane < 4
  | 3 => x.number < 256 && x.lane < g.measure && (match decSReg x.number with
    | some .astatus | some .tvec => true
    | some .tcause | some .tval | some .tret => g.trap.isSome
    | _ => false)
  | 4 => x.number < g.nslices && x.lane < 2
  | _ => false

/-! ## Shadow edits (R300) -/

/-- A 64-bit value with one half replaced. -/
def setHalf (high : Bool) (old : W64) (x : W32) : W64 := if high then pair (loHalf old) x else pair x (hiHalf old)

/-- The lanes of one 32-bit word of a mask. -/
def wordLanes (k : Nat) : Lanes := (0xFFFFFFFF : Lanes) <<< (32 * k)

/-- A group's PC is edited: it stands at that header, outside any clause. -/
def Gang.editPc (g : Gang) (slice : Nat) (high : Bool) (x : W32) : Gang :=
  match g.group? slice with
  | none => g
  | some r => ((g.takePending r.allot).leaveClause r
      { r with pc := setHalf high r.at? x, status := (if r.run.isSome then GStatus.ready else r.status), mid := none
               skips := [], allot := none, refetch := none, readyAt := none, keepOn := none })

/-- One edit applied. -/
def Gang.applyEdit (g : Gang) (e : W32 × W32) : Gang :=
  match parseSelector e.1.toNat with
  | none => g
  | some x =>
    match x.space with
    | 0 => g.wrV x.number x.lane e.2
    | 1 => g.wrS x.number e.2
    | 2 =>
      let v : Lanes := BitVec.ofNat 128 (e.2.toNat * 2 ^ (32 * x.lane))
      if x.number = 16 then g.wrEm (wordLanes x.lane) v else g.wrM x.number (wordLanes x.lane) v
    | 3 => match decSReg x.number with
      | some .astatus => { g with astatus := e.2 &&& astatusMask }
      | some .tvec => { g with tvec := setHalf x.high g.tvec e.2 &&& ~~~ 0xFF }
      | some .tcause => if g.trap.isSome then { g with tcause := e.2 &&& 0x1FFF } else g
      | some .tval => if g.trap.isSome then { g with tval := setHalf x.high g.tval e.2 } else g
      | some .tret => if g.trap.isSome then { g with tret := setHalf x.high g.tret e.2 } else g
      | _ => g
    | 4 => g.editPc x.number (x.lane == 1) e.2
    | _ => g

/-- All pending edits, in the order written, and an empty shadow. -/
def Gang.applyShadow (g : Gang) : Gang :=
  match g.guest with
  | none => g
  | some q =>
    let g := q.edits.foldl Gang.applyEdit g
    { g with guest := some { q with edits := [] } }

/-- A guest runs on (R309): a fault held back by its FAULT event is now unhandled (R295). -/
def State.releaseGuest (s : State) (uid : Nat) (stepping : Bool) : State :=
  match s.gang? uid with
  | none => s
  | some g => match g.guest with
    | none => s
    | some q =>
      let s := s.setGang { g with guest := some { q with halted := false, stepping := stepping, held := none } }
      match q.held, s.block? g.block with
      | some fr, some b => s.abortGrid b.grid (some fr)
      | _, _ => s

/-! ## The trace buffer and its sink (R299) -/

/-- A value read or written at an offset of a sink. -/
def State.sinkRead (s : State) (io : Party) (d : DbgDomain) (off n : Nat) : Eng Nat :=
  (s.engineRead io none (d.sink + BitVec.ofNat 64 off) n).bind (fun l => .ok (bytesVal l))

def State.sinkWrite (s : State) (io : Party) (d : DbgDomain) (off : Nat) (l : List Byte) : Eng State :=
  (s.engineDest io (d.sink + BitVec.ofNat 64 off) l.length).bind (fun a => .ok (s.ioWrite a l))

/-- The records of a domain leave the buffer of a proof core. -/
def Proof.dropRecords (p : Proof) (dom lost : Nat) : Proof :=
  { p with trace := p.buffer.filter (fun t => t.dom != dom) ++ p.trace.drop traceRoom, lost := Store.putD 0 p.lost dom lost }

/-- The drain of a domain's records from a proof core, as one that waits for translations. -/
def drainWork (core pasid : Nat) : Waiter := .engine core (2 ^ 60 + pasid)

/-- A domain's part of the buffer drains to its sink in one batch, PROD after the records. -/
def State.drainTrace (s : State) (core : Nat) (d : DbgDomain) : Eng State :=
  match s.proof? core with
  | none => .ok s
  | some p =>
    let io := { ioParty (drainWork core d.pasid) d.pasid with core := core }
    (s.sinkRead io d 8 8).bind fun cons =>
      let r := fitRecords d.pasid (d.slots - (d.prod - cons)) (Store.getD p.lost d.pasid 0) (s.clockOf core)
        (p.buffer.filter (fun t => t.dom == d.pasid))
      let recs := r.1.mapIdx (fun k t => (k, t))
      (recs.foldl (fun (x : Eng State) e => x.bind (fun s =>
        s.sinkWrite io d (64 + 32 * ((d.prod + e.1) % d.slots)) e.2.toBytes)) (.ok s)).bind fun s =>
      (s.sinkWrite io d 0 (leBytes 8 (d.prod + r.1.length))).bind fun s =>
      (if r.2 = 0 then .ok s else (s.sinkRead io d 16 8).bind (fun fl => s.sinkWrite io d 16 (leBytes 8 (fl ||| 2))) :
        Eng State).bind fun s =>
      .ok (State.updProof { s with dbgDomains := s.dbgDomains.map (fun x =>
          if !x.firmware && x.pasid == d.pasid then { x with prod := d.prod + r.1.length } else x) } core
        (fun p => p.dropRecords d.pasid r.2))

/-- A domain's drain; one that meets a refused page loses its records. -/
def State.drainDomain (s : State) (core : Nat) (d : DbgDomain) : State :=
  match s.drainTrace core d with
  | .ok s => s.dropWaiter (drainWork core d.pasid)
  | .miss q => s.ask q
  | .bad _ => (s.dropWaiter (drainWork core d.pasid)).updProof core (fun p => p.dropRecords d.pasid
      (Store.getD p.lost d.pasid 0 + (p.buffer.filter (fun t => t.dom == d.pasid)).length))

/-- The buffer drains, each domain's records to its own sink (R298, R299). -/
def State.drainNow (s : State) (core : Nat) : State :=
  (s.dbgDomains.filter (fun d => !d.firmware)).foldl (fun s d => s.drainDomain core d) s

/-! ## The instructions -/

/-- A debug word: its handler's proof core, and the right it needs (R305). -/
def debugForm (right : Option Nat) (body : Ctx → Nat → Proof → State → Res) (s : State) : State :=
  issue (fun c s =>
    match c.gang.place with
    | .handler core => match s.proof? core with
      | none => .stay
      | some p =>
        let ok := match right with
          | some k => (s.kernelRights p.domain).getLsbD k
          | none => true
        if ok then body c core p s else .trap s .accessDenied c.pc
    | _ => .trap s .illegalClause c.run.hdr) s

/-- The guest that an operand names, halted where the instruction needs that. -/
def Ctx.guestOf (c : Ctx) (s : State) (p : Proof) (o : Opd) (halted : Bool) : Option Gang :=
  let k := c.gang.scalar32 s.now o
  if 4 ≤ k then none else (s.guestFor p k).filter (fun g => g.halted || !halted)

/-- DBGRD (R308). -/
def execDbgrd (f : FmtQ) (s : State) : Host.Outcome State Fault Refusal :=
  .next (debugForm (some 1) (fun c _ p s =>
    match (parseSelector (c.gang.scalar32 s.now f.a)).bind (s.dbgItem p) with
    | some x => .ok (s.setGang (c.gang.wrScalar32 f.dst x))
    | none => .trap s .illegalInstruction c.pc) s)

def shadowLimit : Nat := 64

/-- DBGWR (R300, R308). -/
def execDbgwr (f : FmtQ) (s : State) : Host.Outcome State Fault Refusal :=
  .next (debugForm (some 2) (fun c _ p s =>
    let sel := c.gang.scalar32 s.now f.a
    match parseSelector sel with
    | none => .trap s .illegalInstruction c.pc
    | some x => match s.guestFor p x.guest with
      | none => .trap s .illegalInstruction c.pc
      | some g => match g.guest with
        | none => .trap s .illegalInstruction c.pc
        | some q =>
          if !g.writable x || shadowLimit ≤ q.edits.length then .trap s .illegalInstruction c.pc
          else .ok (s.setGang { g with guest := some { q with
            edits := q.edits ++ [(BitVec.ofNat 32 sel, BitVec.ofNat 32 (c.gang.scalar32 s.now f.b))] } })) s)

/-- DSTEP (R309): one clause of the guest, then STEP. -/
def execDstep (f : FmtQ) (s : State) : Host.Outcome State Fault Refusal :=
  .next (debugForm (some 3) (fun c _ p s =>
    match c.guestOf s p f.a true with
    | some g => .ok (s.releaseGuest g.uid true)
    | none => .trap s .illegalInstruction c.pc) s)

/-- DRESUME (R309). -/
def execDresume (f : FmtQ) (s : State) : Host.Outcome State Fault Refusal :=
  .next (debugForm none (fun c _ p s =>
    match c.guestOf s p f.a true with
    | some g => .ok ((s.setGang (g.applyShadow)).releaseGuest g.uid false)
    | none => .trap s .illegalInstruction c.pc) s)

/-- DRETURN (R291, R309): GUEST_RETURN moves the guest once it is halted or between clauses; in a deterministic launch the launch clock
stands no longer for its halt (R310). -/
def execDreturn (f : FmtQ) (s : State) : Host.Outcome State Fault Refusal :=
  .next (debugForm none (fun c _ p s =>
    match c.guestOf s p f.a false with
    | some g =>
      let g := if g.halted then g.applyShadow else g
      .ok (s.setGang { g with guest := g.guest.map (fun q => { q with retReq := true, halted := q.halted && !g.det s }) })
    | none => .trap s .illegalInstruction c.pc) s)

/-- A descriptor of R297 is accepted. -/
def Watch.ok (w : Watch) : Bool :=
  let acc := (w.ctrl.extractLsb' 4 2).toNat
  w.ctrl.toNat / 2 ^ 16 == 0 && w.cond ≤ 5 && w.queue.toNat / 2 ^ 12 == 0 &&
    (match w.kind with
     | 0 => w.cond == 0 && !w.hist && w.halts && acc == 0 && w.hi == 0 && w.lo.toNat % 8 == 0
     | 1 => w.lo.toNat < w.hi.toNat && acc != 0
     | _ => w.hi == 0 && acc == 0 && w.lo.toNat / 2 ^ 10 == 0 && (match decOpd (BitVec.ofNat 10 w.lo.toNat) with
        | some (.v _) | some (.s _) | some (.m _) | some .em | some (.sr _) => true
        | _ => false))

/-- WPSET (R297). -/
def execWpset (f : FmtQ) (s : State) : Host.Outcome State Fault Refusal :=
  .next (debugForm (some 2) (fun c core p s =>
    let unit := c.gang.scalar32 s.now f.a
    let rd (k : Nat) : W32 := c.gang.rdS s.now (regNum f.b + k)
    let w : Watch := { kind := f.sel.toNat, lo := pair (rd 0) (rd 1), hi := pair (rd 2) (rd 3), val := rd 4, ctrl := rd 5
                       queue := rd 6, gangs := rd 7, dom := p.domain }
    if !w.ok || (if w.kind = 0 then 8 else 16) ≤ unit then .trap s .illegalInstruction c.pc
    else .ok (s.updProof core (fun p =>
      if w.kind = 0 then { p with pcs := Store.put p.pcs unit w } else { p with mems := Store.put p.mems unit w }))) s)

/-- The MARK record of a guest (R298). -/
def State.markRecord (s : State) (c : Ctx) (core gslot : Nat) (g : Gang) (val : Nat) : TraceRec :=
  { dom := g.pasid s, pc := c.pc, clock := BitVec.ofNat 64 (if g.det s then s.launchClock g else s.clockOf core), lanes := 0
    val := BitVec.ofNat 32 val, block := BitVec.ofNat 32 (((s.block? g.block).map (fun b => b.blockid)).getD 0)
    gang := BitVec.ofNat 8 g.gangid, kind := 4, info := BitVec.ofNat 8 (gslot * 64) }

/-- TRCTL (R309): 0 OFF, 1 ON, 2 FLUSH, 3 MARK. -/
def execTrctl (f : FmtQ) (s : State) : Host.Outcome State Fault Refusal :=
  .next (debugForm (some 1) (fun c core p s =>
    let m := c.gang.scalar32 s.now f.a
    let slots := (List.range 4).filter (fun k => bit m k)
    if slots.any (fun k => (s.guestFor p k).isNone) then .trap s .illegalInstruction c.pc
    else if f.sel.toNat = 3 && s.traceShort core slots.length then .stay
    else .ok (slots.foldl (fun s k => match s.guestFor p k with
      | none => s
      | some g => match f.sel.toNat with
        | 0 => s.updProof core (fun p => { p with traced := p.traced &&& ~~~ (1#4 <<< k) })
        | 1 => s.updProof core (fun p => { p with traced := p.traced ||| 1#4 <<< k })
        | 2 => s.drainNow core
        | _ => s.addTrace core (s.markRecord c core k g (m / 16))) s)) s)

/-- VHRD (R299): an entry never written reads as zero. -/
def execVhrd (f : FmtQ) (s : State) : Host.Outcome State Fault Refusal :=
  .next (debugForm (some 1) (fun c _ p s =>
    let e := c.gang.scalar32 s.now f.a
    if 256 ≤ e then .trap s .illegalInstruction c.pc
    else
      let h := (p.hist[e]?).getD { seq := 0, info := 0, pc := 0, addr := 0, old := 0, new := 0 }
      let ws : List W32 := [h.seq, h.info, loHalf h.pc, hiHalf h.pc, loHalf h.addr, hiHalf h.addr, h.old, h.new]
      .ok (s.setGang ((ws.mapIdx (fun k x => (k, x))).foldl (fun (g : Gang) e => g.wrS (regNum f.dst + e.1) e.2) c.gang))) s)

end Sys2Proof.Machine
end

