-- ==== Sys2Proof/Machine/ClauseCheck.lean ====
section
/-!
DEFINITION. What is checked before a clause starts (R80): fetch, header (R11, R63), start map (R64, R65), each word's features
and placement (R78, R79, R232, R319), and the registers it touches against the allotment (R69).
-/
namespace Sys2Proof.Machine

/-! ## Formats of the instructions -/

/-- An instruction by its format (R73, R230, R249, R281, R307). -/
inductive Form
  | a3 (f : FmtA3) | f2 (f : FmtF2) | a2 (f : FmtA2) | a2s (f : FmtA2S) | a3s (f : FmtA3S) | cv (f : FmtCV) | s (f : FmtS)
  | i (f : FmtI) | b (f : FmtB) | bl (f : FmtBL) | k (f : FmtK) | m (f : FmtM) | ma (f : FmtMA) | y (f : FmtY)
  | mx (f : FmtMX) | q (f : FmtQ) | rq (f : FmtRQ) | event
deriving DecidableEq, Repr, Inhabited

def formOf : Instr → Form
  | .smov f | .sadd f | .ssub f | .smul f | .smulh f | .sand f | .sor f | .sxor f | .sshl f | .sshr f | .ssra f |
    .smin f | .smax f | .scmp f | .ssel f | .sclz f | .spopc f | .sbfe f | .sbfi f | .mand f | .mor f | .mxor f |
    .mnot f | .mmov f | .mpopc f | .mfirst f | .measure f | .srd f | .swr f | .vralloc f | .launch f |
    .sigop f => .s f
  | .smovi f | .vmovi f => .i f
  | .bra f | .bru f | .brv f | .brau f | .ret f | .join f | .yield f => .b f
  | .skip f | .gangAll f | .exit f | .trap f | .nop f | .rte f => .k f
  | .call f => .bl f
  | .vadd f | .vsub f | .vmul f | .vmulh f | .vand f | .vor f | .vxor f | .vnot f | .vshl f | .vshr f | .vsra f |
    .vmin f | .vmax f | .vabs f | .vclz f | .vpopc f | .vmov f | .vadd2 f | .vsub2 f | .vqadd f | .vqsub f |
    .vshrr f | .vpack f | .vfclass f => .a2 f
  | .vmad f | .vbfe f | .vbfi f | .vsel f | .vmac2 f | .vdot4 f | .vfma f => .a3 f
  | .vcmp f | .vunpack f | .vfcmp f | .vvote f | .vreduce f | .vscan f => .a2s f
  | .vfadd f | .vfsub f | .vfmul f | .vfmin f | .vfmax f | .vfrcp f | .vfrsq f | .vfsqrt f | .vfexp2 f |
    .vflog2 f => .f2 f
  | .vcvt f | .vfcvt f | .vftoi f | .vitof f => .cv f
  | .vshfl f | .vshflx f | .vslide f | .vbcast f => .a3s f
  | .ld f | .st f | .lds f | .sts f | .prefetch f => .m f
  | .atom f | .atomf f | .atomcas f => .ma f
  | .commit f | .commitc f | .mark f | .abort f | .waitcnt f | .bara f | .barw f | .bars f | .barx f => .y f
  | .mma f | .mmas f | .mmac f | .mmag f => .mx f
  | .qhist f | .qscale f | .qcvt f | .qclr f | .pktld f | .pktdone f | .sigrmw f | .qsave f | .qload f |
    .dispatch f | .pendscan f | .qarm f | .dbgrd f | .dbgwr f | .dstep f | .dresume f | .dreturn f | .wpset f |
    .trctl f | .vhrd f => .q f
  | .rqcopy f | .rqfill f | .rqgather f | .rqscatter f | .rqputs f | .rqred f | .rqlist f | .rqswap f => .rq f  | .clauseStart _ _ _ | .merge _ | .joinRelease _ | .collectiveWaitEnd _ | .budgetRefill _ _ | .tempRefresh _ _ |
    .blockPlace _ | .roomAdvertise _ | .blockPass _ | .quantumExpiry _ | .dueClock _ | .resolve _ _ | .grant _ |
    .atomic _ _ _ | .cabort _ _ | .land _ _ | .phase _ _ | .deliver _ _ _ | .gangRetire _ | .blockRetire _ |
    .clusterRetire _ | .blockCompletionEvent _ | .trapEntry _ | .atsCompletion _ _ _ | .priResponse _ _ _ |
    .invalidation _ _ _ | .invalidationCompletion _ _ _ | .preemptRequest _ _ | .contextSave _ | .blockRestore _ |
    .mstart _ _ | .rqmove _ _ _ | .rqsignal _ _ | .rqlistBlockFetch _ | .kick _ _ | .packetComplete _ _ |
    .pendscanWake _ | .signalRecheck _ | .bankSwitch _ | .fwVerifyDone _ | .unlockVerifyDone _ | .pull _ |
    .guestReturn _ | .arrivalMessage _ | .releaseMessage _ | .clauseCountMessage _ _ | .debugHandlerEntry _ |
    .traceDrain _ | .frameArrival _ _ _ | .framePublish _ | .portDown _ | .linkRetryTimeout _ |
    .domainTableInstall | .powerOnStart _ | .functionLevelReset | .correctedError _ | .errorWindow _ |
    .thermalLimit _ | .thermalStop _ | .featAccWrite _ | .registerQueue _ _ | .teardownPasid _ _ | .destroyCtx _ _ |
    .preempt _ _ | .loadFw _ _ | .keyslotWrite _ _ _ | .unlock _ _ | .domainSet _ _ | .streamSet _ _ |
    .streamMap _ _ | .startClear _ _ | .hcmdUnknownOp _ _ _ | .hcmdIgnored _ | .commandDone | .dbgAttnWrite _ |
    .dbgRevokeWrite _ | .triggerRegisterWrite _ _ _ _ | .ptpsecRead _ | .ptpadjWrite _ _ | .registerWrite _ _ |
    .childLaunch _ _ | .powerAverageWindow _ | .powerLoss _ => .event
/-- Operands of a form, DST first. -/
def Form.opds : Form → List Opd
  | .a3 f => [f.dst, f.a, f.b, f.c]
  | .f2 f => [f.dst, f.a, f.b]
  | .a2 f => [f.dst, f.a, f.b]
  | .a2s f => [f.dst, f.a, f.b]
  | .a3s f => [f.dst, f.a, f.b, f.c]
  | .cv f => [f.dst, f.a, f.b]
  | .s f => [f.dst, f.a, f.b, f.c]
  | .i f => [f.dst]
  | .b f => [f.a]
  | .bl f => [f.dst]
  | .k f => [f.a]
  | .m f => [f.dst] ++ (f.voff.map Opd.v).toList
  | .ma f => [f.dst, f.b] ++ (f.voff.map Opd.v).toList
  | .y f => [f.dst, f.a, f.b]
  | .mx f => [f.dst, f.a, f.b, f.c, f.e]
  | .q f => [f.dst, f.a, f.b, f.c]
  | .rq f => [f.dst, f.a, f.b, f.c]
  | .event => []

/-! ## Registers touched -/

/-- The vector ranges that a matrix or compositor instruction touches beside its named operands: first register, count. -/
def wideRanges (w : Nat) (i : Instr) : List (Nat × Nat) :=
  match i with
  | .mma f | .mmac f | .mmag f => [(regNum f.dst, 8), (regNum f.a, aRegs w false)]
  | .mmas f => [(regNum f.dst, 8), (regNum f.a, aRegs w true)]
  | .qhist f => [(regNum f.dst, histRegs w)] ++ (match f.b with
    | .imm n => [(regNum f.a, (immInt n).toNat)]
    | _ => [])
  | .qclr f => [(regNum f.dst, histRegs w)]
  | .qscale f => [(regNum f.a, histRegs w)]
  | .qcvt f => [(regNum f.dst, qcvtDstRegs w (qcvtSel f).2.1), (regNum f.a, qcvtSrcRegs w (qcvtSel f).1 (qcvtSel f).2.1)]
  | .pktld f => [(regNum f.dst, 64)]
  | _ => []

/-- A named vector at or above the allotment, or a range that passes it (R69, R232). -/
def rangeBad (allot w : Nat) (i : Instr) : Bool :=
  (formOf i).opds.any (fun o => match o with
    | .v n => allot ≤ n.toNat
    | _ => false) || (wideRanges w i).any (fun r => allot < r.1 + r.2)

/-! ## Decode checks beyond the word itself -/

/-- The feature bit an instruction belongs to (R319). -/
def featureOf (i : Instr) : Option Nat :=
  match i with
  | .mmas _ => some 3
  | .dbgrd _ | .dbgwr _ | .dstep _ | .dresume _ | .dreturn _ | .wpset _ | .trctl _ | .vhrd _ => some 2
  | .mmac _ => some 5
  | .mmag _ => some 6
  | .rqswap _ => some 9
  | .launch _ => some 10
  | _ => match formOf i with
    | .ma f => if f.scope == .domain then some 7 else none
    | .y f => if 3 ≤ f.lvl.rank then some 7 else none
    | _ => none

/-- The branches of R78. -/
def isBranch : Instr → Bool
  | .bra _ | .bru _ | .brv _ | .brau _ | .call _ | .ret _ | .exit _ | .yield _ => true
  | _ => false

/-- Placement in a clause: branches last, a skip within it (R78, R79); `left` words follow. -/
def placeBad (left : Nat) (i : Instr) : Bool :=
  match i with
  | .skip f => left < f.imm.toNat % 2 ^ 16
  | i => isBranch i && left != 0

/-- The further cases of R232, and the privilege of `rqswap` (R250). -/
def decodeBad (w : Nat) (priv : Bool) (i : Instr) : Bool :=
  let overlap (f : FmtMX) (n : Nat) : Bool := regNum f.a < regNum f.dst + 8 && regNum f.dst < regNum f.a + n
  match i with
  | .mma f | .mmag f => overlap f (aRegs w false)
  | .mmac f => overlap f (aRegs w false) || f.sat
  | .mmas f => overlap f (aRegs w true)
  | .qhist f => match f.b with
    | .imm n => immInt n < 0 || 32 < immInt n
    | _ => false
  | .rqswap _ => !priv
  | _ => false

/-- One word at its place: its instruction, or the code of the first check that fails. -/
def State.checkWord (s : State) (g : Gang) (priv : Bool) (cls : Cls) (left : Nat) (w : W64) : Except Code Instr :=
  match decodeWord cls w with
  | .error _ => .error .illegalInstruction
  | .ok i =>
    let absent := match featureOf i with
      | some k => !s.feature k
      | none => false
    if absent || placeBad left i || decodeBad g.measure priv i then .error .illegalInstruction
    else if rangeBad g.allot g.measure i then .error .regRange
    else .ok i

/-! ## Fetch -/

/-- What a fetch comes to: a word refused by rights or hit by an uncorrectable error faults with its address (R80, R209). -/
inductive Fetch (α : Type)
  | ok (x : α)
  | miss (va : W64)
  | fault (code : Code) (va : W64)

def Fetch.bind {α β : Type} (x : Fetch α) (f : α → Fetch β) : Fetch β :=
  match x with
  | .ok a => f a
  | .miss va => .miss va
  | .fault code va => .fault code va

/-- Is an address one of device-virtual memory (R153)? -/
def plainSpace (a : W64) : Bool := a.toNat / 2 ^ 57 ≤ 2 && !bit a.toNat 56

/-- The bytes of a line of code as a launch may fetch it: as it stands, or as it was before a store made since the launch was
accepted, one choice for each line (R82). -/
def State.codeLine (s : State) (grid line : Nat) : List Byte :=
  let old := (s.oldLines.filter (fun o => o.line == line && grid < o.uid)).map (fun o => o.bytes)
  let now := (List.range 128).map (fun k => s.readByte (128 * line + k))
  (old[Config.freeNat s.now (2 ^ 110 + line) % (old.length + 1)]?).getD now

/-- One code word, read at its home, past every galley (R82). -/
def State.fetchWord (s : State) (g : Gang) (a : W64) : Fetch W64 :=
  if !plainSpace a then .fault .accessDenied a
  else match s.lookup g.coreKey (g.pasid s) (a.toNat % 2 ^ 56) with
    | .miss => .miss a
    | .hit u r _ =>
      if !r then .fault .accessDenied a
      else if s.badBytes u 8 then .fault .uncorrectable a
      else
        let grid := ((g.grid? s).map (fun x => x.uid)).getD 0
        .ok (BitVec.ofNat 64 (if s.oldLines.isEmpty then s.readLE u 8
          else bytesVal (((s.codeLine grid (lineOf u)).drop (u % 128)).take 8)))

def State.fetchWords (s : State) (g : Gang) : List W64 → Fetch (List W64)
  | [] => .ok []
  | a :: l => (s.fetchWord g a).bind (fun w => (s.fetchWords g l).bind (fun ws => .ok (w :: ws)))

/-- What the start of a clause comes to: it may start with its header and words, a fetch miss parks the group, a fault; with
the header, where it could be read. -/
inductive Start
  | go (hdr : W64) (header : Header) (words : List W64) (ins : List Instr)
  | miss (va : W64) (header : Option Header)
  | fault (code : Code) (tval : W64) (header : Option Header)

/-- The header of the clause, where it is known. -/
def Start.header? : Start → Option Header
  | .go _ h _ _ => some h
  | .miss _ h | .fault _ _ h => h

/-- Is a class accepted where the gang runs (R11)? -/
def Gang.accepts (g : Gang) (c : Cls) : Bool :=
  match g.place, c with
  | .compositor _, .press | .compositor _, .compositor => true
  | .handler _, .press | .handler _, .debug => true
  | .press _ _, .press | .press _ _, .matrix | .press _ _, .request => true
  | .guest _ _ _, .press | .guest _ _ _, .matrix | .guest _ _ _, .request => true
  | _, _ => false

/-- The start-map word that holds a code word's bit. -/
def mapWord (image : W64) (length idx : Nat) : W64 := image + 64 + BitVec.ofNat 64 (8 * length + 8 * (idx / 64))

/-- Words of a clause from an index on, in ascending address: the first that fails decides (R80). -/
def State.checkWords (s : State) (g : Gang) (priv : Bool) (hdr : W64) (cls : Cls) (n : Nat) :
    Nat → List W64 → Except (Code × W64) (List Instr)
  | _, [] => .ok []
  | k, w :: rest => match s.checkWord g priv cls (n - 1 - k) w with
    | .error code => .error (code, hdr + BitVec.ofNat 64 (8 * (k + 1)))
    | .ok i => match s.checkWords g priv hdr cls n (k + 1) rest with
      | .error e => .error e
      | .ok is => .ok (i :: is)

/-- Is the preface word bad: LENGTH 0 or above 2^24, or a reserved bit set (R64, R65; log 15)? -/
def badPreface (pre : W64) : Bool :=
  pre.toNat % 2 ^ 32 = 0 || pre.toNat / 2 ^ 32 != 0 || 2 ^ 24 < pre.toNat % 2 ^ 32

/-- R80 for the clause with its header at `hdr`; `from0` is the first word that will issue, 0 but for a resumption inside the
clause (R65). A start at no code address reads the preface alone (log 15). -/
def State.clauseCheck (s : State) (g : Gang) (hdr : W64) (from0 : Nat) : Start :=
  let priv := ((g.grid? s).map (fun x => x.priv)).getD false
  if hdr.toNat % 8 != 0 || !plainSpace hdr then
    match s.fetchWord g g.image with
    | .miss va => .miss va none
    | .fault code va => .fault code va none
    | .ok pre => .fault .illegalClause (if badPreface pre then g.entry else hdr) none
  else
    match s.fetchWords g [g.image, hdr] with
    | .miss va => .miss va none
    | .fault code va => .fault code va none
    | .ok pw =>
      let pre := pw.headD 0
      let h := pw.getD 1 0
      let header? := decodeHeader h
      let n := bits h.toNat 59 56 + 1
      let length := pre.toNat % 2 ^ 32
      let off := hdr - g.image - 64
      let idx := off.toNat / 8
      let inside := 64 ≤ (hdr - g.image).toNat && idx < length
      let wordAddrs := (List.range n).map (fun k => hdr + BitVec.ofNat 64 (8 * (k + 1)))
      let last := min (idx + n) (length - 1)
      let mapAddrs := if inside && pre.toNat / 2 ^ 32 == 0 then
          (List.range (last / 64 + 1 - idx / 64)).map (fun k => mapWord g.image length (64 * (idx / 64 + k))) else []
      match (s.fetchWords g wordAddrs).bind (fun ws => (s.fetchWords g mapAddrs).bind (fun ms => .ok (ws, ms))) with
      | .miss va => .miss va header?
      | .fault code va => .fault code va header?
      | .ok (ws, ms) =>
        match header? with
        | none => .fault .illegalClause hdr none
        | some header =>
          let mapBit (k : Nat) : Bool := bit ((ms.getD (k / 64 - idx / 64) 0).toNat) (k % 64)
          if !g.accepts header.cls then .fault .illegalClause hdr header
          else if badPreface pre then .fault .illegalClause g.entry header
          else if !inside || !mapBit idx then .fault .illegalClause hdr header
          else if length - 1 < idx + n then .fault .illegalClause hdr header
          else if (List.range n).any (fun k => mapBit (idx + 1 + k)) then .fault .illegalClause hdr header
          else match s.checkWords g priv hdr header.cls n from0 (ws.drop from0) with
            | .error e => .fault e.1 e.2 header
            | .ok is => .go hdr header ws is

/-! ## Room for a clause (R12, R16) -/

/-- The counter of an instruction, and how many operations it adds; a barrier word counts on none (R15). -/
def countOf (g : Gang) (now : Nat) (i : Instr) : Option (Ctr × Nat) :=
  match i with
  | .ld _ | .lds _ | .atom _ | .atomf _ | .atomcas _ => some (.ld, 1)
  | .st _ | .sts _ | .commit _ | .commitc _ => some (.st, 1)
  | .rqcopy _ | .rqfill _ | .rqputs _ | .rqswap _ => some (.req, 1)
  | .rqlist f => some (.req, g.scalar32 now f.b)
  | .mma _ | .mmas _ | .mmac _ | .mmag _ | .qhist _ | .qscale _ | .qcvt _ | .qclr _ => some (.mx, 1)
  | .rqgather _ | .rqscatter _ => some (.gx, 1)
  | .rqred _ => some (.coll, 1)
  | _ => none

def counterMax : Nat := 127
def matrixQueue : Nat := 8
def requestQueue : Nat := 64

/-- The words of a started clause that have still to issue; the replayed word has its operation already. -/
def Run.left (u : Run) : List Instr :=
  (u.words.drop (u.idx + (if u.replay.isSome then 1 else 0))).filterMap (fun w => (decodeWord u.header.cls w).toOption)

/-- The words of a class that the gang's started clauses, parked ones too, have still to issue. -/
def Gang.leftOf (g : Gang) (cls : Cls) : List Instr :=
  g.groups.flatMap (fun r => match r.run with
    | some u => if u.header.cls == cls then u.left else []
    | none => [])

/-- What instructions add to a counter. -/
def addsTo (g : Gang) (now : Nat) (c : Ctr) (is : List Instr) : Nat :=
  is.foldl (fun n i => match countOf g now i with
    | some (d, k) => if d == c && k ≤ 64 then n + k else n
    | none => n) 0

/-- What a clause adds to each counter, beside what started clauses of the gang have still to add, leaves it at 127 or below
(R16). -/
def countersFit (g : Gang) (now : Nat) (is : List Instr) : Bool :=
  [Ctr.ld, .st, .req, .mx, .gx, .coll].all (fun c =>
    g.count c + addsTo g now c (g.leftOf .press ++ g.leftOf .matrix ++ g.leftOf .request ++ is) ≤ counterMax)

/-- Places of the request queue that instructions take. -/
def requestPlaces (g : Gang) (now : Nat) (is : List Instr) : Nat :=
  is.foldl (fun n i => match countOf g now i with
    | some (_, k) => if k ≤ 64 then n + k else n
    | none => n + 1) 0

/-- The engine's queue takes the whole clause, beside what the core's started clauses have still to hand over (R12). A matrix clause of
9 to 16 words never fits the queue of 8: it is never ready, which the spec does not say (log 15). -/
def State.queueFits (s : State) (g : Gang) (cls : Cls) (is : List Instr) : Bool :=
  match s.core? (s.schedAt g).1 with
  | none => true
  | some c =>
    let here := s.gangs.filter (fun h => (s.schedAt h).1 == (s.schedAt g).1)
    match cls with
    | .matrix =>
      (c.mq.filter (fun e => e.1 == (s.schedAt g).2)).length +
        ((here.filter (fun h => (s.schedAt h).2 == (s.schedAt g).2)).flatMap (fun h => h.leftOf .matrix)).length + is.length ≤ matrixQueue
    | .request =>
      c.rq.length + here.foldl (fun n h => n + requestPlaces h s.now (h.leftOf .request)) 0 + requestPlaces g s.now is
        ≤ requestQueue
    | _ => true

/-- The flag a header names, as a set. -/
def flagSet (f : Option Nat) : BitVec 12 :=
  match f with
  | some k => (1 : BitVec 12) <<< k
  | none => 0

/-- The flags that count as busy: those set, and those of operations whose due clock has not come (R13, R60). -/
def Gang.busyFlags (g : Gang) : BitVec 12 :=
  g.ops.foldl (fun a o => if o.due.isSome then a ||| flagSet o.flag else a) g.flags

/-- Are the flags of a header clear (R13)? -/
def Gang.flagsClear (g : Gang) (h : Header) : Bool := (g.busyFlags &&& (h.wait ||| flagSet h.fa ||| flagSet h.fb)) == 0

/-- Readiness of a clause (R12, R13, R16). -/
def State.clauseReady (s : State) (g : Gang) (h : Header) (is : List Instr) : Bool :=
  g.flagsClear h && countersFit g s.now is && s.queueFits g h.cls is

/-- Readiness of a start: a clause that will park or fault at its fetch or decode is ready as far as its flags are clear, which
are known where its header could be read (R54, R80; log 15). -/
def State.startReady (s : State) (g : Gang) (x : Start) : Bool :=
  match x with
  | .go _ h _ is => s.clauseReady g h is
  | _ => x.header?.all g.flagsClear

end Sys2Proof.Machine
end

