-- ==== Sys2Proof/Machine/Sched.lean ====
section
/-!
DEFINITION. The choice and the start of a clause (R46, R54, R55, R59, R294, R340), and the merges and releases of
slice-groups at an arbitration (R48, R49, R50).
-/
namespace Sys2Proof.Machine

/-! ## May a gang's groups start clauses at all? -/

/-- Does a row of R294 hold a gang back: a guest of its block in window mode whose clause count it has passed by W? -/
def State.throttledBy (s : State) (g p : Gang) : Bool :=
  match p.guest with
  | none => false
  | some q =>
    p.block == g.block && p.uid != g.uid && !q.free && !p.det s &&
      !(g.clauseCount < Store.getD g.known p.uid 0 + q.window) &&
      !p.liveGroups.all (fun r => p.trapHeld r || (match r.status with
        | .sleepBar _ _ | .sleepYield _ | .heldJoin | .heldColl | .heldAbort _ _ | .parked => true
        | _ => false))

def State.throttled (s : State) (g : Gang) : Bool := s.gangs.any (fun p => p.isGuest && s.throttledBy g p)

/-- A group inside a clause may go on with it: the gang's launch is not ended, the device is not stopped, the guest is not halted
(R202, R295, R339). -/
def State.mayGoOn (s : State) (g : Gang) : Bool :=
  let stopped := ((g.grid? s).map (fun x => x.stopped)).getD false
  let gone := match s.block? g.block with
    | some b => b.stage != .resident
    | none => false
  let guest := match g.guest with
    | some q => q.halted || (q.stepping && g.groups.any (fun r => r.status == .running || r.status == .waitAts))
    | none => false
  let bank := match g.place with
    | .compositor c => (if c == 256 then s.bank0 else s.bank1).stopped
    | .none => true
    | _ => false
  !stopped && !gone && !s.thermal && !guest && !bank

/-- Is a gang frozen for a pull: from the trigger's fire, in a deterministic launch from the moment it stands between clauses
(R290; log 23)? -/
def State.frozen (s : State) (g : Gang) : Bool := g.trap.isNone && g.pull.any (fun q => q.place.isSome || !g.det s)

/-- Is a guest that is to return kept from starting clauses: in a deterministic launch it runs on until it stands between clauses
(R291; log 23)? -/
def State.goesHome (s : State) (g : Gang) : Bool := g.guest.any (fun q => q.retReq) && !g.det s

/-- The gang's groups may start clauses: beyond that, its block is not being pre-empted, no latched fault is due, and it is
neither frozen for a pull nor going home (R53, R81, R198, R210, R290). -/
def State.mayStart (s : State) (g : Gang) : Bool :=
  s.mayGoOn g && !s.preempting g && !s.frozen g && !s.goesHome g && (g.trap.isSome || g.latched.isEmpty)

/-! ## Candidates -/

/-- The clause a group would start: where its header is and the first word that would issue. -/
def Group.clauseAt (r : Group) : W64 × Nat :=
  match r.mid with
  | some hdr => (hdr, (r.pc - hdr).toNat / 8 - 1)
  | none => (r.pc, 0)

/-- What the start of a group's next clause comes to; a group inside a clause goes on with it, unchecked. -/
def State.startOf (s : State) (g : Gang) (r : Group) : Start :=
  match r.run with
  | some u => .go u.hdr u.header u.words []
  | none => s.clauseCheck g r.clauseAt.1 r.clauseAt.2

/-- A candidate of R54 with the start it would make. -/
structure Cand where
  (gang : Gang)
  (grp : Group)
  (start : Start)

def Cand.cls (c : Cand) : Cls := (c.start.header?.map (fun h => h.cls)).getD .press

/-- Is a group ready (R54, step 1), and not held back by a guest's window (R294)? -/
def State.isReady (s : State) (g : Gang) (r : Group) : Bool :=
  r.status == .ready && !g.trapHeld r && (r.run.isSome || (!s.throttled g && s.startReady g (s.startOf g r)))

/-- Is a group a candidate: it may start, or go on with the clause it stands in (R54)? -/
def State.isCand (s : State) (g : Gang) (r : Group) : Bool :=
  r.status == .ready && (if r.run.isSome then s.mayGoOn g else s.mayStart g) && s.isReady g r

/-- The groups on a partition that are candidates. -/
def State.candidates (s : State) (core part : Nat) : List Cand :=
  (s.gangs.filter (fun g => s.schedAt g == (core, part) && s.mayGoOn g)).flatMap (fun g =>
    (g.liveGroups.filter (fun r => s.isCand g r)).map (fun r => { gang := g, grp := r, start := s.startOf g r }))

/-- The clause that another port of the partition runs: its class and its group's slices. -/
def State.otherPort (s : State) (core part port : Nat) : Option (Cls × Nat) :=
  (s.gangs.filter (fun g => s.schedAt g == (core, part))).findSome? (fun g => g.groups.findSome? (fun r =>
    match r.run with
    | some u => match u.port with
      | some p => if p != port then some (u.header.cls, sliceCount r.slices) else none
      | none => none
    | none => none))

/-- Is the port itself free? -/
def State.portFree (s : State) (core part port : Nat) : Bool :=
  !(s.gangs.any (fun g => s.schedAt g == (core, part) && g.groups.any (fun r => match r.run with
    | some u => u.port == some port
    | none => false)))

/-- A class that the matrix unit or the request engine takes. -/
def engineClass (c : Cls) : Bool := c == .matrix || c == .request

/-- R46: which clauses run side by side. -/
def mayPair (c : Cls) (slices : Nat) (other : Option (Cls × Nat)) : Bool :=
  match other with
  | none => true
  | some (d, n) => if engineClass c then !engineClass d else engineClass d || (slices + n ≤ 4)

/-- The place of a group among those of a deterministic launch. -/
def Group.turn (r : Group) : Nat :=
  match r.run with
  | some u => if u.replaying || u.stood then 0 else 1
  | none => 2

/-- Rank of candidates (R54, step 3; R59): a is before b. In a deterministic launch a group that gave up its port while the launch
clock stood is before the others, and then one that goes on inside its clause (log 23). -/
def Cand.before (s : State) (clock : Nat) (a b : Cand) : Bool :=
  let block (c : Cand) : Nat := ((s.block? c.gang.block).map (fun x => x.blockid)).getD 0
  let key (c : Cand) : List Nat :=
    if c.gang.det s then [c.grp.turn, c.gang.gangid, block c, lowSlice c.grp.slices]
    else [3 - min 3 c.gang.prio, c.grp.readyAt.getD clock, c.gang.gangid, lowSlice c.grp.slices]
  let rec lt : List Nat → List Nat → Bool
    | x :: xs, y :: ys => x < y || (x == y && lt xs ys)
    | _, _ => false
  lt (key a) (key b)

/-- Units a clause costs (R55); a group that goes on inside its clause has paid. -/
def Cand.cost (c : Cand) : Nat :=
  match c.grp.run, c.start with
  | none, .go _ h _ is => is.length * (match h.cls with
    | .matrix => 16
    | .request => 2
    | _ => 1)
  | _, _ => 0

def State.budgetOf (s : State) (core part : Nat) : Nat :=
  ((s.core? core).bind (fun c => c.parts[part]?)).map (fun p => p.budget) |>.getD 0

/-- The candidate that starts (R54): it may pair with the other port, fits the budget, and no such candidate ranks before. Of two that
are equal in every key, of different blocks, the one earlier in the list of gangs does; the spec gives no order (log 15). -/
def State.winner (s : State) (core part port : Nat) : Option Cand :=
  let other := s.otherPort core part port
  let clock := s.clockOf core
  let fit := (s.candidates core part).filter (fun c =>
    mayPair c.cls (sliceCount c.grp.slices) other && (c.gang.det s || c.cost ≤ s.budgetOf core part))
  fit.foldl (fun (best : Option Cand) c => match best with
    | none => some c
    | some b => if Cand.before s clock c b then some c else best) none

/-! ## The start -/

def State.updPart (s : State) (core part : Nat) (f : Part → Part) : State :=
  s.updCore core (fun c => { c with parts := c.parts.mapIdx (fun k p => if k == part then f p else p) })

/-- The ready time of a group as time passes (R340): that of the clock at which it became a candidate, none while it is no
candidate; the time of the clause just run stays until its port chooses. -/
def State.stampGroup (s : State) (g : Gang) (r : Group) : Group :=
  if r.status == .running || r.status == .waitAts || r.keepOn.isSome then r
  else { r with readyAt := if s.isCand g r then some (r.readyAt.getD (s.clockOf (s.schedAt g).1)) else none }

/-- A port chooses: a group that has run its last clause there keeps its ready time if it is a candidate (R340). -/
def State.keepReady (s : State) (core part port : Nat) : State :=
  { s with gangs := s.gangs.map (fun g =>
      if s.schedAt g == (core, part) then
        { g with groups := g.groups.map (fun r =>
            if r.keepOn == some port then
              { r with readyAt := if s.isCand g r then some (r.readyAt.getD (s.clockOf core)) else none, keepOn := none }
            else r) }
      else g) }

/-- Lanes of a group that are in `em`. -/
def Gang.activeOf (g : Gang) (r : Group) : Lanes := g.gangMask r.slices &&& g.em

/-- A fetch miss parks the group at its header with every active lane pending (R80, R206); a replay that the clause resumes is
kept for it. -/
def State.parkFetch (s : State) (g : Gang) (r : Group) (va : W64) : State :=
  let a := va.toNat % 2 ^ 56
  let park := s.priStands (g.pasid s) a false
  let s := if park then s.requestPri (g.pasid s) (pageBase 12 a) false [.core g.coreKey]
    else s.requestAts (.core g.coreKey) (g.pasid s) a false
  s.setGang (g.setGroup { r with status := if park then .parked else .waitAts, pend := g.activeOf r
                                 refetch := some (r.refetch.getD r.pend), waits := [(0, va, a)], readyAt := none })

/-- Has a block a guest, so that its gangs count their clauses (R294)? -/
def State.counting (s : State) (g : Gang) : Bool := s.gangs.any (fun p => p.isGuest && p.block == g.block)

/-- The clause starts: its flags are set, its cost is taken, PC triggers on the header see it (R13, R54, R289). -/
def State.beginClause (s : State) (g : Gang) (r : Group) (core part port : Nat) (cost : Nat) (hdr : W64) (h : Header)
    (words : List W64) (idx : Nat) : State :=
  let pend := r.refetch.getD r.pend
  let replay := r.mid.isSome && pend != 0
  let u : Run :=
    { hdr := hdr, header := h, words := words, idx := idx, port := some port, next := none
      skips := if r.mid.isSome then r.skips else [], allot := if r.mid.isSome then r.allot else none, collected := false, replaying := replay, replay := none
      unmatched := r.mid.isSome && (match g.guest with
        | some q => q.haltPc == r.pc
        | none => false)
      holding := false, stood := false }
  let g := { g with
    flags := g.flags ||| flagSet h.fa ||| flagSet h.fb
    clauseCount := if s.counting g then g.clauseCount + 1 else g.clauseCount
    guest := g.guest.map (fun (q : Guest) => if q.haltPc == r.pc then { q with haltPc := 1 } else q) }
  let s := s.setGang (g.setGroup
    { r with status := .running, run := some u, mid := none, skips := [], allot := none, waits := [], keepOn := none
             readyAt := some (r.readyAt.getD (s.clockOf core))
             refetch := none, refused := [], pend := if replay then pend else g.restPend r, nextClock := s.launchClock g + 1 })
  let s := s.updPart core part (fun p => { p with budget := p.budget - cost })
  s.fireTriggers g.uid 0 (fun t => t.addr == hdr)

/-- The winner starts its clause, goes on inside it, parks on a fetch miss, or faults (R54, R80, R209). In a deterministic launch a
group woken inside its clause issues from the next clock on (log 23). -/
def State.startCand (s : State) (core part port : Nat) (c : Cand) : State :=
  let g := c.gang
  let r := c.grp
  match r.run with
  | some u => s.setGang (g.setGroup { r with
      status := .running, run := some { u with port := some port, stood := false }
      nextClock := if u.replaying || u.stood then r.nextClock else s.launchClock g + 1 })
  | none =>
    let low := lowSlice r.slices
    let raise (code : Code) (tval : W64) (word : Nat) : Raise :=
      { code := code, tval := tval, tret := r.pc, word := word, mid := r.mid, skips := r.skips, allot := r.allot }
    match c.start with
    | .miss va _ => s.parkFetch g r va
    | .fault code tval _ =>
      let k := (tval - r.clauseAt.1).toNat / 8
      s.takeFault g.uid low (raise code tval (if k ≤ 16 then k else 0))
    | .go hdr h words is =>
      match g.latchedErr h.wait none false with
      | some e => (s.setGang (g.dropErr e)).takeFault g.uid low (raise e.code e.tval 0)
      | none =>
        s.beginClause g r core part port (if g.det s then 0 else c.cost) hdr h words (words.length - is.length)

/-! ## Merges, joins and collective waits -/

/-- Does a group stand at a clause header? -/
def Group.atHeader (r : Group) : Bool := r.status == .ready && r.run.isNone && r.mid.isNone

/-- Merge all groups of a list into one. -/
def Gang.mergeAll (g : Gang) (l : List Group) (f : Group → Group) : Gang :=
  match mergeGroups l with
  | some m => if l.length < 2 then g.setGroup (f m) else g.replaceGroups m.slices [f m]
  | none => g

/-- The first header at which two groups stand. -/
def Gang.mergeAddr (g : Gang) : Option W64 :=
  let hs := g.testGroups.filter Group.atHeader
  (hs.find? (fun r => (hs.filter (fun q => q.pc == r.pc)).length ≥ 2)).map (fun r => r.pc)

/-- The groups of a gang that stand at one header merge (R48). -/
def Gang.mergeStep (g : Gang) : Gang :=
  match g.mergeAddr with
  | none => g
  | some pc => g.mergeAll (g.testGroups.filter (fun r => r.atHeader && r.pc == pc)) id

/-- MERGE (R48). -/
def execMerge (gang : Nat) (s : State) : Host.Outcome State Fault Refusal :=
  .next (s.updGang gang (fun g => if s.mayStart g then g.mergeStep else g))

/-- A group that counts as held or stands at the header (R49, R50); one held at an `rte` counts as held too (log 58). -/
def Group.meets (r : Group) (label : W64) : Bool :=
  (r.atHeader && r.pc == label) || (match r.status with
    | .heldJoin | .heldColl | .heldAbort _ _ | .heldRte | .sleepBar _ _ | .sleepYield _ | .sleepScan => true
    | _ => false)

/-- The release of the gang's held joins, where one of them has met every other group (R49). -/
def Gang.releaseJoins (g : Gang) : Gang :=
  let l := g.testGroups
  match l.find? (fun j => j.status == .heldJoin && l.all (fun r => r.slices == j.slices || r.meets j.pc)) with
  | none => g
  | some j =>
    let here := l.filter (fun r => r.pc == j.pc && (r.atHeader || r.status == .heldJoin))
    let g := g.mergeAll here (fun m => { m with status := .ready, readyAt := none })
    { g with groups := g.groups.map (fun r =>
        if r.status == .heldJoin && (g.trap.isNone || g.inHandler r) then { r with status := .ready, readyAt := none } else r) }

/-- JOIN_RELEASE (R49). -/
def execJoinRelease (gang : Nat) (s : State) : Host.Outcome State Fault Refusal :=
  .next (s.updGang gang (fun g => if s.mayStart g then g.releaseJoins else g))

/-! ## The arbitration -/

/-- The releases and merges of a partition's gangs, taken at an arbitration before the clause is selected: a held `join` that has
met the others is released first (R48, R49). -/
def State.mergePart (s : State) (core part : Nat) : State :=
  { s with gangs := s.gangs.map (fun g =>
      if s.schedAt g == (core, part) && s.mayStart g then
        g.groups.foldl (fun (h : Gang) _ => h.mergeStep) g.releaseJoins else g) }

/-- CLAUSE_START (R54): one arbitration of a port, after the releases and merges of R48 and R49. -/
def execClauseStart (core part port : Nat) (s : State) : Host.Outcome State Fault Refusal :=
  .next (if 2 ≤ port || partsOf core ≤ part || !s.portFree core part port then s
  else
    let s := (s.mergePart core part).keepReady core part port
    match s.winner core part port with
    | some c => s.startCand core part port c
    | none => s)

/-! ## Collective waits -/

/-- COLLECTIVE_WAIT_END (R50): the groups merge and the instruction will execute once; or no hold can end and the group with
the lowest live slice faults. -/
def execCollectiveWaitEnd (gang : Nat) (s : State) : Host.Outcome State Fault Refusal :=
  .next (match s.gang? gang with
  | none => s
  | some g =>
    let l := g.testGroups
    match l with
    | [] => s
    | r :: _ =>
      if !s.mayStart g || !l.all (fun q => q.status == .heldColl) then s
      else if l.all (fun q => q.at? == r.at?) then
        s.setGang (g.mergeAll l (fun m =>
          { m with status := .ready, readyAt := none, run := m.run.map (fun u => { u with collected := true }) }))
      else
        let low := l.foldl (fun (b : Group) q => if lowSlice q.slices < lowSlice b.slices then q else b) r
        match low.run with
        | some u => s.faultOut g.uid (lowSlice low.slices)
            { code := .illegalConvergence, tval := low.at?, tret := low.at?, word := u.idx + 1, mid := some u.hdr
              skips := u.skips, allot := u.allot }
        | none => s)

/-- BUDGET_REFILL (R55). -/
def execBudgetRefill (core part : Nat) (s : State) : Host.Outcome State Fault Refusal :=
  .next (s.updPart core part (fun p => { p with budget := p.refill }))

/-- TEMP_REFRESH (R56): the layer temperature above a core; `TLAYERMAX` is the hottest (R339). -/
def execTempRefresh (core temp : Nat) (s : State) : Host.Outcome State Fault Refusal :=
  .next (let s := s.updCore core (fun c => { c with temp := temp % 2 ^ 16 })
  { s with host := { s.host with tLayerMax := BitVec.ofNat 16 (s.cores.foldl (fun m c => max m c.temp) 0) } })

end Sys2Proof.Machine
end

