-- ==== Sys2Proof/Machine/EvPlace.lean ====
section
/-!
DEFINITION. The imposers' transitions (R56 to R58) and pre-emption: request, save, restore (R210 to R213).
-/
namespace Sys2Proof.Machine

/-! ## Dispatch -/

/-- A unit leaves the waiting blocks of its grid. -/
def Grid.takeUnit (gr : Grid) (blockid n : Nat) : Grid :=
  if gr.passed.any (fun e => e.1 == blockid) then { gr with passed := gr.passed.filter (fun e => e.1 != blockid) }
  else { gr with nextBlock := blockid + n }

/-- A unit of a grid has taken cores: a claim on them is met (R58). -/
def State.meetClaim (s : State) (grid : Nat) (cores : List Nat) : State :=
  { s with grids := s.grids.map (fun x => if x.uid == grid then { x with claims := cores.foldl (fun l c => l.erase c) x.claims } else x) }

/-- The AFTER word of a block of the next unit that some dies hold of a grid reads negative, or cannot be read (R277). -/
def State.afterBad (s : State) (gr : Grid) (die : Nat) : Bool :=
  (s.unitsOn gr (gr.diesOf die)).any (fun u => match u.2 with
    | .fresh b n => (List.range n).any (fun k => match s.afterWord gr (b + k) with
      | .ok x => decide (x < 0)
      | .bad _ => true
      | .miss _ => false)
    | .saved _ => false)

/-- AFTER words that miss are asked for. -/
def State.afterMisses (s : State) (die : Nat) : State :=
  s.grids.foldl (fun s gr => (s.unitsOn gr (gr.diesOf die)).foldl (fun s u => match u.2 with
    | .fresh b n => (List.range n).foldl (fun s k => match s.afterWord gr (b + k) with
      | .miss q => s.ask q
      | _ => s) s
    | .saved _ => s) s) s

/-- BLOCK_PLACE (R56, R274, R277): the first waiting unit that can be placed starts; a launch whose AFTER word is negative
starts no further block and will complete ABORTED. -/
def execBlockPlace (die : Nat) (s : State) : Host.Outcome State Fault Refusal :=
  .next (if 4 ≤ die then s
  else match s.gridOrder.find? (fun gr => s.afterBad gr die) with
  | some gr => (s.setGrid { gr with aborted := true }).dropWaiter (ioWork 3 gr.uid)
  | none =>
    match s.nextUnit die with
    | some (gr, .fresh b n, cores) => ((s.setGrid (gr.takeUnit b n)).meetClaim gr.uid cores).startCluster gr b cores
    | _ => s.afterMisses die)

/-- ROOM_ADVERTISE (R57). -/
def execRoomAdvertise (die : Nat) (s : State) : Host.Outcome State Fault Refusal :=
  .next (if 4 ≤ die then s
  else
    let room := (dieCores die).map (fun c =>
      let r := s.roomOf c
      (c, r.places, r.localFree, r.parts))
    { s with adverts := s.adverts.filter (fun a => a.die != die) ++ [{ die := die, room := room }] })

/-- The unit of a die that is passed: the first in ascending `%blockid` that no core of the die has room for (R57). -/
def State.passUnit (s : State) (die : Nat) : Option (Grid × Unit0) :=
  s.gridOrder.findSome? (fun gr =>
    if gr.desc.det then none
    else ((s.readyUnits gr [die]).find? (fun u =>
      !(match u with
        | .saved c => s.hasGuest c
        | .fresh _ _ => false) && (s.pickCores gr [die] (s.unitShapes gr u)).isNone)).map (fun u => (gr, u)))

/-- BLOCK_PASS (R57): to the die that advertised the most room, with its saved context. -/
def execBlockPass (die : Nat) (s : State) : Host.Outcome State Fault Refusal :=
  .next (match s.passUnit die with
  | none => s
  | some (gr, u) =>
    let dest := s.bestDie gr.desc ([0, 1, 2, 3].filter (· != die))
    if s.advertised dest gr.desc = 0 then s
    else match u with
    | .fresh b n =>
      let gr' := gr.takeUnit b n
      s.setGrid { gr' with passed := gr'.passed ++ [(b, dest)] }
    | .saved c => { s with blocks := s.blocks.map (fun b => if b.cluster == c then { b with die := dest } else b) })

/-! ## Pre-emption requests -/

/-- The blocks of a cluster launch are pre-empted together (R210), for the place of another block or not (R58). -/
def State.preemptCluster (s : State) (cluster : Nat) (sliced : Bool) : State :=
  { s with blocks := s.blocks.map (fun b =>
      if b.cluster == cluster && b.stage == .resident then { b with preempt := true, sliced := b.sliced || sliced } else b) }

/-- How long a block has been resident, in local clocks or launch clocks (R58, R59). -/
def State.residence (s : State) (gr : Grid) (b : Block) : Nat :=
  (if gr.desc.det then ((s.root? gr.root).map (fun r => r.clock)).getD 0 else s.clockOf b.core) - b.resident

/-- All gangs of a block are asleep on a barrier. -/
def State.blockAsleep (s : State) (b : Block) : Bool :=
  (s.gangsOf b.uid).all (fun g => g.liveGroups.all (fun r => match r.status with
    | .sleepBar _ _ => true
    | _ => false))

/-- The victim of R58: of the blocks whose limit has passed one whose gangs all sleep at a barrier, but in a deterministic
launch always the block resident longest, the lower `%blockid` of two (R59). -/
def State.victim (s : State) (gr : Grid) : Option Block :=
  let due := s.blocks.filter (fun b =>
    b.grid == gr.uid && b.stage == .resident && !b.preempt && gr.desc.quantum * 1700 ≤ s.residence gr b)
  let longest := due.foldl (fun (m : Option Block) b => match m with
    | some x =>
      let i := s.residence gr b
      let j := s.residence gr x
      if j < i || (i == j && b.blockid < x.blockid) then some b else m
    | none => some b) none
  if gr.desc.det then longest
  else match due.find? s.blockAsleep with
    | some b => some b
    | none => longest

/-- Undispatched units of the grid behind its next, as far as AFTER lets them start (R56, R277). -/
def State.unitsBehind (s : State) (gr : Grid) : Nat :=
  let n := cdiv (gr.desc.grid - gr.nextBlock) gr.desc.cluster - 1
  let unit (k : Nat) : Unit0 :=
    let b := gr.nextBlock + (k + 1) * gr.desc.cluster
    .fresh b (gr.unitSize b)
  if gr.after = 0 then n else ((List.range n).takeWhile (fun k => s.afterReady gr (unit k))).length

/-- How many units of the grid wait for which no die has room: where it has none for the next undispatched one, it has none for
those behind it, which are of the same shape (R58). -/
def State.unitsWaiting (s : State) (gr : Grid) : Nat :=
  let l := (s.readyUnits gr [0, 1, 2, 3]).filter (fun u =>
    [0, 1, 2, 3].all (fun e => (s.pickCores gr (s.unitDies gr e u) (s.unitShapes gr u)).isNone))
  l.length + (if l.contains (.fresh gr.nextBlock (gr.unitSize gr.nextBlock)) then s.unitsBehind gr else 0)

/-- Cluster launches of the grid that give up their places to waiting units, and places given up but not yet taken (R58). -/
def State.slicing (s : State) (gr : Grid) : Nat :=
  (s.blocks.filter (fun b => b.grid == gr.uid && b.sliced && b.crank == 0)).length + cdiv gr.claims.length gr.desc.cluster

/-- QUANTUM_EXPIRY (R58): while more units wait than places are being given up, the victim is to go. -/
def execQuantumExpiry (grid : Nat) (s : State) : Host.Outcome State Fault Refusal :=
  .next (match s.grid? grid with
  | none => s
  | some gr =>
    if s.unitsWaiting gr ≤ s.slicing gr then s
    else match s.victim gr with
      | some b => s.preemptCluster b.cluster true
      | none => s)

/-- A request names a context's blocks: those of a PASID, or of one of its queues (R210); a second one is merged with the
first (R214). -/
def State.requestPreempt (s : State) (pasid : Nat) (queue : Option Nat) : State :=
  let hit (b : Block) : Bool := match s.grid? b.grid with
    | some gr => gr.pasid == pasid && gr.depth != 0 && (match queue with
      | some q => gr.queue == q
      | none => true)
    | none => false
  { s with blocks := s.blocks.map (fun b => if b.stage == .resident && hit b then { b with preempt := true } else b) }

/-- PREEMPT_REQUEST (R210). -/
def execPreemptRequest (pasid : Nat) (queue : Option Nat) (s : State) : Host.Outcome State Fault Refusal :=
  .next (s.requestPreempt pasid queue)

/-! ## The lines of a saved context -/

/-- Re-key bytes, keeping them sorted. -/
def rekey (l : List (Nat × Byte)) (f : Nat → Nat) : List (Nat × Byte) :=
  l.foldl (fun acc e => Store.put acc (f e.1) e.2) []

def Galley.rekey (g : Galley) (f : Nat → Nat) : Galley :=
  { bytes := Machine.rekey g.bytes f, marks := g.marks.map (fun p => { p with bytes := Machine.rekey p.bytes f }) }

/-- Re-key the galleys, detached lines and save points of a cluster launch (R214). -/
def State.rekeyCluster (s : State) (cluster : Nat) (f : Nat → Nat) : State :=
  { s with
    gangs := s.gangs.map (fun g => match s.block? g.block with
      | some b => if b.cluster == cluster then
          { g with galley := g.galley.rekey f
                   dlist := g.dlist.map (fun (d : Detached) => { d with bytes := rekey d.bytes f }) } else g
      | none => g)
    blocks := s.blocks.map (fun b => if b.cluster == cluster then { b with galley := b.galley.rekey f } else b)
    clusters := s.clusters.map (fun c => if c.uid == cluster then { c with galley := c.galley.rekey f } else c) }

/-- Does a unified address lie in a frame (first address, length, page)? -/
def inFrame (a : Nat) (f : Nat × Nat × Nat) : Bool := f.1 ≤ a && a < f.1 + f.2.1

/-- The key of a saved line's byte whose frame's entry has been dropped: by its virtual address (R214). -/
def savedKey (frames : List (Nat × Nat × Nat)) (a : Nat) : Nat :=
  match frames.find? (inFrame a) with
  | some f => savedBase + f.2.2 + (a - f.1)
  | none => a

/-- The frames that invalidations in progress have taken from a PASID (R208). -/
def State.lostFrames (s : State) (pasid : Nat) : List (Nat × Nat × Nat) :=
  (s.invals.filter (fun i => i.pasid == pasid)).flatMap (fun i => i.frames)

/-! ## Save -/

/-- The word that a group stands at in its clause. -/
def Run.word? (u : Run) : Option Instr := (u.words[u.idx]?).bind (fun w => (decodeWord u.header.cls w).toOption)

/-- The counter and the number of the `waitcnt` at which a group stands (R180). -/
def Run.waitcnt? (u : Run) (g : Gang) (now : Nat) : Option (Ctr × Nat) :=
  match u.word? with
  | some (.waitcnt f) => some (ctrOf f.sel.toNat, g.scalar32 now f.a)
  | _ => none

/-- Operations that parked or waiting groups' lanes will still join (R17, R206). -/
def Gang.joined (g : Gang) : List Nat :=
  g.groups.filterMap (fun r => match r.run with
    | some u => if u.replaying then u.replay else none
    | none => none)

/-- Does an operation stay outstanding by itself: a parked instruction's entry (R17), or one whose due clock has not come (R60)? -/
def State.stays (s : State) (g : Gang) (o : Op) : Bool := g.joined.contains o.id || !s.duePassed g o.due

/-- The entries of a counter that a hand-over carries: those that stay and what R16 holds behind them (R17). -/
def State.carriedOps (s : State) (g : Gang) (c : Ctr) : List Op := (g.ops.filter (fun p => p.ctr == some c)).dropWhile (fun p => !s.stays g p)

/-- Does a group stand at a `waitcnt` whose wait depends on what the hand-over carries (R180, R210)? -/
def State.heldWaitcnt (s : State) (g : Gang) (r : Group) : Bool :=
  match r.run with
  | some u => match u.waitcnt? g s.now with
    | some (c, n) => decide (n < (s.carriedOps g c).length)
    | none => false
  | none => false

/-- Is a group halted (R210): outside clauses, at such a `waitcnt`, or in a guest that stands halted; one that has been released
inside its clause runs on. A group of a deterministic launch stands where its launch clock has stopped (R60; log 23). -/
def State.groupHalted (s : State) (g : Gang) (r : Group) : Bool :=
  match r.status with
  | .running => r.run.isNone || g.det s || s.heldWaitcnt g r
  | .ready => r.run.isNone || g.det s || g.guest.any (fun q => q.halted)
  | .waitAts => r.run.isNone
  | _ => true

/-- Is no group of a gang inside a clause that runs, so that a deterministic launch may move the gang (R53, R62)? -/
def Gang.betweenClauses (g : Gang) : Bool :=
  g.groups.all (fun r => match r.status with
    | .running | .waitAts => r.run.isNone
    | .ready => r.run.all (fun u => u.stood)
    | _ => true)

/-- The gangs of a deterministic launch, those of the grids launched from it included. -/
def State.rootGangs (s : State) (root : Nat) : List Gang :=
  s.gangs.filter (fun g => match g.grid? s with
    | some gr => gr.desc.det && gr.root == root
    | none => false)

/-- Has a group its next word to issue at the present launch clock, or lanes of one to replay? -/
def Group.wordLeft (r : Group) (clock : Nat) : Bool :=
  match r.run with
  | none => false
  | some u => u.replaying || (match r.status with
    | .running | .waitAts => decide (r.nextClock ≤ clock)
    | .ready => u.stood && decide (r.nextClock ≤ clock)
    | _ => false)

/-- Have words of a deterministic launch still to issue at its present launch clock? Its due effects come after them. -/
def State.wordsLeft (s : State) (root : Nat) : Bool :=
  let clock := ((s.root? root).map (fun r => r.clock)).getD 0
  (s.rootGangs root).any (fun g => g.groups.any (fun r => r.wordLeft clock))

def State.wordsBefore (s : State) (g : Gang) : Bool := (g.grid? s).any (fun gr => s.wordsLeft gr.root)

/-- Has an operation done all it is to do before its landing? -/
def Op.landable (o : Op) : Bool :=
  o.done && (match o.kind with
    | .request r => r.flying.isEmpty && r.held.isNone
    | _ => true)

/-- Does the launch clock, in a deterministic launch, keep an effect back: its due clock has not come, or the words of this clock
come first (R60)? -/
def State.keptBack (s : State) (g : Gang) (due : Option Nat) : Bool := due.isSome && (!s.duePassed g due || s.wordsBefore g)

/-- An operation that the drain does not wait for (R17, R210): a parked instruction's, whose performed lanes have landed, and one
that R16 holds behind such a one; in a deterministic launch one whose work is done, or is a pending effect (R60). -/
def State.opCarried (s : State) (g : Gang) (o : Op) : Bool :=
  if g.det s then o.landable || (s.keptBack g o.due && (match o.kind with
    | .load _ _ _ _ => false
    | _ => true))
  else
    o.landable && (if g.joined.contains o.id then o.writes.isEmpty && o.err.isNone
      else o.ctr.any (fun c => (s.carriedOps g c).any (fun p => p.id == o.id)))

/-- Halted and drained (R210): groups halted; operations landed but for what the hand-over carries; the detached lines granted but
for those with a due clock that has not come; no arrival on its way, but for one that the launch clock keeps back. -/
def State.drained (s : State) (g : Gang) : Bool :=
  g.groups.all (s.groupHalted g) && g.ops.all (s.opCarried g) && g.dlist.all (fun d => s.keptBack g d.due) &&
    (g.arriving.isEmpty || g.det s)

/-- A latched error that nothing has waited for is raised before a hand-over, at the word or header where the gang's lowest
group stands (R209). -/
def State.raiseHandOver (s : State) (g : Gang) : State :=
  match g.errs, g.liveGroups with
  | e :: _, r :: rs =>
    let low := rs.foldl (fun (b : Group) q => if lowSlice q.slices < lowSlice b.slices then q else b) r
    let f : Raise := match low.run with
      | some u => ⟨e.code, e.tval, low.at?, u.idx + 1, some u.hdr, u.skips, u.allot⟩
      | none => ⟨e.code, e.tval, low.pc, low.clauseAt.2 + (if low.mid.isSome then 1 else 0), low.mid, low.skips, low.allot⟩
    (s.setGang (g.dropErr e)).faultOut g.uid (lowSlice low.slices) f
  | _, _ => s

/-- A group in a context record: it holds no port; a parked one stays parked, with the accesses it waits for (R53, R211). -/
def Group.saved (r : Group) : Group :=
  let r := r.standBy
  { r with
    status := if r.status == .waitAts then .ready else r.status
    waits := if r.status == .parked then r.waits else []
    refused := [], readyAt := none, keepOn := none, run := r.run.map (fun (u : Run) => { u with port := none }) }

/-- The flags that stay set through a save: those that the clause of a parked group names (R17), and the clause of one that is
saved inside it, with a halted guest or in a deterministic launch (R60, R291). -/
def Gang.parkedFlags (g : Gang) (det : Bool) : BitVec 12 :=
  let inside := det || g.guest.any (fun q => q.halted)
  g.groups.foldl (fun a r => match r.run with
    | some u => if r.status == .parked || inside then a ||| flagSet u.header.fa ||| flagSet u.header.fb else a
    | none => a) 0

/-- A gang in its context record (R17, R211); a guest keeps its guest slot (R291). -/
def Gang.saved (g : Gang) (det : Bool) : Gang :=
  { g with
    place := if g.isGuest then g.place else .none
    slots := []
    pull := g.pull.map (fun q => { q with place := none })
    flags := g.flags &&& g.parkedFlags det
    groups := g.groups.map Group.saved }

/-- The parts of the context area that a save of a block writes: its record, and with the first block of a cluster launch the
record of that (R211, R212): first byte and length. -/
def Desc.recordParts (d : Desc) (blockid crank : Nat) : List (Nat × Nat) :=
  (d.areaAt blockid 0, d.recordBytes) :: (if crank = 0 then [(d.areaAt blockid 3, clusterRecord)] else [])

/-- The pages of such a part. -/
def partPages (p : Nat × Nat) : List Nat := (List.range (cdiv p.2 4096)).map (fun k => (p.1 + 4096 * k) % 2 ^ 56)

/-- The pages of a block's record that its core cannot write yet. -/
def State.recordMisses (s : State) (gr : Grid) (b : Block) : List Nat :=
  ((gr.desc.recordParts b.blockid b.crank).flatMap partPages).filter (fun va => match s.lookup b.core gr.pasid va with
    | .hit _ _ w => !w
    | .miss => true)

/-- A block's record is written, in a layout of the device's own: its bytes are free (R211; log 10). -/
def State.writeRecord (s : State) (gr : Grid) (b : Block) : State :=
  (gr.desc.recordParts b.blockid b.crank).foldl (fun s p =>
    s.homeWrites ((List.range p.2).filterMap (fun k => match s.lookup b.core gr.pasid ((p.1 + k) % 2 ^ 56) with
      | .hit a _ _ => some (a, BitVec.ofNat 8 (Config.freeNat s.now (2 ^ 90 + p.1 + k)))
      | .miss => none)) none) s

/-- Everything of a cluster launch is saved: its blocks are suspended and give up their cores; where the place is another
block's, the grid's claim on it stands (R58, R211), and otherwise the launch clock of a deterministic launch waits for them (R60).
Lines whose entries an invalidation has dropped go by their virtual addresses (R214). -/
def State.suspend (s : State) (gr : Grid) (bs : List Block) : State :=
  let ids := bs.map (fun x => x.uid)
  let claims := (bs.filter (fun x => x.sliced)).map (fun x => x.core)
  let s' := { s with
    gangs := s.gangs.map (fun g => if ids.contains g.block then g.saved gr.desc.det else g)
    grids := s.grids.map (fun x => if x.uid == gr.uid then { x with claims := x.claims ++ claims } else x)
    blocks := s.blocks.map (fun x =>
      if ids.contains x.uid then
        { x with stage := .suspended, preempt := false, sliced := false, awaited := gr.desc.det && !x.sliced
                 die := dieOf x.core, since := s.now }
      else x) }
  match bs, s.lostFrames gr.pasid with
  | b :: _, f :: fs => s'.rekeyCluster b.cluster (savedKey (f :: fs))
  | _, _ => s'

/-- The record of a launch whose context is lost to an uncorrectable error: no gang faulted, and `%tval` is the context
record's address (R214, R270; log 51). -/
def lostContext (gr : Grid) (b : Block) : FaultRec :=
  { code := .uncorrectable, first := none, tval := BitVec.ofNat 64 (gr.desc.areaAt b.blockid 0), tret := 0, block := 0, gang := 0 }

/-- CONTEXT_SAVE (R210, R211, R214): once every gang of the cluster launch is halted and drained, and the record's pages can be
written, every block of it is suspended; an uncorrectable error loses the context. -/
def execContextSave (block : Nat) (s : State) : Host.Outcome State Fault Refusal :=
  .next (match s.block? block with
  | none => s
  | some b =>
    let bs := (s.blocksOf b.cluster).filter (fun x => x.stage == .resident)
    match s.grid? b.grid with
    | none => s
    | some gr =>
      if bs.isEmpty || !bs.all (fun x => x.preempt && (s.gangsOf x.uid).all (fun g =>
          (g.place == .none && g.groups.isEmpty) || (g.live != 0 && s.drained g))) then s
      else match s.gangs.find? (fun g => bs.any (fun x => x.uid == g.block) && g.live != 0 && !g.errs.isEmpty) with
      | some g => s.raiseHandOver g
      | none =>
        if s.bad.contains (.context b.cluster) then s.abortGrid gr.uid (some (lostContext gr b))
        else match bs.flatMap (fun x => (s.recordMisses gr x).map (fun va => (x.core, va))) with
        | [] => (bs.foldl (fun s x => s.writeRecord gr x) s).suspend gr bs
        | l => l.foldl (fun s e => s.requestAts (.area e.1 gr.uid) gr.pasid e.2 true) s)

/-! ## Restore -/

/-- The entries of a gang in the queues of the engines go over to another core and partition (R53, R60). -/
def State.moveEntriesTo (s : State) (uid core part : Nat) : State :=
  let m := s.cores.flatMap (fun c => (c.mq.filter (fun e => e.2.1 == uid)).map (fun e => (part, e.2)))
  let r := s.cores.flatMap (fun c => c.rq.filter (fun e => e.1 == uid))
  { s with cores := s.cores.map (fun c =>
      let c : Core := { c with mq := c.mq.filter (fun e => e.2.1 != uid), rq := c.rq.filter (fun e => e.1 != uid) }
      if c.key == core then { c with mq := c.mq ++ m, rq := c.rq ++ r } else c) }

/-- The entries of a gang follow it to the core that schedules it from now on; `from0` is the one that did. -/
def State.moveEntries (s : State) (uid : Nat) (from0 : Nat × Nat) : State :=
  match s.gang? uid with
  | none => s
  | some g => if s.schedAt g == from0 then s else s.moveEntriesTo uid (s.schedAt g).1 (s.schedAt g).2

/-- Does the access that a group waits with write memory? -/
def Group.waitsWrite (r : Group) : Bool :=
  match r.run.bind Run.word? with
  | some (.st _) | some (.sts _) | some (.atom _) | some (.atomf _) | some (.atomcas _) => true
  | some (.sigop f) => f.sel.toNat != 2
  | _ => false

/-- A parked group looks up its translations again: those it still misses are asked for, and it goes on once it has them all
(R213). -/
def State.lookAgain (s : State) (g : Gang) (r : Group) : State :=
  let pasid := g.pasid s
  let left := r.waits.filter (fun e => match s.lookup g.coreKey pasid e.2.2 with
    | .hit _ _ _ => false
    | .miss => true)
  let s := s.updGang g.uid (fun g => g.setGroup { r with waits := left, status := if left.isEmpty then .ready else .parked })
  left.foldl (fun s e => s.requestMiss g pasid r.waitsWrite e) s

/-- One gang of a restored block on its new core and partition (R213). -/
def State.restoreGang (s : State) (g : Gang) (core part : Nat) : State :=
  let slots := s.freeSlots core part (g.measure / 32)
  let unlocked := (s.kernelRights (g.pasid s)).getLsbD 0
  let place : Place := if g.isGuest && unlocked then g.place else .press part (slots.headD 0)
  let g' : Gang := { g with home := (core, part), slots := slots, place := place
                            guest := if g.isGuest && unlocked then g.guest else none }
  let s := (s.setGang g').moveEntriesTo g.uid (s.schedAt g').1 (s.schedAt g').2
  (g'.groups.filter (fun r => r.status == .parked)).foldl (fun s r => match s.gang? g.uid with
    | some h => s.lookAgain h r
    | none => s) s

/-- One block of a suspended cluster restored on a core (R213); one that its launch clock has waited for goes on where and as long as
it stood (R60). -/
def State.restoreBlock (s : State) (gr : Grid) (b : Block) (core : Nat) : State :=
  let gs := (s.gangsOf b.uid).filter (fun g => g.live != 0)
  match (s.roomOf core).refit gr.desc (s.savedShapes b) (if b.awaited then gs.map (fun g => g.home.2) else []) with
  | none => s
  | some l =>
    let clock := if gr.desc.det then ((s.root? gr.root).map (fun r => r.clock)).getD 0 else s.clockOf core
    let s := s.setBlock { b with stage := .resident, core := core, die := dieOf core
                                 resident := if b.awaited then b.resident else clock, awaited := false, since := s.now }
    (gs.zip l).foldl (fun s e => s.restoreGang e.1 core e.2) s

/-- Is a key that of a saved line whose translation was dropped? -/
def isSavedKey (a : Nat) : Bool := savedBase ≤ a && a < localBase

/-- The saved keys of a cluster launch's galleys and detached lines. -/
def State.savedKeys (s : State) (cluster : Nat) : List Nat :=
  let own (l : List (Nat × Byte)) : List Nat := (l.map (fun e => e.1)).filter isSavedKey
  ((s.clusters.filter (fun c => c.uid == cluster)).flatMap (fun c => own c.galley.bytes)) ++
    (s.blocksOf cluster).flatMap (fun b => own b.galley.bytes ++
      (s.gangsOf b.uid).flatMap (fun g => own g.galley.bytes ++ g.dlist.flatMap (fun d => own d.bytes)))

/-- The place a saved key's byte has now. -/
def State.restoredKey (s : State) (core pasid a : Nat) : Nat :=
  if isSavedKey a then (match s.lookup core pasid (a - savedBase) with
    | .hit u _ _ => u
    | .miss => a)
  else a

/-- The saved lines are translated again (R214): the state with the requests that are still needed, or with all lines placed. -/
def State.retranslate (s : State) (gr : Grid) (cluster core : Nat) : Bool × State :=
  let misses := (s.savedKeys cluster).filter (fun a => isSavedKey (s.restoredKey core gr.pasid a))
  if misses.isEmpty then (true, s.rekeyCluster cluster (s.restoredKey core gr.pasid))
  else (false, misses.foldl (fun s a => s.requestAts (.area core gr.uid) gr.pasid (a - savedBase) true) s)

/-- BLOCK_RESTORE (R213): the suspended unit that is next on a die, once its saved lines translate. -/
def execBlockRestore (die : Nat) (s : State) : Host.Outcome State Fault Refusal :=
  .next (match s.nextUnit die with
  | some (gr, .saved c, cores) =>
    let t := s.retranslate gr c (cores.headD 0)
    if t.1 then
      (cores.mapIdx (fun k core => (k, core))).foldl (fun s e => match s.rankBlock c e.1 with
        | some b => s.restoreBlock gr b e.2
        | none => s) (t.2.meetClaim gr.uid cores)
    else t.2
  | _ => s)

end Sys2Proof.Machine
end

