-- ==== Sys2Proof/Machine/EvMemory.lean ====
section
/-!
DEFINITION. The transitions of R188 that take effect after issue: RESOLVE, GRANT, ATOMIC, CABORT, LAND, PHASE, DELIVER and the
retirements of R162; the effects that a deterministic launch takes at its due clocks (R59, R60, R195); the hand-over of
children (R216, R278) and a block's completion event (R41, R277).
-/
namespace Sys2Proof.Machine

/-! ## Addresses as an error reports them -/

/-- The effective address of a byte by its place: a local offset, a device number and offset, or the frame (R159, R326). -/
def placeEa (a : Nat) : W64 :=
  match homeOf a with
  | .local _ => BitVec.ofNat 64 (0x10 * 2 ^ 57 + (a - localBase) % 2 ^ 19)
  | .remote d => BitVec.ofNat 64 (0x30 * 2 ^ 57 + d * 2 ^ 48 + (a - remoteBase) % 2 ^ 48)
  | .host => BitVec.ofNat 64 (a - hostBase)
  | _ => BitVec.ofNat 64 a

/-- The effective address of a byte for a PASID: the page that a standing translation leads from, with space 0 (R209); else by its
place (log 51). -/
def State.eaOf (s : State) (pasid a : Nat) : W64 :=
  match s.mapped.find? (fun t => t.pasid == pasid && t.target t.page ≤ a && a < t.target t.page + 2 ^ t.log2) with
  | some t => BitVec.ofNat 64 (t.page + (a - t.target t.page))
  | none => placeEa a

def State.updOp (s : State) (uid id : Nat) (f : Op → Op) : State :=
  s.updGang uid (fun g => match g.op? id with
    | some o => g.setOp (f o)
    | none => g)

/-! ## Fabric items of an operation -/

/-- Does a lane still hold an item of an operation? -/
def State.inFlight (s : State) (uid id : Nat) : Bool :=
  s.lanes.any (fun l => l.items.any (fun it => match it with
    | .store g o _ | .atom g o _ => g == uid && o == id
    | .unit _ g o _ _ => g == uid && o == id
    | .copyUnit _ _ _ _ => false))

/-! ## Due effects (R59, R60, R195) -/

/-- An effect that a deterministic launch owes: its due clock, its kind (0 grant, 1 atomic, 2 child launch, 3 request, 4 matrix
start), the numbers that order effects of one clock, and what it belongs to. -/
structure DueItem where
  (due kind a b c gang op : Nat)
deriving DecidableEq, Repr, Inhabited

/-- The order of due effects: by due clock, then by kind (log 23), then as their kind orders them (R59). -/
def DueItem.key (d : DueItem) : List Nat := [d.due, d.kind, d.a, d.b, d.c, d.op]

def lexLt : List Nat → List Nat → Bool
  | x :: xs, y :: ys => x < y || (x == y && lexLt xs ys)
  | _, _ => false

/-- May a request of an atomic be taken: earlier atomics of the gang to its address have been, and earlier loads of its bytes
have resolved, each by its place in the order of issues (R188, R206)? -/
def Gang.atomReady (g : Gang) (r : AReq) (n : Nat) : Bool :=
  g.ops.all (fun p => match p.kind with
    | .atom b => b.reqs.all (fun q => q.taken || q.addr != r.addr || r.order ≤ q.order)
    | .load ty _ _ accs => accs.all (fun x => r.order ≤ x.order || x.addr + ty.bytes ≤ r.addr || r.addr + n ≤ x.addr)
    | _ => true)

/-- The lowest lane of a request. -/
def AReq.lane (r : AReq) : Nat := ((r.lanes.head?).map (·.1)).getD 128

/-- The request that an atomic takes next in a deterministic launch: of those it may take, the one of the lowest lane (R59). -/
def Gang.nextReq (g : Gang) (a : AtomOp) : Option AReq :=
  (a.reqs.filter (fun r => !r.taken && g.atomReady r a.ty.bytes)).foldl (fun (m : Option AReq) r => match m with
    | none => some r
    | some x => if r.lane < x.lane then some r else m) none

/-- May a request take effect as far as its core's queue goes: no earlier one with a due clock is still to (R255)? -/
def State.requestTurn (s : State) (g : Gang) (id : Nat) : Bool :=
  (s.reqEntry (s.schedAt g).1 id (fun o _ => o.done || o.due.isNone)).isSome

/-- The effects that one gang owes: grants by `%gangid` and `%blockid`, atomics by `%blockid`, `%gangid` and `%laneid` (R59),
children by block and gang (R216), requests in issue order, matrix instructions at the head of their queue. -/
def State.gangDues (s : State) (g : Gang) : List DueItem :=
  let blk := ((s.block? g.block).map (fun b => b.blockid)).getD 0
  let grant := match g.dlist with
    | d :: _ => match d.due with
      | some k => [{ due := k, kind := 0, a := g.gangid, b := blk, c := 0, gang := g.uid, op := d.op : DueItem }]
      | none => []
    | [] => []
  grant ++ g.ops.filterMap (fun o => match o.due with
    | none => none
    | some k =>
      if o.done then none
      else match o.kind with
        | .atom a => (g.nextReq a).map (fun r => ⟨k, 1, blk, g.gangid, r.lane, g.uid, o.id⟩)
        | .sigop _ _ _ _ _ => if o.started then some ⟨k, 1, blk, g.gangid, 0, g.uid, o.id⟩ else none
        | .launch _ _ => if o.started then some ⟨k, 2, blk, g.gangid, 0, g.uid, o.id⟩ else none
        | .request r => if r.held.isSome || !s.requestTurn g o.id then none else some ⟨k, 3, (s.schedAt g).1, 0, 0, g.uid, o.id⟩
        | .matrix _ => if s.startEntry (s.schedAt g).1 (s.schedAt g).2 == some ((s.schedAt g).2, g.uid, o.id) then
            some ⟨k, 4, (s.schedAt g).1, 0, 0, g.uid, o.id⟩ else none
        | _ => none)

def State.dueItems (s : State) (root : Nat) : List DueItem := (s.rootGangs root).flatMap s.gangDues

/-- The effect that a launch owes first. -/
def State.firstDue (s : State) (root : Nat) : Option DueItem :=
  (s.dueItems root).foldl (fun (m : Option DueItem) d => match m with
    | none => some d
    | some x => if lexLt d.key x.key then some d else m) none

/-- May an operation's effect be taken now: outside a deterministic launch always; in one, only as the first one owed, at its
due clock. -/
def State.detTurn (s : State) (g : Gang) (op : Nat) (due : Option Nat) : Bool :=
  match due with
  | none => true
  | some k => k ≤ s.launchClock g && (match g.grid? s with
    | some gr => match s.firstDue gr.root with
      | some d => d.gang == g.uid && d.op == op
      | none => true
    | none => true)

/-! ## RESOLVE -/

/-- RESOLVE (R161, R188); a lane whose home cannot be reached writes no destination, and the error is latched (R326). -/
def State.resolveNow (s : State) (uid id : Nat) : State :=
  match s.gang? uid with
  | none => s
  | some g => match g.op? id with
    | none => s
    | some o => match o.kind with
      | .load ty scalar dst accs =>
        if o.done then s
        else
          let o' := { o with kind := .load ty scalar dst (accs.filter (fun a => !s.lost a.addr)) }
          let s' := s.resolveOp uid none o'
          match accs.find? (fun a => s.lost a.addr) with
          | some a => s'.updOp uid id (fun o => o.fail .accessDenied a.ea)
          | none => s'
      | _ => s

/-- RESOLVE (R188). -/
def execResolve (gang op : Nat) (s : State) : Host.Outcome State Fault Refusal := .next (s.resolveNow gang op)

/-! ## GRANT -/

/-- Does a save point's test fail at a target level (R171)? -/
def SavePoint.failed (p : SavePoint) (target : Nat) : Bool :=
  p.overfull || p.writes.any (fun w => w.1 == target && p.reads.contains w.2)

/-- An operation at a grant that is not made (R159, R209): the error is latched on flag A and the `st` counter, and the operation
ends; a request that waited for the grant moves no unit, and the spec gives it no reason, so that is free (log 51). -/
def Op.grantLost (o : Op) (code : Code) (tval : W64) (reason : Nat) : Op :=
  let o := { o with done := true, err := some { ctr := some .st, flag := o.flag, code := code, tval := tval } }
  match o.kind with
  | .launch d _ => { o with kind := .launch d [] }
  | .request r => { o with kind := .request { r with held := none, reason := reason } }
  | _ => o

/-- What follows a grant for the operations of its gang: a commit is done, or waits for its remote lines; a launch, a `sigop`
or a request with REL may go on (R168, R216, R219, R251). -/
def State.afterGrant (s : State) (uid id : Nat) (write : Option (Nat × W32)) : State :=
  let flying := s.inFlight uid id
  s.updGang uid (fun g => { g with ops := g.ops.map (fun (o : Op) => match o.kind with
    | .commit _ =>
      if o.id == id then { o with done := !flying, started := true, writes := (write.map (fun w => RegWrite.s w.1 w.2)).toList }
      else o
    | .launch _ _ | .sigop _ _ _ _ _ => if o.id == id then { o with started := true } else o
    | .request r => if r.held == some id then { o with kind := .request { r with held := none } } else o
    | _ => o) })

/-- The gang galley after a successful grant of its commit: its marks are cleared (R168). -/
def Gang.clearMarks (g : Gang) : Gang := { g with galley := { g.galley with marks := [] } }

/-- The gang galley after a failed `commitc` (R171): the save point's bytes beneath those stored since, in G(g) or in lines that
a later commit has detached. -/
def Gang.rollBack (g : Gang) (p : SavePoint) : Gang :=
  let back := p.bytes.filter (fun e => !g.dlist.any (fun d => (Store.get? d.bytes e.1).isSome))
  { g with galley := { bytes := Store.merge back g.galley.bytes, marks := g.galley.marks.drop 1 } }

/-- The destination of a `commitc`. -/
def Gang.condDst (g : Gang) (id : Nat) : Option Nat :=
  (g.op? id).bind (fun (o : Op) => match o.kind with
    | .commit c => c
    | _ => none)

/-- Does a gang's launch end early, so that what its galleys hold is discarded (R202)? -/
def State.discards (s : State) (blk : Block) : Bool := (s.grid? blk.grid).any (fun gr => gr.stopped)

/-- The first of the lines that a grant would move in which an uncorrectable error stands (R209). -/
def State.badLine (s : State) (g : Gang) (blk : Block) (d : Detached) : Option Nat :=
  let own := (linesOf d.bytes).filter (fun ln => s.bad.contains (.line 0 g.uid ln))
  let up1 := if 1 ≤ d.lvl then (linesOf blk.galley.bytes).filter (fun ln => s.bad.contains (.line 1 blk.uid ln)) else []
  let up2 := if 2 ≤ d.lvl then (((s.cluster? blk.cluster).map (fun c => linesOf c.galley.bytes)).getD []).filter
    (fun ln => s.bad.contains (.line 2 blk.cluster ln)) else []
  (own ++ up1 ++ up2).head?

/-- A grant is not made: the detached lines are discarded, and the error is latched (R159, R209). -/
def State.loseGrant (s : State) (g : Gang) (d : Detached) (rest : List Detached) (code : Code) (a : Nat) : State :=
  let lost (o : Op) : Op := o.grantLost code (s.eaOf (g.party s).pasid a) (1 + Config.freeNat s.now (2 ^ 109 + o.id) % 7)
  s.setGang { g with
    dlist := rest
    ops := g.ops.map (fun (o : Op) => match o.kind with
      | .request r => if r.held == some d.op then lost o else o
      | _ => if o.id == d.op then lost o else o) }

/-- The oldest entry of D(g) is granted (R168, step 2; R171); of a launch that ends early no byte goes on (R202). -/
def State.grantHead (s : State) (g : Gang) (blk : Block) (d : Detached) (rest : List Detached) : State :=
  let cond := if d.cond then g.galley.marks.head?.filter (fun p => p.hasReads && p.failed (targetRank d.lvl)) else none
  match cond with
  | some p =>
    let s := s.setGang (Gang.rollBack { g with dlist := rest } p)
    s.afterGrant g.uid d.op ((g.condDst d.op).map (fun r => (r, 0)))
  | none =>
    match s.badLine g blk d with
    | some ln => s.loseGrant g d rest .uncorrectable (128 * ln)
    | none =>
    let carried := if s.discards blk then [] else s.grantBytes blk d.bytes d.lvl
    match s.grantOverflow blk carried d.lvl with
    | some a => s.loseGrant g d rest .accessDenied a
    | none =>
      let s := s.setGang (Gang.clearMarks { g with dlist := rest })
      let s := s.applyGrant g.uid d.op blk carried d.lvl
      let s := s.afterGrant g.uid d.op ((g.condDst d.op).map (fun r => (r, 1)))
      match d.arrive with
      | some a => s.sendArrival g.uid a.1 a.2.1 (((g.op? d.op).map (fun o => o.pc)).getD 0)
      | none => s

/-- The grant of a gang's oldest commit, where it may be taken. -/
def State.grantNow (s : State) (uid : Nat) : State :=
  match s.gang? uid with
  | none => s
  | some g => match g.dlist, s.block? g.block with
    | d :: rest, some blk => if s.detTurn g d.op d.due then s.grantHead g blk d rest else s
    | _, _ => s

/-- GRANT (R188). -/
def execGrant (gang : Nat) (s : State) : Host.Outcome State Fault Refusal := .next (s.grantNow gang)

/-! ## ATOMIC -/

/-- The level an atomic is performed at, as a place: 0 the home, 1 G(block), 2 G(cluster) (R175). -/
def atomPlace (scope : Scope) (a : Nat) : Nat := placeRank (scopeRank scope) a

/-- The bytes of a line that a gang's galley, its detached lines and the galleys below the place hold, the lowest winning. -/
def State.lineCarried (s : State) (g : Gang) (blk : Block) (ln place : Nat) : List (Nat × Byte) :=
  let own (l : List (Nat × Byte)) : List (Nat × Byte) := l.filter (fun e => lineOf e.1 == ln)
  let up := if place = 1 then [] else
    Store.merge (if place = 2 then [] else ((s.cluster? blk.cluster).map (fun c => c.galley.lineBytes ln)).getD [])
      (blk.galley.lineBytes ln)
  Store.merge (g.dlist.foldl (fun acc d => Store.merge acc (own d.bytes)) up) (g.galley.lineBytes ln)

/-- The line leaves those galleys, the detached lines and their save points (R175, R188). -/
def State.dropCarried (s : State) (g : Gang) (blk : Block) (ln place : Nat) : State :=
  let s := s.setGang { g with
    galley := g.galley.dropLine ln
    dlist := g.dlist.map (fun d => { d with bytes := d.bytes.filter (fun e => lineOf e.1 != ln) }) }
  let s := if place = 1 then s else s.updBlock blk.uid (fun b => { b with galley := b.galley.dropLine ln })
  if place = 0 then s.updCluster blk.cluster (fun c => { c with galley := c.galley.dropLine ln }) else s

/-- Would the line take a galley past its capacity (R159)? -/
def State.lineOverflow (s : State) (blk : Block) (ln place : Nat) : Bool :=
  match place with
  | 0 => false
  | 1 => let l := linesOf blk.galley.bytes
    !l.contains ln && blockLines ≤ l.length
  | _ => match s.cluster? blk.cluster with
    | some c => let l := linesOf c.galley.bytes
      !l.contains ln && clusterLines ≤ l.length
    | none => false

/-- Bytes written at a place of this device. -/
def State.writePlace (s : State) (blk : Block) (place : Nat) (l : List (Nat × Byte)) : State :=
  match place with
  | 0 => s.writeBytes l
  | 1 => s.intoBlock blk.uid l
  | _ => s.intoCluster blk.cluster l

/-- The writes that the `commitc` of other gangs sees: the line at every level reached (R169, R175). -/
def State.noteAtomic (s : State) (g : Gang) (blk : Block) (ln target : Nat) : State :=
  let s := s.noteWrites 1 blk.uid [ln] (some g.uid)
  let s := if 2 ≤ target then s.noteWrites 2 blk.cluster [ln] (some g.uid) else s
  if 3 ≤ target then s.noteWrites 3 0 [ln] (some g.uid) else s

/-- The current value at a place, resolved from there upwards (R175). -/
def State.placeValue (s : State) (blk : Block) (place a n : Nat) : Nat :=
  bytesVal ((List.range n).map (fun k => match place with
    | 0 => s.readByte (a + k)
    | 1 => s.seenByte blk.uid (a + k)
    | _ => match (s.cluster? blk.cluster).bind (fun c => Store.get? c.galley.bytes (a + k)) with
      | some b => b
      | none => s.readByte (a + k)))

/-- `combine` of R176 for the integer forms, by SEL: ADD, MIN, MAX, AND, OR, XOR, SWAP. -/
def atomCombine (ty : Ty) (op x y : Nat) : Nat :=
  let w := ty.width
  let v (z : Nat) : Int := if ty.isI then sintOf w z else ((z % 2 ^ w : Nat) : Int)
  match op with
  | 0 => wrapI w (v x + v y)
  | 1 => wrapI w (min (v x) (v y))
  | 2 => wrapI w (max (v x) (v y))
  | 3 => x &&& y
  | 4 => x ||| y
  | 5 => x ^^^ y
  | _ => y

def atomFmt (ty : Ty) : FFmt := if ty.is64 then fmt64 else fmt32

/-- An `atomf` sum, rounded RNE; a NaN is the canonical one (R177). -/
def atomSum (ty : Ty) (x y : Nat) : Nat :=
  let f := atomFmt ty
  (f.rne (addAt (f.decode x) (f.decode y))).1

/-- An `atomf` MIN or MAX (R177). -/
def atomMinmax (ty : Ty) (isMax : Bool) (x y : Nat) : Nat :=
  let f := atomFmt ty
  (f.rne (minmaxV isMax (f.decode x) (f.decode y)).1).1

/-- The old value of each lane and the value left, for the lanes of one request in ascending number (R176 to R178). -/
def atomLanes (a : AtomOp) (m : Nat) (lanes : List (Nat × W64 × W64)) : List (Nat × Nat × Nat) :=
  let seq (f : Nat → W64 × W64 → Nat) : List (Nat × Nat × Nat) :=
    (lanes.foldl (fun (acc : Nat × List (Nat × Nat × Nat)) l =>
      let new := f acc.1 l.2
      (new, acc.2 ++ [(l.1, acc.1, new)])) (m, [])).2
  match a.kind with
  | 0 => seq (fun x b => atomCombine a.ty a.op x b.1.toNat)
  | 1 =>
    if a.op = 0 then
      let sums := (lanes.foldl (fun (acc : List Nat) l => match acc.getLast? with
        | none => [l.2.1.toNat]
        | some p => acc ++ [atomSum a.ty p l.2.1.toNat]) [])
      let value (k : Nat) : Nat := if k = 0 then m else atomSum a.ty m (sums.getD (k - 1) 0)
      lanes.mapIdx (fun k l => (l.1, value k, value (k + 1)))
    else seq (fun x b => atomMinmax a.ty (a.op == 2) x b.1.toNat)
  | _ => seq (fun x b => if x = b.2.toNat then b.1.toNat else x)

/-- The request's operation at its place (R176): the value left, and the old values of the lanes. -/
def AtomOp.run (a : AtomOp) (m : Nat) (r : AReq) : Nat × List RegWrite :=
  let l := atomLanes a m r.lanes
  ((l.getLast?.map (fun x => x.2.2)).getD m,
    match a.dst with
    | some d => l.flatMap (fun x => laneWrites a.ty (.v (BitVec.ofNat 8 d)) x.1 x.2.1)
    | none => [])

/-- Change one request of an atomic, named by its address and its place in the order of issues. -/
def AtomOp.mapReq (a : AtomOp) (r : AReq) (f : AReq → AReq) : AtomOp :=
  { a with reqs := a.reqs.map (fun q => if q.addr == r.addr && q.order == r.order then f q else q) }

/-- A request of an atomic is done, with its results; the atomic is done with its last. -/
def State.finishReq (s : State) (uid id : Nat) (r : AReq) (writes : List RegWrite) : State :=
  s.updOp uid id (fun o => match o.kind with
    | .atom a =>
      let a := a.mapReq r (fun q => { q with taken := true, done := true })
      { o with kind := .atom a, done := a.reqs.all (fun r => r.done), writes := o.writes ++ writes }
    | _ => o)

/-- What triggers and watchpoints see of a performed request (R289, R297): each lane's write; a compare that fails writes
nothing. -/
def State.atomSeen (s : State) (uid : Nat) (o : Op) (a : AtomOp) (m : Nat) (r : AReq) : State :=
  let l := (atomLanes a m r.lanes).zip r.lanes
  let l := l.filter (fun x => a.kind != 2 || x.1.2.1 == x.2.2.2.toNat)
  let n := a.ty.bytes
  let s := s.fireTriggers uid 1 (fun t => l.any (fun x => (wholeWords r.ea n x.1.2.2).any (fun w => t.dataMatch w.1 w.2)))
  s.watchSees uid none o.pc ((s.gang? uid).bind (fun g => g.op? o.id)) (l.flatMap (fun x => ((wholeWords r.ea n x.1.2.1).zip (wholeWords r.ea n x.1.2.2)).map (fun w =>
    { kind := 1, lane := x.1.1, addr := w.1.1, old := w.1.2, new := w.2.2 : Seen })))

/-- Does an uncorrectable error stand in the datum of a request, in the lines its line commit carries or at its place (R209)? -/
def State.badAtomic (s : State) (g : Gang) (blk : Block) (place a n : Nat) (carried : List (Nat × Byte)) : Bool :=
  (List.range n).any (fun k =>
    if (Store.get? carried (a + k)).isSome then s.bad.contains (.line 0 g.uid (lineOf a))
    else match place with
      | 1 => s.badSeen blk.uid (a + k)
      | 2 => if ((s.cluster? blk.cluster).bind (fun c => Store.get? c.galley.bytes (a + k))).isSome then
          s.bad.contains (.line 2 blk.cluster (lineOf a)) else s.badBytes (a + k) 1
      | _ => s.badBytes (a + k) 1)

/-- The value an operation finds where an uncorrectable error stands in it is open (log 51). -/
def State.lostValue (s : State) (a n : Nat) : Nat := Config.freeNat s.now (2 ^ 110 + a) % 256 ^ n

/-- One request: its line commit and its operation, or its item on the fabric (R175, R194). A galley that would overflow takes
nothing, and the lines the gang carries are lost (R159); with an uncorrectable datum no lane writes its destination (R209). -/
def State.atomRequest (s : State) (g : Gang) (blk : Block) (o : Op) (a : AtomOp) (r : AReq) : State :=
  let ln := lineOf r.addr
  let place := atomPlace a.scope r.addr
  let target := min (scopeRank a.scope) (homeRank r.addr)
  if s.lineOverflow blk ln place then
    ((s.dropCarried g blk ln 1).finishReq g.uid o.id r []).updOp g.uid o.id
      (fun o => o.fail .accessDenied (s.eaOf (g.party s).pasid (128 * ln)))
  else
    let n := a.ty.bytes
    let carried := if s.discards blk then [] else s.lineCarried g blk ln place
    let bad := s.badAtomic g blk place r.addr n carried
    let s := s.dropCarried g blk ln place
    let s := s.noteAtomic g blk ln target
    match homeOf r.addr, place with
    | .remote d, 0 =>
      let lane := (remoteLane r.addr).2
      let s := if carried.isEmpty then s else s.sendItem d lane (.store g.uid o.id carried)
      let s := s.sendItem d lane (.atom g.uid o.id r.addr)
      s.updOp g.uid o.id (fun o => { o with kind := .atom (a.mapReq r (fun q => { q with taken := true })) })
    | _, _ =>
      let s := s.writePlace blk place carried
      let m := if bad then s.lostValue r.addr n else s.placeValue blk place r.addr n
      let x := a.run m r
      let s := s.writePlace blk place (cellsOf r.addr n x.1)
      let s := s.finishReq g.uid o.id r (if bad then [] else x.2)
      if bad then s.updOp g.uid o.id (fun o => o.fail .uncorrectable r.ea) else s.atomSeen g.uid o a m r

/-- One ATOMIC transition, where it is enabled. -/
def State.atomNow (s : State) (uid id addr : Nat) : State :=
  match s.gang? uid with
  | none => s
  | some g => match g.op? id, s.block? g.block with
    | some o, some blk => match o.kind with
      | .atom a => match a.reqs.find? (fun r => r.addr == addr && !r.taken) with
        | none => s
        | some r =>
          if !s.duePassed g o.due || !g.atomReady r a.ty.bytes then s
          else if s.lost addr then
            (s.finishReq uid id r []).updOp uid id (fun o => o.fail .accessDenied r.ea)
          else s.atomRequest g blk o a r
      | _ => s
    | _, _ => s

/-- ATOMIC (R188). -/
def execAtomic (gang op addr : Nat) (s : State) : Host.Outcome State Fault Refusal :=
  .next (match s.gang? gang with
  | none => s
  | some g => match g.op? op with
    | some o => if s.detTurn g op o.due then s.atomNow gang op addr else s
    | none => s)

/-! ## CABORT -/

/-- A gang that has retired (R188). -/
def Gang.retired (g : Gang) : Bool := g.place == .none && g.groups.isEmpty

/-- The TO of a gang whose slices, while a handler runs those of the handler, hold at an abort of a level as one group (R172, R197). -/
def Gang.abortHold (g : Gang) (lvl : Nat) : Option Nat :=
  match g.testGroups with
  | [r] => match r.status with
    | .heldAbort l n => if l == lvl then some n else none
    | _ => none
  | _ => none

/-- The gangs of a block, or of a cluster launch, that have not retired. -/
def State.abortGangs (s : State) (lvl uid : Nat) : List Gang :=
  s.gangs.filter (fun g => !g.retired && (if lvl = 1 then g.block == uid else match s.block? g.block with
    | some b => b.cluster == uid
    | none => false))

/-- A gang goes on behind its abort, which may end the clause of a single step (R309). -/
def State.passAbort (s : State) (g : Gang) : State :=
  match g.testGroups with
  | r :: _ => match r.run with
    | some u => (s.setGang (g.advance { r with status := .ready } u)).endStep g.uid (lowSlice r.slices)
    | none => s
  | [] => s

/-- A gang faults at its abort (R172). -/
def State.faultAbort (s : State) (g : Gang) : State :=
  match g.testGroups with
  | r :: _ => match r.run with
    | some u => s.faultOut g.uid (lowSlice r.slices)
        { code := .barrierMisuse, tval := r.at?, tret := r.at?, word := u.idx + 1, mid := some u.hdr, skips := u.skips, allot := u.allot }
    | none => s
  | [] => s

/-- CABORT (R172). -/
def execCabort (lvl : Lvl) (uid : Nat) (s : State) : Host.Outcome State Fault Refusal :=
  .next (let gs := s.abortGangs lvl.rank uid
  match gs.map (fun g => g.abortHold lvl.rank) with
  | [] => s
  | t :: ts =>
    if t.isNone || ts.any (fun x => x.isNone) || gs.any (fun g => !g.dlist.isEmpty) then s
    else if ts.any (fun x => x != t) then gs.foldl (fun s g => s.faultAbort g) s
    else
      let all := t == some 1
      let s := if lvl.rank = 1 then s.updBlock uid (fun b => { b with galley := b.galley.abort all })
        else s.updCluster uid (fun c => { c with galley := c.galley.abort all })
      gs.foldl (fun s g => s.passAbort g) s)

/-! ## LAND -/

/-- The engines' queues give up an operation that has landed. -/
def State.leaveQueues (s : State) (uid id : Nat) : State :=
  { s with cores := s.cores.map (fun c =>
      { c with mq := c.mq.filter (fun e => e.2 != (uid, id)), rq := c.rq.filter (fun e => e != (uid, id)) }) }

/-- Groups asleep in a `yield` whose request count has been reached wake (R122). -/
def Gang.wakeYield (g : Gang) : Gang :=
  { g with groups := g.groups.map (fun (r : Group) => match r.status with
      | .sleepYield n => if g.count .req ≤ n then { r with status := .ready, readyAt := none, keepOn := none } else r
      | _ => r) }

/-- Old and new words of the results written to registers, as watchpoints see them (R297, R313). -/
def landSeen (g h : Gang) (o : Op) : List Seen :=
  o.writes.flatMap (fun w => match w with
    | .v r l _ => [{ kind := 0, lane := l, addr := BitVec.ofNat 64 r, old := g.rawV r l, new := h.rawV r l : Seen }]
    | .s r _ => [{ kind := 0, lane := 128, addr := BitVec.ofNat 64 (256 + r), old := g.rawS r, new := h.rawS r }]
    | .m r lanes _ => (laneList lanes).map (fun k =>
        { kind := 0, lane := k, addr := BitVec.ofNat 64 (0x390 + r), old := laneBit (g.rawM r) k, new := laneBit (h.rawM r) k }))

/-- The landing itself (R188). -/
def State.landOp (s : State) (g : Gang) (o : Op) : State :=
  let joined := g.joined.contains o.id
  let h := (g.landWrites s.now o).setSticky o.sticky
  let h := match o.err with
    | some e => { h with errs := h.errs ++ [e] }
    | none => h
  let h := match o.kind with
    | .matrix m => if m.landBytes.isEmpty then h else h.enterLandBytes o m.landBytes
    | _ => h
  let h : Gang := if joined then h.setOp { o with writes := [], err := none }
    else { h with ops := h.ops.filter (fun p => p.id != o.id) }
  let h := (h.settleFlags).wakeYield
  let s := s.setGang h
  let s := match o.kind with
    | .request r => ((s.blockStatus g r).leaveQueues g.uid o.id).dropWaiter (.engine g.coreKey o.id)
    | .matrix _ => s.leaveQueues g.uid o.id
    | _ => s
  if g.isGuest then s.watchSees g.uid none o.pc (some o) (landSeen g h o) else s

/-- `sigop`'s operation, once its release has been granted (R219). -/
def State.performSigop (s : State) (uid : Nat) (o : Op) : State :=
  match o.kind with
  | .sigop op dst addr _ x =>
    if o.done || !o.started then s
    else
      let r := s.signalOp addr op x
      r.2.updOp uid o.id (fun o => { o with
        done := true
        writes := [.s dst (BitVec.ofNat 32 r.1.toNat), .s (dst + 1) (BitVec.ofNat 32 (r.1.toNat / 2 ^ 32))] })
  | _ => s

/-- LAND (R188): in the order of its counter, and in a deterministic launch from its due clock; a `sigop` performs its
operation first. -/
def execLand (gang op : Nat) (s : State) : Host.Outcome State Fault Refusal :=
  .next (match s.gang? gang with
  | none => s
  | some g => match g.op? op with
    | none => s
    | some o =>
      if !s.duePassed g o.due || !g.oldest o then s
      else
        let s := if s.detTurn g op o.due then s.performSigop gang o else s
        match s.gang? gang with
        | none => s
        | some g => match g.op? op with
          | none => s
          | some o => if o.landable then s.landOp g o else s)

/-! ## PHASE -/

/-- The block through which a barrier's owner is named: its own, or the first of its cluster launch or grid. -/
def State.ownerBlock (s : State) (owner n : Nat) : Option Block :=
  s.blocks.find? (fun b => if n < 16 then b.uid == owner else if n < 20 then b.cluster == owner else b.grid == owner)

/-- PHASE (R183). -/
def execPhase (owner bar : Nat) (s : State) : Host.Outcome State Fault Refusal :=
  .next (match s.ownerBlock owner bar with
  | none => s
  | some blk => match s.bar? blk bar with
    | some b => if b.complete then s.takePhase blk b else s
    | none => s)

/-! ## DELIVER -/

/-- A commit is done with the last of its remote lines (R168). -/
def State.settleCommit (s : State) (uid id : Nat) : State :=
  let flying := s.inFlight uid id
  s.updOp uid id (fun o => match o.kind with
    | .commit _ => { o with done := o.started && !flying }
    | _ => o)

/-- A unit of a request has been delivered: it counts on its barrier (R255), unless the count would pass its limit (R184). -/
def State.unitDone (s : State) (uid id u : Nat) : State :=
  match s.reqAt (uid, id) with
  | some (g, _, r) =>
    if s.countOver g.block r.bar (r.unitBytes u) then
      (s.updReq uid id (fun r => { r with flying := r.flying.filter (· != u) })).endRequest uid id 6
    else (s.updReq uid id (fun r => { r with moved := r.moved ++ [u], flying := r.flying.filter (· != u) })).countDown g.block r.bar
      (r.unitBytes u)
  | none => s

/-- One item reaches its home (R194). -/
def State.deliverItem (s : State) (it : FabItem) : State :=
  match it with
  | .store g o bytes => (s.homeWrites bytes none).settleCommit g o
  | .atom g o addr =>
    match (s.gang? g).bind (fun x => x.op? o) with
    | some op => match op.kind with
      | .atom a => match a.reqs.find? (fun r => r.addr == addr && !r.done) with
        | some r =>
          let n := a.ty.bytes
          let bad := s.badBytes addr n
          let m := if bad then s.lostValue addr n else s.readLE addr n
          let x := a.run m r
          let s := (s.homeWrites (cellsOf addr n x.1) (some g)).finishReq g o r (if bad then [] else x.2)
          if bad then s.updOp g o (fun o => o.fail .uncorrectable r.ea) else s.atomSeen g op a m r
        | none => s
      | _ => s
    | none => s
  | .unit _ g o u bytes =>
    let sel := match s.reqAt (g, o) with
      | some x => if x.2.2.kind = 5 then some x.2.2.sel else none
      | none => none
    (s.homeWrites (match sel with
      | some k => s.combineCells k bytes
      | none => bytes) none).unitDone g o u
  | .copyUnit q p u bytes =>
    (s.homeWrites bytes none).updCopy q p (fun c =>
      { c with moved := c.moved ++ [u], flying := c.flying.filter (· != u) })

/-- One item bound for a destination that cannot be reached is discarded, and its operation ends (R326). -/
def State.discardItem (s : State) (it : FabItem) : State :=
  match it with
  | .store g o bytes =>
    (s.updOp g o (fun op => op.fail .accessDenied (placeEa ((bytes.head?.map (·.1)).getD 0)))).settleCommit g o
  | .atom g o addr =>
    match ((s.gang? g).bind (fun x => x.op? o)).map (fun (op : Op) => op.kind) with
    | some (.atom a) => match a.reqs.find? (fun r => r.addr == addr && !r.done) with
      | some r => (s.finishReq g o r []).updOp g o (fun op => op.fail .accessDenied r.ea)
      | none => s
    | _ => s
  | .unit _ g o u _ =>
    (s.updReq g o (fun r => { r with flying := r.flying.filter (· != u) })).endRequest g o 5
  | .copyUnit q p u bytes =>
    s.updCopy q p (fun c => { c with
      flying := c.flying.filter (· != u), reason := if c.reason = 0 then 5 else c.reason
      bad := if c.reason = 0 then placeEa ((bytes.head?.map (·.1)).getD 0) else c.bad })

/-- DELIVER (R194): the oldest item of one lane. -/
def execDeliver (src dst lane : Nat) (s : State) : Host.Outcome State Fault Refusal :=
  .next (match s.lanes.find? (fun l => l.src == src && l.dst == dst && l.lane == lane) with
  | none => s
  | some l => match l.items with
    | [] => s
    | it :: rest =>
      let others := s.lanes.filter (fun x => !(x.src == src && x.dst == dst && x.lane == lane))
      let s := { s with lanes := others ++ (if rest.isEmpty then [] else [{ l with items := rest }]) }
      if s.unreachable.contains dst then s.discardItem it else s.deliverItem it)

/-! ## Retirement -/

/-- A retirement commit that overflows ends the grid (R159). -/
def State.retireOverflow (s : State) (blk : Block) (gang a : Nat) : State :=
  s.abortGrid blk.grid (some { code := .accessDenied, first := none, tval := s.eaOf (((s.grid? blk.grid).map (fun gr => gr.pasid)).getD 0) a, tret := s.freeWord 0
                               block := blk.blockid, gang := gang })

/-- GANG_RETIRE (R162, R185, R188): the gang's lines go to block level, and it leaves its barriers. -/
def execGangRetire (gang : Nat) (s : State) : Host.Outcome State Fault Refusal :=
  .next (match s.gang? gang with
  | none => s
  | some g => match s.block? g.block with
    | none => s
    | some blk =>
      if g.retired || g.live != 0 || blk.stage != .resident || !g.dlist.isEmpty || !g.ops.isEmpty || !g.arriving.isEmpty ||
          s.recordWaits g then s
      else
        let carried := if s.discards blk then [] else g.galley.bytes
        let s := match s.grantOverflow blk carried 0 with
          | some a => s.retireOverflow blk g.gangid a
          | none => s.applyGrant g.uid 0 blk carried 0
        let s := s.withdrawBars blk g.uid
        let s := s.guestRecord g 5 0 (s.freeWord 1)
        s.updGang g.uid (fun g => { g with place := .none, groups := [], galley := Galley.empty, guest := none, pull := none }))

/-- Everything a block holds on its core and in its gangs goes; only its record stays (R41, R162). -/
def State.dropBlock (s : State) (blk : Block) : State :=
  let ids := (s.gangsOf blk.uid).map (fun g => g.uid)
  { s with
    gangs := s.gangs.filter (fun g => g.block != blk.uid)
    cores := s.cores.map (fun c =>
      { c with mq := c.mq.filter (fun e => !ids.contains e.2.1), rq := c.rq.filter (fun e => !ids.contains e.1) })
    mem := s.mem.filter (fun e => match homeOf e.1 with
      | .local b => b != blk.uid
      | _ => true)
    blocks := s.blocks.map (fun b => if b.uid == blk.uid then { b with stage := .exited, galley := Galley.empty, gangs := [] }
                                    else b) }

/-- Lines of a retiring galley that go no further than this device's memory, and remote ones. -/
def isRemoteLine (e : Nat × Byte) : Bool := homeRank e.1 == 4

/-- The retirement commit of a cluster launch's galley (R162): to device level, and remote lines by a domain commit,
which writes them at device level on their way (R169); of a launch that ends early no byte goes on (R202). -/
def State.commitCluster (s : State) (cl : Cluster) : State :=
  let bytes := if (s.grid? cl.grid).any (fun gr => gr.stopped) then [] else cl.galley.bytes
  let s := (s.writeBytes (bytes.filter (fun e => !isRemoteLine e))).noteWrites 3 0 (linesOf bytes) none
  let s := s.sendStores cl.uid 0 (bytes.filter isRemoteLine)
  s.updCluster cl.uid (fun c => { c with galley := Galley.empty })

/-- The retirement commit of a block's galley (R162): device and remote lines into G(cluster), local lines into L(b). -/
def State.commitBlock (s : State) (blk : Block) : State :=
  let bytes := if s.discards blk then [] else blk.galley.bytes
  let up := bytes.filter (fun e => homeRank e.1 != 2)
  let loc := bytes.filter (fun e => homeRank e.1 == 2)
  match s.grantOverflow blk up 1 with
  | some a => s.retireOverflow blk ((s.freeWord 2).toNat % 32) a
  | none => ((s.intoCluster blk.cluster up).writeBytes loc).noteWrites 2 blk.cluster (linesOf bytes) none

/-- Does a group run no clause, or stand at a `waitcnt` that nothing will end (R202)? -/
def State.atBoundary (s : State) (g : Gang) (r : Group) : Bool :=
  match r.status with
  | .running => r.run.isNone || s.heldWaitcnt g r
  | .waitAts => r.run.isNone
  | _ => true

/-- Have a stopped block's gangs halted, with no item of theirs on the fabric? -/
def State.blockHalted (s : State) (blk : Block) : Bool :=
  (s.gangsOf blk.uid).all (fun g => g.groups.all (s.atBoundary g) && g.ops.all (fun o => !s.inFlight g.uid o.id))

/-- BLOCK_RETIRE (R162): after the last gang; a stopped block goes with what it holds once its gangs have halted (R202). In a
launch of cluster size 1 the cluster's step is taken with it. -/
def execBlockRetire (block : Nat) (s : State) : Host.Outcome State Fault Refusal :=
  .next (match s.block? block with
  | none => s
  | some blk =>
    if blk.stage == .exited || blk.stage == .done then s
    else if (s.gangsOf block).all Gang.retired then
      let s := s.commitBlock blk
      let s := s.dropBlock blk
      match s.cluster? blk.cluster with
      | some cl => if cl.blocks.length ≤ 1 then s.commitCluster cl else s
      | none => s
    else if s.discards blk && s.blockHalted blk then s.dropBlock blk
    else s)

/-- CLUSTER_RETIRE (R162): after the last block of a cluster launch. -/
def execClusterRetire (cluster : Nat) (s : State) : Host.Outcome State Fault Refusal :=
  .next (match s.cluster? cluster with
  | none => s
  | some cl =>
    if (s.blocksOf cluster).all (fun b => b.stage == .exited || b.stage == .done) then s.commitCluster cl else s)

/-! ## Completion of blocks and grids (R41, R277) -/

/-- Has a grid retired, or ended with none of its blocks left? -/
def State.gridDone (s : State) (gr : Grid) : Bool :=
  (gr.retired == gr.desc.grid || gr.aborted) && !s.blocks.any (fun b => b.grid == gr.uid)

/-- The fault record of a grid (R202, R270). -/
def Grid.record? (gr : Grid) : Option (List Byte) :=
  gr.fault.map (fun f => faultBytes f.code.num ((f.first.map Code.num).getD 0) f.gang gr.packet f.tval f.tret f.block 0)

/-- A finished child grid leaves the tables of its queue and its launching block (R41, R278). -/
def State.reapChild (s : State) (gr : Grid) (parent : Nat) : State :=
  let s := s.updBlock parent (fun b => { b with children := b.children - 1 })
  let s := s.updQueue gr.queue (fun q => { q with children := q.children.filter (· != gr.uid) })
  { s with grids := s.grids.filter (fun x => x.uid != gr.uid), roots := s.roots.filter (fun r => r.grid != gr.uid) }

/-- The completion of a block is reported (R277): 1 at EVENTS + 8b, and a notice. -/
def State.blockEvent (s : State) (gr : Grid) (blk : Block) : Eng State :=
  if gr.events = 0 || gr.stopped then .ok s
  else
    match s.engineAt (ioParty (ioWork 2 blk.uid) gr.pasid) true (gr.events + BitVec.ofNat 64 (8 * blk.blockid)) 8 8 with
    | .ok a => .ok ((s.homeWrites (cellsOf a 8 1) none).notice a)
    | .miss q => .miss q
    | .bad _ => .ok s

/-- Have the commits of R162 retired: every block of the cluster launch has gone, and nothing of it stands in its galley or on the
fabric? -/
def State.clusterDone (s : State) (cluster : Nat) : Bool :=
  (s.blocksOf cluster).all (fun b => b.stage == .exited || b.stage == .done) && (match s.cluster? cluster with
   | some cl => cl.galley.bytes.isEmpty
   | none => true) && !s.inFlight cluster 0

/-- Write a child's fault record in its parent queue's place for it (R202). -/
def State.childRecord (s : State) (gr : Grid) : Eng State :=
  match gr.record?, s.queue? gr.queue with
  | some bytes, some q => (s.engineDest (ioParty (ioWork 3 gr.uid) gr.pasid) q.faultrec 64).orNone.bind (fun a => match a with
    | some a => .ok (s.ioWrite a bytes)
    | none => .ok s)
  | _, _ => .ok s

/-- Child grids of a block that ended before any of their blocks started (R202). -/
def State.reapEnded (s : State) (block : Nat) : State :=
  (s.grids.filter (fun x => x.parent == some block && s.gridDone x)).foldl (fun s x => s.reapChild x block) s

/-- BLOCK_COMPLETION_EVENT (R41): after the commits of R162, every child of the block having retired. A child grid that ends
with it is reaped. -/
def execBlockCompletionEvent (block : Nat) (s : State) : Host.Outcome State Fault Refusal :=
  .next (let s := s.reapEnded block
  match s.block? block with
  | none => s
  | some blk => match s.grid? blk.grid with
    | none => s
    | some gr =>
      if blk.stage != .exited || blk.children != 0 || !s.clusterDone blk.cluster then s
      else match s.blockEvent gr blk with
        | .miss q => s.ask q
        | .bad _ => s
        | .ok s =>
          let s := s.dropWaiter (ioWork 2 block)
          let gr' := { gr with retired := gr.retired + 1 }
          let s' := (State.setGrid { s with blocks := s.blocks.filter (fun b => b.uid != block) } gr')
          let s' := if (s'.blocksOf blk.cluster).isEmpty then
              { s' with clusters := s'.clusters.filter (fun c => c.uid != blk.cluster) } else s'
          match gr.parent with
          | some p =>
            if s'.gridDone gr' then
              match s'.childRecord gr' with
              | .ok s'' => (s''.dropWaiter (ioWork 3 gr.uid)).reapChild gr' p
              | .miss q => s.ask q
              | .bad _ => s
            else s'
          | none => s')

/-! ## CHILD_LAUNCH (R216, R278) -/

def childLimit : Nat := 64

/-- Accepted children that have not retired: of the queue, or of a deterministic launch its own. -/
def State.childCount (s : State) (gr : Grid) (q : Queue) : Nat :=
  if gr.desc.det then (s.grids.filter (fun x => x.root == gr.root && x.uid != gr.root)).length else q.children.length

/-- The compositor's answer for one lane's descriptor: 0 accepted, 1 list full, 2 refused. -/
def State.answerChild (s : State) (op : Nat) (gr : Grid) (blk : Block) (q : Queue) (a : W64) : Eng (Nat × State) :=
  if childLimit ≤ s.childCount gr q then .ok (1, s)
  else (s.readDesc (ioWork 7 op) gr.pasid a).bind (fun d => match d with
    | none => .ok (2, s)
    | some d =>
      let uid := s.nextUid
      let s := s.newGrid q gr.packet d 0 0 (some (blk.uid, gr))
      let s := s.updBlock blk.uid (fun b => { b with children := b.children + 1 })
      .ok (0, if gr.desc.det then s else s.updQueue q.qnum (fun q => { q with children := q.children ++ [uid] })))

/-- The next lane of a `launch` whose release has been granted. -/
def State.childNow (s : State) (uid id : Nat) : State :=
  match s.gang? uid with
  | none => s
  | some g => match g.op? id, s.block? g.block, g.grid? s with
    | some o, some blk, some gr => match o.kind, s.queue? gr.queue with
      | .launch dst ((lane, a) :: rest), some q =>
        if o.done || !o.started || !s.duePassed g o.due then s
        else match s.answerChild id gr blk q a with
          | .miss q => s.ask q
          | .bad _ => s
          | .ok (x, s) => (s.dropWaiter (ioWork 7 id)).updOp uid id (fun o => { o with
              kind := .launch dst rest, done := rest.isEmpty
              writes := o.writes ++ [.v dst lane (BitVec.ofNat 32 x)] })
      | .launch _ [], _ => if o.started && s.duePassed g o.due then s.updOp uid id (fun o => { o with done := true }) else s
      | _, _ => s
    | _, _, _ => s

/-- CHILD_LAUNCH (R216). -/
def execChildLaunch (gang op : Nat) (s : State) : Host.Outcome State Fault Refusal :=
  .next (match s.gang? gang with
  | none => s
  | some g => match g.op? op with
    | some o => if s.detTurn g op o.due then s.childNow gang op else s
    | none => s)

/-! ## DUE_CLOCK (R60) -/

/-- One due effect is taken. -/
def State.takeDue (s : State) (d : DueItem) : State :=
  match d.kind with
  | 0 => s.grantNow d.gang
  | 1 => match s.gang? d.gang with
    | some g => match g.op? d.op with
      | some o => match o.kind with
        | .atom a => match g.nextReq a with
          | some r => s.atomNow d.gang d.op r.addr
          | none => s
        | _ => s.performSigop d.gang o
      | none => s
    | none => s
  | 2 => s.childNow d.gang d.op
  | 3 => match s.reqAt (d.gang, d.op) with
    | some x => if x.2.2.fetched then s.moveReq (s.schedAt x.1).1 d.op 0 else s.fetchBlock (s.schedAt x.1).1
    | none => s
  | _ => match s.gang? d.gang with
    | some g => s.startHead (s.schedAt g).1 (s.schedAt g).2
    | none => s

/-- DUE_CLOCK (R60): the first effect that a deterministic launch owes is taken at its due clock. -/
def execDueClock (root : Nat) (s : State) : Host.Outcome State Fault Refusal :=
  .next (match s.root? root, s.firstDue root with
  | some r, some d => if d.due ≤ r.clock then s.takeDue d else s
  | _, _ => s)

end Sys2Proof.Machine
end

