-- ==== Sys2Proof/Machine/EvTrap.lean ====
section
/-!
DEFINITION. The entry of a latched fault (R198), and translation: completions, page responses and invalidations (R205 to
R208, R254, R318).
-/
namespace Sys2Proof.Machine

/-! ## TRAP_ENTRY -/

/-- The latched fault whose group has the lowest slice (R198). -/
def Gang.nextLatched (g : Gang) : Option Latched :=
  g.latched.foldl (fun (m : Option Latched) l => match m with
    | none => some l
    | some x => if lowSlice l.slices < lowSlice x.slices then some l else m) none

/-- TRAP_ENTRY (R197, R198): with no handler running, the latched fault of the lowest group enters; during a pre-emption none
does (R210). -/
def execTrapEntry (gang : Nat) (s : State) : Host.Outcome State Fault Refusal :=
  .next (match s.gang? gang with
  | none => s
  | some g =>
    let there := match s.block? g.block with
      | some b => b.stage == .resident
      | none => true
    if g.trap.isSome || g.halted || s.preempting g || !there then s
    else match g.nextLatched with
      | none => s
      | some l =>
        let f : Raise := ⟨l.code, l.tval, l.tret, l.word, l.mid, l.skips, l.allot⟩
        let g : Gang := { g with latched := g.latched.erase l }
        match g.group? (lowSlice l.slices) with
        | none => s.setGang g
        | some r =>
          if g.tvec.toNat / 256 = 0 then (s.setGang g).unhandled g.uid f none
          else s.setGang (g.enterTrap r f))

/-! ## Groups that wait for a page -/

/-- Does a group's wait ask for a page, of its own accesses or of the context area (R206, R212)? -/
def Group.waitsOn (r : Group) (area : Bool) (page : Nat) (wr : Bool) : Bool :=
  r.waitsWrite == wr && r.waits.any (fun e => isScratch e.2.1 == area && pageBase 12 e.2.2 == page)

/-- The fault of a group that has waited for a page: at its word, or at its header for a fetch (R206, R207). -/
def Group.waitFault (r : Group) (code : Code) : Raise :=
  let tval := ((lowMiss r.waits).map (fun e => e.2.1)).getD 0
  match r.run with
  | some u => ⟨code, tval, r.at?, u.idx + 1, some u.hdr, u.skips, u.allot⟩
  | none => ⟨code, tval, r.pc, 0, r.mid, r.skips, r.allot⟩

/-- Does a group wait for translations on a core; one in a context record does not (R214)? -/
def State.waiting (s : State) (g : Gang) (r : Group) : Bool :=
  (r.status == .waitAts || r.status == .parked) && (match s.block? g.block with
    | some b => b.stage != .suspended
    | none => true)

/-- The groups of a PASID that wait for a page: gang and lowest slice. -/
def State.waiters (s : State) (area : Bool) (pasid page : Nat) (wr : Bool) : List (Nat × Nat) :=
  s.gangs.flatMap (fun g =>
    if g.pasid s != pasid then []
    else (g.groups.filter (fun r => s.waiting g r && r.waitsOn area page wr)).map (fun r => (g.uid, lowSlice r.slices)))

/-- Is a request for a page and a right still to be answered? -/
def State.standing (s : State) (pasid page : Nat) (wr : Bool) : Bool :=
  s.ats.any (fun a => a.asks pasid page wr) || s.pri.any (fun p => p.asks pasid page wr)

/-- Is the answer for a page still to come: its translation, or for the context area, which parks no group, its page request
(R206, R212)? -/
def State.unanswered (s : State) (pasid : Nat) (wr : Bool) (e : Miss) : Bool :=
  s.ats.any (fun a => a.asks pasid (pageBase 12 e.2.2) wr) || (isScratch e.2.1 && s.priStands pasid e.2.2 wr)

/-- A waiting group all of whose pages are answered, a parked one by the host too; a parked one of a PASID torn down stays parked
(R207). -/
def State.answered (s : State) (g : Gang) (r : Group) (pasid : Nat) : Bool :=
  s.waiting g r && (if r.status == .parked then
      !s.tornDown pasid && r.waits.all (fun e => !s.standing pasid (pageBase 12 e.2.2) r.waitsWrite)
    else r.waits.all (fun e => !s.unanswered pasid r.waitsWrite e))

/-- `%pendmask` once a wait has ended: of a word that has yet to issue, as before it (log 57). -/
def Group.pendAfter (r : Group) (g : Gang) : Lanes :=
  match r.run with
  | some u => if r.status == .waitAts && !u.replaying then g.restPend r else r.pend
  | none => r.pend

/-- Groups whose pages are answered go on: with their word if they still hold their port, with its pending lanes if they are
parked (R206). -/
def State.resumeWaiting (s : State) (pasid : Nat) : State :=
  { s with gangs := s.gangs.map (fun g =>
      if g.pasid s != pasid then g
      else { g with groups := g.groups.map (fun (r : Group) =>
        if s.answered g r pasid then
          { r with waits := [], readyAt := none, pend := r.pendAfter g, status := match r.run with
              | some u => if r.status == .waitAts && u.port.isSome then .running else .ready
              | none => .ready }
        else r) }) }

/-- The waiting groups park, and their port is free (R206). -/
def State.parkWaiters (s : State) (l : List (Nat × Nat)) : State :=
  l.foldl (fun s e => s.updGang e.1 (fun g => match g.group? e.2 with
    | some r => g.setGroup { r with status := .parked, run := r.run.map (fun (u : Run) => { u with port := none }) }
    | none => g)) s

/-- A page is refused to the waiting groups: a parked one, or one that waits to fetch, faults at once; one whose word has yet to
issue learns it then (R206, R207; log 57). -/
def State.refusePage (s : State) (l : List (Nat × Nat)) (page : Nat) (code : Code) : State :=
  l.foldl (fun s e => match s.gang? e.1 with
    | none => s
    | some g => match g.group? e.2 with
      | none => s
      | some r =>
        if r.status == .parked || r.run.isNone then s.faultOut e.1 e.2 (r.waitFault code)
        else s.setGang (g.setGroup { r with refused := r.refused ++ [(page, code)] })) s

/-- The groups that wait to fetch, among some. -/
def State.fetching (s : State) (l : List (Nat × Nat)) : List (Nat × Nat) :=
  l.filter (fun e => ((s.gang? e.1).bind (fun g => g.group? e.2)).any (fun r => r.run.isNone))

/-- An engine: work that waits for its translations itself (R254). -/
def Waiter.isEngine : Waiter → Bool
  | .engine _ _ => true
  | _ => false

/-- The grid whose context area waits. -/
def Waiter.grid? : Waiter → Option Nat
  | .area _ g => some g
  | _ => none

/-- Instructions that wait for a page of the context area stop at their word, and the launch ends with an unhandled TRANSLATION
(R202, R212); the record names no gang (log 5). -/
def State.areaFails (s : State) (pasid page : Nat) (wr : Bool) (l : List Waiter) : State :=
  let grids := l.filterMap Waiter.grid?
  if grids.isEmpty then s
  else
    let s := (s.waiters true pasid page wr).foldl (fun (s : State) e => s.updGang e.1 (fun g => match g.group? e.2 with
      | some r => (g.dropClause { r with status := .ready }).setGroup (r.standsAt (r.waitFault .translation))
      | none => g)) s
    grids.foldl (fun (s : State) k => s.abortGrid k (some
      { code := .translation, first := none, tval := BitVec.ofNat 64 page, tret := 0, block := 0, gang := 0 })) s

/-- Requests that move by their units end at once, with reason 2; one that takes effect whole ends when it does (R254, R255). -/
def State.endRequests (s : State) (l : List Waiter) : State :=
  l.foldl (fun s w => match w with
    | .engine k id =>
      match s.gangs.find? (fun g => g.coreKey == k && g.ops.any (fun o => o.id == id && o.due.isNone && o.isRequest)) with
      | some g => s.endRequest g.uid id 2
      | none => s
    | _ => s) s

/-- The answer that a page has no translation: the engines that asked end, the launches whose context area it is of end, and
the waiting groups fault (R207, R212, R254). -/
def State.pageFails (s : State) (pasid page : Nat) (wr : Bool) (l : List Waiter) (code : Code) : State :=
  let s := { s with denied := s.denied ++ (l.filter Waiter.isEngine).map (fun w => (w, pasid, page)) }
  ((s.endRequests l).refusePage (s.waiters false pasid page wr) page code).areaFails pasid page wr l

/-! ## ATS_COMPLETION -/

/-- The first translation request that waits for the limit is sent (R205). -/
def sendNextAts : List Ats → List Ats
  | [] => []
  | a :: l => if a.sent then a :: sendNextAts l else { a with sent := true } :: l

/-- No translation: with PRI one page request goes out, and a group that fetches parks; without, the groups fault TRANSLATION, and
an engine's request ends (R206, R207, R212, R254). -/
def State.noTranslation (s : State) (a : Ats) : State :=
  let groups := s.waiters false a.pasid a.page a.wr
  let others := a.waiters.filter (fun w => w.isEngine || w.grid?.isSome)
  if s.feature 0 then
    if groups.isEmpty && others.isEmpty then s else (s.requestPri a.pasid a.page a.wr a.waiters).parkWaiters (s.fetching groups)
  else s.pageFails a.pasid a.page a.wr a.waiters .translation

/-- An entry goes into the cache of every waiter and of its die (R205), and among the translations that stand. -/
def State.fillTlb (s : State) (a : Ats) (log2 : Nat) (own : Bool) (frame : Nat) (r w : Bool) : State :=
  let t (scope : Nat) : Tlb := { scope := scope, pasid := a.pasid, page := pageBase log2 a.page, log2 := log2, own := own
                                 frame := frame, r := r, w := w }
  let s := a.waiters.foldl (fun s k =>
    (s.tlbAdd (t k.core') coreTlb).tlbAdd (t (512 + dieOf k.core')) dieTlb) s
  if s.mapped.contains (t 0) then s else { s with mapped := s.mapped ++ [t 0] }

/-- Is a page size one of those translated (R205), with an aligned frame? -/
def pageOk (log2 frame : Nat) : Bool := (log2 == 12 || log2 == 21 || log2 == 30) && frame % 2 ^ log2 == 0

/-- ATS_COMPLETION (R205, R206) of a request that has been sent. A frame of this device beyond its installed DRAM does not
exist (R1). -/
def execAtsCompletion (pasid page : Nat) (ans : Bool × AtsAnswer) (s : State) : Host.Outcome State Fault Refusal :=
  match s.ats.find? (fun a => a.asks pasid page ans.1 && a.sent) with
  | none => .next s
  | some a =>
    let s' := { s with ats := sendNextAts (s.ats.filter (fun x => !x.asks pasid page ans.1)) }
    match ans.2 with
    | .none => .next ((s'.noTranslation a).resumeWaiting pasid)
    | .page log2 own frame r w =>
      if !pageOk log2 frame then .next s
      else if own && dramBytes < frame + 2 ^ log2 then .fault (.outsideDram frame)
      else if !r && !w then .next ((s'.noTranslation a).resumeWaiting pasid)
      else .next ((s'.fillTlb a log2 own frame r w).resumeWaiting pasid)

/-! ## PRI_RESPONSE -/

/-- The first page request that waits for the allocation is sent (R318): none of a PASID torn down. -/
def sendNextPri (stopped : Nat → Bool) : List Pri → List Pri
  | [] => []
  | p :: l => if p.sent || stopped p.pasid then p :: sendNextPri stopped l else { p with sent := true } :: l

/-- PRI_RESPONSE (R207) of a request that has been sent: of a PASID torn down it is ignored (R279); success translates again;
else the instruction faults for the lowest pending lane, and an engine's request ends (R254). -/
def execPriResponse (pasid page : Nat) (ans : Bool × PriAnswer) (s : State) : Host.Outcome State Fault Refusal :=
  .next (match s.pri.find? (fun p => p.asks pasid page ans.1 && p.sent) with
  | none => s
  | some p =>
    let s := { s with pri := sendNextPri s.tornDown (s.pri.filter (fun x => !x.asks pasid page ans.1)) }
    if s.tornDown pasid then s
    else match ans.2 with
    | .success => s.resumeWaiting pasid
    | _ => (s.pageFails pasid page ans.1 p.waiters .accessDenied).resumeWaiting pasid)

/-! ## Invalidation -/

/-- Does an entry overlap a range of virtual addresses? -/
def Tlb.overlaps (t : Tlb) (pasid lo hi : Nat) : Bool := t.pasid == pasid && t.page < hi && lo < t.page + 2 ^ t.log2

/-- The unified addresses of an entry's frame, first and length, and its page. -/
def Tlb.span (t : Tlb) : Nat × Nat × Nat := (t.target t.page, 2 ^ t.log2, t.page)

/-- Does an operation read or write memory, so that it may have used a dropped entry? -/
def Op.touches (o : Op) : Bool :=
  match o.kind with
  | .load _ _ _ _ | .store | .atom _ | .request _ | .sigop _ _ _ _ _ => true
  | _ => false

/-- Cluster launches of a PASID that stand saved. -/
def State.savedClusters (s : State) (pasid : Nat) : List Nat :=
  (s.clusters.filter (fun c => (match s.grid? c.grid with
    | some gr => gr.pasid == pasid
    | none => false) && (s.blocksOf c.uid).any (fun b => b.stage == .suspended))).map (fun c => c.uid)

/-- INVALIDATION (R208, R214): matching entries are dropped; lines of their frames, evicted entries' too, and the transfers
under way hold its completion back; the lines of saved contexts go by their virtual addresses. -/
def execInvalidation (pasid lo hi : Nat) (s : State) : Host.Outcome State Fault Refusal :=
  .next (let drop := s.mapped.filter (fun t => t.overlaps pasid lo hi)
  let ops := (s.gangs.filter (fun g => g.pasid s == pasid)).flatMap (fun g => (g.ops.filter Op.touches).map (fun o => o.id))
  let copies := (s.copies.filter (fun c => c.pasid == pasid)).map (fun c => (c.queue, c.packet))
  let inval : Inval := { pasid := pasid, lo := lo, hi := hi, frames := drop.map Tlb.span
                         ops := if drop.isEmpty then [] else ops, copies := if drop.isEmpty then [] else copies }
  let s' := { s with
    tlb := s.tlb.filter (fun t => !t.overlaps pasid lo hi), mapped := s.mapped.filter (fun t => !t.overlaps pasid lo hi)
    invals := s.invals ++ [inval] }
  (s'.savedClusters pasid).foldl (fun s c => s.rekeyCluster c (savedKey (drop.map Tlb.span))) s')

/-- Does a galley hold a line of some frames? -/
def Galley.holds (g : Galley) (frames : List (Nat × Nat × Nat)) : Bool := g.bytes.any (fun e => frames.any (inFrame e.1))

/-- R208's conditions for the invalidation completion. -/
def State.invalDone (s : State) (i : Inval) : Bool :=
  s.gangs.all (fun g => (g.ops.all (fun o => !i.ops.contains o.id)) && !g.galley.holds i.frames &&
    g.dlist.all (fun d => !d.bytes.any (fun e => i.frames.any (inFrame e.1)))) &&
  s.copies.all (fun c => !i.copies.contains (c.queue, c.packet) || c.reason != 0 || (c.flying.isEmpty && c.moved.length == c.units)) &&
  s.blocks.all (fun b => !b.galley.holds i.frames) && s.clusters.all (fun c => !c.galley.holds i.frames)

/-- INVALIDATION_COMPLETION (R208). -/
def execInvalidationCompletion (pasid lo hi : Nat) (s : State) : Host.Outcome State Fault Refusal :=
  .next (match s.invals.find? (fun i => i.pasid == pasid && i.lo == lo && i.hi == hi) with
  | none => s
  | some i => if s.invalDone i then { s with invals := s.invals.erase i } else s)

end Sys2Proof.Machine
end

