-- ==== Sys2Proof/Machine/EvCompositor.lean ====
section
/-!
DEFINITION. The compositor's transitions that no instruction makes: kicks (R271), completion of dispatched packets (R263,
R265, R268), the wake of `pendscan` (R283), the periodic check (R274) and the switch of code banks (R280).
-/
namespace Sys2Proof.Machine

/-! ## KICK -/

/-- KICK (R271): the doorbell keeps the larger value; a mapped and armed queue's slot takes it and its lane is woken, else its pending
bit is set. A queue in TEARDOWN or DEAD takes the doorbell only (R279). Before READY a doorbell write is ignored (R335). -/
def execKick (queue : Nat) (x : BitVec 64) (s : State) : Host.Outcome State Fault Refusal :=
  .next (if 4096 ≤ queue || s.host.startStat.toNat % 16 != 1 then s
  else
    let s := { s with doorbells := Store.putD 0 s.doorbells queue (BitVec.ofNat 64 (max (s.doorbell queue) x.toNat)) }
    match s.queue? queue with
    | none => s.setPending queue
    | some q =>
      let s := s.compRec 0 x.toNat queue ((q.slot.getD 0) % 32)
      if q.state == .teardown || q.state == .dead then s
      else (if q.slot.isSome && q.armed then s.setQueue { q with wridx := s.doorbell queue } else s).wakeQueue q)

/-! ## PACKET_COMPLETE -/

/-- The fault record of a packet copy that ended with a fault (R265, R270). -/
def Copy.record? (c : Copy) : Option (List Byte) :=
  if c.reason = 0 then none else some (faultBytes Code.requestFault.num 0 0 c.packet c.bad 0 0 c.reason)

/-- Is a packet copy over: every unit at its home, or ended by a fault with nothing left on the fabric? -/
def Copy.ended (c : Copy) : Bool := c.flying.isEmpty && (c.reason != 0 || c.moved.length == c.units)

/-- The completion of dispatched work: one that waits for a page asks for it; one that is made wakes the queue's lane, or sets the
pending bit of a queue that is not armed (R272, R282). -/
def State.afterPacket (s0 : State) (qnum : Nat) (x : Eng State) (f : State → State) : State :=
  match x with
  | .ok s => f (match s.queue? qnum with
      | some q => s.wakeQueue q
      | none => s)
  | .miss q => s0.ask q
  | .bad _ => s0

/-- A dispatched LAUNCH completes once its grid has retired or ended (R41, R263, R268); one that DESTROY_CTX has halted does not
(R279). -/
def State.completeLaunch (s : State) (q : Queue) (p : Pkt) : State :=
  match p.grid.bind s.grid? with
  | none => s
  | some gr =>
    if gr.doomed || !s.gridDone gr then s
    else s.afterPacket q.qnum (s.completePacket q p gr.aborted gr.record?) (fun s =>
      { s with grids := s.grids.filter (fun x => x.uid != gr.uid), roots := s.roots.filter (fun r => r.grid != gr.uid) })

/-- A dispatched COPY completes after its last unit, or ABORTED (R265). -/
def State.completeCopy (s : State) (q : Queue) (p : Pkt) : State :=
  match s.copies.find? (fun c => c.queue == q.qnum && c.packet == p.idx) with
  | none => s
  | some c =>
    if !c.ended then s
    else s.afterPacket q.qnum (s.completePacket q p (c.reason != 0) c.record?) (fun s =>
      { s with copies := s.copies.filter (fun x => !(x.queue == q.qnum && x.packet == p.idx)) })

/-- PACKET_COMPLETE (R263). -/
def execPacketComplete (queue idx : Nat) (s : State) : Host.Outcome State Fault Refusal :=
  .next (match s.queue? queue with
  | none => s
  | some q => match q.pkt? idx with
    | none => s
    | some p =>
      if p.done || !p.dispatched then s
      else if p.ty = 1 then s.completeLaunch q p
      else if p.ty = 4 then s.completeCopy q p
      else s)

/-! ## PENDSCAN_WAKE -/

/-- A compositor's core key by its number. -/
def compKey (comp : Nat) : Nat := 256 + comp % 2

/-- PENDSCAN_WAKE (R283): a group asleep in `pendscan` wakes and will execute it. -/
def execPendscanWake (comp : Nat) (s : State) : Host.Outcome State Fault Refusal :=
  .next (let core := compKey comp
  if s.pending.isEmpty && s.wakeMask core == 0 then s
  else { s with gangs := s.gangs.map (fun g =>
      if g.place == .compositor core then
        { g with groups := g.groups.map (fun (r : Group) =>
            if r.status == .sleepScan then
              { r with status := .ready, readyAt := none, run := r.run.map (fun (u : Run) => { u with collected := true }) }
            else r) }
      else g) })

/-! ## SIGNAL_RECHECK -/

/-- The party that re-reads the signals of a packet. -/
def Queue.reader (q : Queue) (p : Pkt) : Party := ioParty (ioWork 0 (packetKey q p)) q.pasid

/-- One pass over the signals of a started BARRIER or WAIT in ascending entry number: an entry seen is passed over, a read of 0
marks an entry of a BARRIER, and the pass ends at a read below 0, which aborts the packet, or at one that meets a WAIT's condition; a
BARRIER whose entries are all seen is over (R267, R287). With the packet comes how it completes, ABORTED or not, if it does. A page
that is missing is asked for. -/
def State.readSignals (s : State) (q : Queue) (p : Pkt) : List (Nat × W64) → State × Pkt × Option Bool
  | [] => (s, p, if p.ty == 2 && p.seen == 0x3F then some false else none)
  | e :: l =>
    if p.ty == 2 && p.seen.getLsbD e.1 then s.readSignals q p l
    else match s.engineAt (q.reader p) false e.2 8 8 with
      | .miss m => (s.ask m).readSignals q p l
      | .bad _ => s.readSignals q p l
      | .ok a =>
        let r := s.signalOp a 2 0
        let s := r.2.compRec 4 p.idx q.qnum 0
        if 2 ^ 63 ≤ r.1.toNat then (s, { p with aborted := true }, some true)
        else if p.ty == 5 && (p.word64 16).toNat ≤ r.1.toNat then (s, p, some false)
        else s.readSignals q (if p.ty == 2 && r.1 == 0 then { p with seen := p.seen ||| (1 : BitVec 6) <<< e.1 } else p) l

/-- A packet whose signals are re-read at the periodic check. -/
def Pkt.waits (p : Pkt) : Bool := (p.ty == 2 || p.ty == 5) && p.check == 0 && p.started && !p.done

/-- One waiting packet of an unmapped queue: its signals are read, and one that is over completes, on the QCB in memory (R267, R272,
R287; log 56). -/
def State.recheckPacket (s : State) (q : Queue) (p : Pkt) : State :=
  let x := if p.aborted then (s, p, some true) else s.readSignals q p p.signals
  let s := x.1.updQueue q.qnum (fun q => q.setPkt x.2.1)
  match x.2.2, s.queue? q.qnum with
  | some aborted, some q => s.afterPacket q.qnum (s.completePacket q x.2.1 aborted none) id
  | _, _ => s

/-- One queue at the periodic check, which counts as a wake (R287): a lane re-reads its signals itself once it is woken; those of
an unmapped queue are re-read here, and its pending bit is set. -/
def State.recheckQueue (s : State) (q : Queue) : State :=
  let waiting := q.window.filter Pkt.waits
  if waiting.isEmpty then s
  else (if q.slot.isSome then s
    else waiting.foldl (fun s p => match s.queue? q.qnum with
      | some q => s.recheckPacket q p
      | none => s) s).wakeQueue q

/-- SIGNAL_RECHECK (R274): every started BARRIER and WAIT of a compositor's queues and of unmapped ones. -/
def execSignalRecheck (comp : Nat) (s : State) : Host.Outcome State Fault Refusal :=
  .next ((s.queues.filter (fun q => match q.slot with
    | some k => slotCore k == comp % 2
    | none => true)).foldl (fun s q => match s.queue? q.qnum with
      | some q => s.recheckQueue q
      | none => s) s)

/-! ## BANK_SWITCH -/

/-- Is a lane between packets: nothing fetched that has neither started nor completed (R285)? -/
def Queue.between (q : Queue) : Bool := q.window.all (fun p => p.started || p.done)

def State.bankOf (s : State) (core : Nat) : Bank := if core == 256 then s.bank0 else s.bank1

def State.setBank (s : State) (core : Nat) (b : Bank) : State :=
  if core == 256 then { s with bank0 := b } else { s with bank1 := b }

def Bank.image (b : Bank) : W64 := if b.activeB then b.imageB else b.imageA

/-- The allotment of a compositor's gang: every vector register (log 18). -/
def compAllot : Nat := 256

/-- The gang of a compositor core as an image starts: one 32-lane gang at the entry clause, with the registers of R220 and
`s2:3` the firmware configuration's address (R10, R280). -/
def State.compGang (s : State) (core : Nat) (image : W64) : Gang :=
  let uid := core - 255
  Gang.wrS64 (Gang.start uid uid 0 0 0 32 32 compAllot (.compositor core) (core, 0) [] image
    (image + 64 + BitVec.ofNat 64 (8 * s.flash.fwEntry)) 0) 2 s.flash.fwConfig

/-- The image of a bank starts on its core. -/
def State.startBank (s : State) (core : Nat) : State :=
  let uid := core - 255
  { s with gangs := s.gangs.filter (fun g => g.uid != uid) ++ [s.compGang core (s.bankOf core).image] }

/-- BANK_SWITCH (R280): at the first moment at which the gang sleeps in `pendscan` and every lane is between packets. -/
def execBankSwitch (comp : Nat) (s : State) : Host.Outcome State Fault Refusal :=
  .next (let core := compKey comp
  let b := s.bankOf core
  let asleep := s.gangs.any (fun g => g.place == .compositor core && !g.liveGroups.isEmpty &&
    g.liveGroups.all (fun r => r.status == .sleepScan))
  let clear := s.queues.all (fun q => match q.slot with
    | some k => slotCore k != comp % 2 || q.between
    | none => true)
  if b.switching && asleep && clear then
    (s.setBank core { b with activeB := !b.activeB, switching := false, stopped := false }).startBank core
  else s)

end Sys2Proof.Machine
end

