-- ==== Sys2Proof/Machine/EvProof.lean ====
section
/-!
DEFINITION. The proof cores' transitions: pull and return (R290, R291), the messages between a guest and its home (R292,
R294), the entry of the debug handler (R296), the drain of the trace (R299) and the revocation of a debug right (R306).
-/
namespace Sys2Proof.Machine

/-! ## PULL -/

def guestSlots : Nat := 4

/-- Is a guest slot kept for a gang that is being pulled (R290)? -/
def State.slotKept (s : State) (core gslot : Nat) : Bool :=
  s.gangs.any (fun g => (g.pull.bind (fun q => q.place)).any (fun x => x.1 == core && x.2.1 == gslot))

def State.freeGuestSlot (s : State) (core : Nat) : Option Nat :=
  (List.range guestSlots).find? (fun k => (s.guestAt core k).isNone && !s.slotKept core k)

/-- The first partition of a proof core with room for a gang's registers (log 19). -/
def State.guestPart (s : State) (core : Nat) (g : Gang) : Option Nat :=
  (List.range (partsOf core)).find? (fun p => s.partUsed core p + g.reserve * g.measure * 4 ≤ regFileBytes)

/-- The proof cores PROOF names: one, or in ascending number those with a free slot (R288). -/
def pullCores (die sel : Nat) : List Nat :=
  if sel < 4 then [64 * die + 40 + sel] else (List.range 4).map (fun k => 64 * die + 40 + k)

/-- The place of a pulled gang: proof core, guest slot, partition (R290, step 2). -/
def State.guestPlace (s : State) (die sel : Nat) (g : Gang) : Option (Nat × Nat × Nat) :=
  ((pullCores die sel).find? (fun c => (s.freeGuestSlot c).isSome)).bind (fun c =>
    (s.freeGuestSlot c).bind (fun k => (s.guestPart c g).map (fun p => (c, k, p))))

/-- STATUS of a trigger, and ENABLE with ONESHOT (R288, R290). -/
def Trigger.report (t : Trigger) (status : Nat) : Trigger :=
  let ctl := (t.ctl &&& ~~~ 0xC000) ||| BitVec.ofNat 64 (status * 2 ^ 14)
  { t with ctl := if status = 1 && t.ctl.getLsbD 12 then ctl &&& ~~~ 1 else ctl }

def State.reportTrigger (s : State) (core trig status : Nat) : State :=
  s.updCore core (fun c => if trig = 0 then { c with trig0 := c.trig0.report status } else { c with trig1 := c.trig1.report status })

/-- Every clause count of a block, its guests' included, starts again (R294). -/
def State.clearCounts (s : State) (block : Nat) : State :=
  { s with gangs := s.gangs.map (fun g => if g.block == block then { g with clauseCount := 0, known := [] } else g) }

/-- The gang moves to its guest slot and halts with a PULL event (R290, steps 4 and 5). -/
def State.movePulled (s : State) (g : Gang) (q : PullReq) (core gslot part : Nat) : State :=
  let from0 := s.schedAt g
  let s := s.reportTrigger q.at0 q.trig 1
  let s := s.clearCounts g.block
  let pc := g.haltWord none
  let s := s.updGang g.uid (fun g =>
    { g with
      place := .guest core gslot part
      pull := none
      guest := some { free := q.free, window := q.window, halted := true, haltPc := 1, held := none, edits := []
                      stepping := false, retReq := false }
      groups := g.groups.map Group.saved })
  let s := s.moveEntries g.uid from0
  let s := match s.gang? g.uid with
    | some g => s.guestRecord g 2 0 pc
    | none => s
  s.addEvent core { kind := 0, unit := 0, gslot := gslot, gang := g.uid, pc := pc, addr := 0, halt := pc, val := 0, clock := 0 }

/-- PULL (R290): a gang that its trap handler does not keep is frozen, one of a deterministic launch once it stands between clauses
(R53, R62; log 23); a place is found for it and kept; without room the trigger reports 2 and the gang goes on; after the drain it
moves. -/
def execPull (gang : Nat) (s : State) : Host.Outcome State Fault Refusal :=
  .next (match s.gang? gang with
  | none => s
  | some g => match g.pull with
    | none => s
    | some q =>
      if g.live = 0 then s.setGang { g with pull := none }
      else if g.trap.isSome || !s.holdsCore g || s.preempting g || (g.det s && !g.betweenClauses) then s
      else match q.place with
      | none => (match s.guestPlace (dieOf g.home.1) q.core g with
        | none => (s.reportTrigger q.at0 q.trig 2).setGang { g with pull := none }
        | some p => s.setGang { g with pull := some { q with place := some p } })
      | some p =>
        if !s.drained g || s.slotWaits p.1 p.2.1 then s
        else if !g.errs.isEmpty then s.raiseHandOver g
        else s.movePulled g q p.1 p.2.1 p.2.2)

/-! ## The end of a revocation (R306) -/

/-- The TRUNCATED record, and FLAGS[0] of the sink. -/
def State.truncateSink (s : State) (d : DbgDomain) : Eng State :=
  let io := ioParty (drainWork ioKey d.pasid) d.pasid
  let t : TraceRec := { dom := d.pasid, pc := s.freeWord 3, clock := s.freeWord 4, lanes := 0, val := 0, block := 0, gang := 0
                        kind := 8, info := 0 }
  (s.sinkRead io d 8 8).bind (fun cons =>
    ((if d.slots ≤ d.prod - cons then .ok s
      else (s.sinkWrite io d (64 + 32 * (d.prod % d.slots)) t.toBytes).bind (fun s =>
        s.sinkWrite io d 0 (leBytes 8 (d.prod + 1)))) : Eng State).bind (fun s =>
      (s.sinkRead io d 16 8).bind (fun fl => s.sinkWrite io d 16 (leBytes 8 (fl ||| 1)))))

/-- The domain is closed. -/
def State.closeDomain (s : State) (pasid : Nat) : State :=
  { s.dropWaiter (drainWork ioKey pasid) with
    dbgDomains := s.dbgDomains.filter (fun d => d.firmware || !d.closing || d.pasid != pasid)
    proofs := s.proofs.map (fun p => p.dropRecords pasid 0) }

/-- The comparators and watchpoints of a domain are disabled. -/
def State.dropWatches (s : State) (pasid : Nat) : State :=
  { s with proofs := s.proofs.map (fun (p : Proof) =>
      { p with pcs := p.pcs.filter (fun w => w.2.dom != pasid), mems := p.mems.filter (fun w => w.2.dom != pasid) }) }

/-- The handlers of a domain and their registers are discarded. -/
def State.dropHandlers (s : State) (pasid : Nat) : State :=
  let hs : List Nat := (s.gangs.filter (fun g => (match g.place with
    | .handler _ => true
    | _ => false) && g.pasid s == pasid)).map (fun g => g.uid)
  { s with
    gangs := s.gangs.filter (fun g => !hs.contains g.uid)
    blocks := s.blocks.filter (fun b => !hs.contains b.uid)
    grids := s.grids.filter (fun g => !hs.contains g.uid)
    proofs := s.proofs.map (fun (p : Proof) => match p.handler with
      | some h => if hs.contains h then { p with handler := none, current := none } else p
      | none => p) }

/-- The last steps of a revocation, once no guest of the PASID is left: comparators, watchpoints and handlers go, the domain's records drain from every buffer, and the
TRUNCATED record goes last; it waits for pages that are missing. -/
def State.settleRevoke (s : State) (pasid : Nat) : State :=
  if s.gangs.any (fun g => g.isGuest && g.pasid s == pasid) then s
  else match s.closingDomain pasid with
    | none => s
    | some _ =>
      let s := (s.dropWatches pasid).dropHandlers pasid
      let s := proofKeys.foldl (fun (s : State) k => match s.closingDomain pasid with
        | some d => s.drainDomain k d
        | none => s) s
      if s.proofs.any (fun p => p.trace.any (fun t => t.dom == pasid)) then s
      else match s.closingDomain pasid with
        | none => s
        | some d => match s.truncateSink d with
          | .ok s => s.closeDomain pasid
          | .miss q => s.ask q
          | .bad _ => s.closeDomain pasid

/-! ## GUEST_RETURN -/

/-- Sleepers whose awaited phase is complete at home wake. -/
def State.wakeGuest (s : State) (g : Gang) : State :=
  match s.block? g.block with
  | none => s
  | some blk => s.updGang g.uid (fun g => barNumbers.foldl (fun (g : Gang) n => match s.bar? blk n with
      | some b => g.wakeBar n b.phase
      | none => g) g)

/-- A guest goes home (R291): its place, its queue entries, and the home file's releases; a fault that its event held back is
now unhandled (R295). -/
def State.sendHome (s : State) (g : Gang) : State :=
  let from0 := s.schedAt g
  let s := s.guestRecord g 3 0 (g.haltWord none)
  let held := g.guest.bind (fun (q : Guest) => q.held)
  let s := s.setGang { g with place := .press g.home.2 (g.slots.headD 0), guest := none
                              groups := g.groups.map Group.saved }
  let s := (s.moveEntries g.uid from0).wakeGuest g
  let s := s.settleRevoke (g.pasid s)
  match held, s.block? g.block with
  | some fr, some b => s.abortGrid b.grid (some fr)
  | _, _ => s

/-- GUEST_RETURN (R291): once the guest stands between clauses pending edits are applied, and then it drains and moves. -/
def execGuestReturn (gang : Nat) (s : State) : Host.Outcome State Fault Refusal :=
  .next (match s.gang? gang with
  | none => s
  | some g => match g.guest with
    | none => s
    | some q =>
      if !q.retReq || !(if g.det s then g.betweenClauses else g.groups.all (s.groupHalted g)) then s
      else
        let g := g.applyShadow
        let s := s.setGang g
        if !s.drained g || s.recordWaits g then s
        else if !g.errs.isEmpty then s.raiseHandOver g
        else s.sendHome g)

/-! ## Messages -/

/-- ARRIVAL_MESSAGE (R292): the oldest arrival of a guest reaches its home file. -/
def execArrivalMessage (gang : Nat) (s : State) : Host.Outcome State Fault Refusal :=
  .next (match s.gang? gang with
  | none => s
  | some g => match g.arriving with
    | [] => s
    | a :: rest => (s.setGang { g with arriving := rest }).arrive gang a.1 a.2.1)

/-- RELEASE_MESSAGE (R292): a guest's sleepers whose phase has completed wake. -/
def execReleaseMessage (gang : Nat) (s : State) : Host.Outcome State Fault Refusal :=
  .next (match s.gang? gang with
  | none => s
  | some g => if g.isGuest then s.wakeGuest g else s)

/-- CLAUSE_COUNT_MESSAGE (R294): a gang of the block learns a guest's count. -/
def execClauseCountMessage (guest gang : Nat) (s : State) : Host.Outcome State Fault Refusal :=
  .next (match s.gang? guest with
  | none => s
  | some p => s.updGang gang (fun g =>
      if p.isGuest && p.block == g.block then { g with known := Store.put g.known guest p.clauseCount } else g))

/-! ## The debug handler -/

/-- The PASID of an event's domain: its guest's, or the one a HOST event names. -/
def State.eventDomain (s : State) (e : DbgEvent) : Nat :=
  if e.kind = 5 then e.gang else ((s.gang? e.gang).map (fun g => g.pasid s)).getD 0

/-- The handler gang of a domain on a proof core. -/
def State.handlerOf (s : State) (core pasid : Nat) : Option Gang :=
  s.gangs.find? (fun g => g.place == .handler core && g.pasid s == pasid)

def handlerAllot : Nat := 64

/-- A new handler gang of launch measure 32, in a block and a grid of its own that carry the PASID (R296). -/
def State.newHandler (s : State) (core pasid : Nat) (image : W64) : State :=
  let uid := s.nextUid
  let g : Gang := { Gang.start uid uid 0 0 0 32 32 handlerAllot (.handler core) (core, 0) [] image (image + 64) 0 with
                    groups := [{ Group.at (lowSlices 4) 0 with status := .idle }] }
  let b : Block :=
    { uid := uid, grid := uid, blockid := 0, crank := 0, cluster := uid, stage := .resident, core := core, die := dieOf core
      resident := 0, since := s.now, preempt := false, sliced := false, awaited := false, galley := Galley.empty, bars := []
      gangs := [uid], children := 0 }
  let gr : Grid :=
    { uid := uid, desc := emptyDesc, queue := 4096, packet := 0, pasid := pasid, priv := false, parent := none, depth := 0
      events := 0, after := 0, die := dieOf core, nextBlock := 1, passed := [], retired := 0, aborted := false
      stopped := false, fault := none, bars := [], root := uid, order := uid, claims := [], doomed := false }
  { s with nextUid := uid + 1, gangs := s.gangs ++ [g], blocks := s.blocks ++ [b], grids := s.grids ++ [gr] }

/-- DEBUG_EVENT with the address of the guest's halt word, at code word 0 (R296). -/
def Gang.enterHandler (g : Gang) (image pc : W64) : Gang :=
  { g with
    tcause := BitVec.ofNat 32 Code.debugEvent.num
    tval := pc
    image := image
    entry := image + 64
    groups := [{ Group.at (lowSlices g.nslices) (image + 64) with status := .ready }] }

/-- DEBUG_HANDLER_ENTRY (R296): the next waiting event enters; an event whose domain is not unlocked is discarded (R306). -/
def execDebugHandlerEntry (core : Nat) (s : State) : Host.Outcome State Fault Refusal :=
  .next (match s.proof? core with
  | none => s
  | some p => match p.current, p.events with
    | none, e :: rest =>
      let dom := s.eventDomain e
      let s := s.setProof { p with events := rest }
      match s.kernelDomain dom with
      | none => s
      | some d =>
        let s := if (s.handlerOf core dom).isSome then s else s.newHandler core dom d.handler
        match s.handlerOf core dom with
        | none => s
        | some g =>
          (s.setGang (g.enterHandler d.handler e.halt)).updProof core (fun p =>
            { p with current := some e, handler := some g.uid, domain := dom })
    | _, _ => s)

/-- TRACE_DRAIN (R299); the sink of a revoked domain is closed once no guest of it is left (R306). -/
def execTraceDrain (core : Nat) (s : State) : Host.Outcome State Fault Refusal :=
  .next ((s.dbgDomains.filter (fun d => d.closing)).foldl (fun s d => s.settleRevoke d.pasid) (s.drainNow core))

/-! ## Revocation (R306) -/

/-- Triggers of a PASID on every core are disabled. -/
def State.disarmTriggers (s : State) (pasid : Nat) : State :=
  { s with
    cores := s.cores.map (fun c =>
      if c.trigPasid.toNat == pasid then
        { c with trig0 := { c.trig0 with ctl := c.trig0.ctl &&& ~~~ 1 }, trig1 := { c.trig1 with ctl := c.trig1.ctl &&& ~~~ 1 } }
      else c)
    gangs := s.gangs.map (fun g => if g.pasid s == pasid then { g with pull := none } else g) }

/-- A guest of a revoked domain goes home with its last applied state: unapplied edits are gone, and it is to return. -/
def Gang.callBack (g : Gang) (det : Bool) : Gang :=
  { g with guest := g.guest.map (fun (q : Guest) => { q with edits := [], retReq := true, halted := q.halted && !det
                                                             stepping := false }) }

/-- Revocation of a kernel domain, its steps in order (R306). -/
def State.revokeKernel (s : State) (pasid : Nat) : State :=
  if (s.kernelDomain pasid).isNone then s.settleRevoke pasid
  else
    let s := s.disarmTriggers pasid
    let s : State := { s with
      proofs := s.proofs.map (fun (p : Proof) => { p with events := p.events.filter (fun e => s.eventDomain e != pasid) })
      gangs := s.gangs.map (fun g => if g.isGuest && g.pasid s == pasid then g.callBack (g.det s) else g)
      dbgDomains := s.dbgDomains.map (fun d => if !d.firmware && d.pasid == pasid then { d with closing := true } else d) }
    s.settleRevoke pasid

/-- Revocation of the firmware domain: one TRUNCATED record is written last, and FLAGS[0] set. -/
def State.revokeFirmware (s : State) : State :=
  match s.dbgDomains.find? (fun d => d.firmware) with
  | none => s
  | some d =>
    let base := fwBase + d.sink.toNat
    let t : TraceRec := { dom := 0, pc := s.freeWord 3, clock := s.freeWord 4, lanes := 0, val := 0, block := 0, gang := 0
                          kind := 8, info := 0 }
    let a := base + 64 + 32 * (d.prod % d.slots)
    let s := if d.slots ≤ d.prod - s.readLE (base + 8) 8 then s
      else (s.writeBytes (((List.range 32).map (a + ·)).zip t.toBytes)).writeBytes (cellsOf base 8 (d.prod + 1))
    let s := s.writeBytes (cellsOf (base + 16) 8 (s.readLE (base + 16) 8 ||| 1))
    { s with dbgDomains := s.dbgDomains.filter (fun d => !d.firmware) }

end Sys2Proof.Machine
end

