-- ==== Sys2Proof/Machine/Xmss.lean ====
section
/-!
DEFINITION. The signature of R304 and R336: XMSS-SHAKE256_20_256 of NIST SP 800-208 (n = 32, w = 16, h = 20). The spec names the
parameter set and the sizes; the functions of the standard itself are log 13.
-/
namespace Sys2Proof.Machine

/-! ## SHAKE256

The 1,600 bits of Keccak stand in one number: lane x + 5 y at bits 64 (x + 5 y) and up. -/

/-- Bit 0 of every lane, and bit 0 of every plane of five lanes. -/
def laneUnits : Nat := (List.range 25).foldl (fun a i => a + 2 ^ (64 * i)) 0
def planeUnits : Nat := (List.range 5).foldl (fun a y => a + 2 ^ (320 * y)) 0

def everyLane : Nat := 2 ^ 1600 - 1

/-- Every lane rotated left by n. -/
def rotLanes (n x : Nat) : Nat :=
  let low := (2 ^ n - 1) * laneUnits
  ((x <<< n) &&& (everyLane ^^^ low)) ||| ((x >>> (64 - n)) &&& low)

/-- In each plane, lane x + k in the place of lane x. -/
def rotPlanes (k x : Nat) : Nat :=
  let low := (2 ^ (64 * (5 - k)) - 1) * planeUnits
  ((x >>> (64 * k)) &&& low) ||| ((x <<< (64 * (5 - k))) &&& (everyLane ^^^ low))

def keccakTheta (x : Nat) : Nat :=
  let c := (x ^^^ (x >>> 320) ^^^ (x >>> 640) ^^^ (x >>> 960) ^^^ (x >>> 1280)) % 2 ^ 320 * planeUnits
  x ^^^ rotPlanes 4 c ^^^ rotLanes 1 (rotPlanes 1 c)

/-- The rotation of each lane. -/
def keccakOffsets : List Nat := [0, 1, 62, 28, 27, 36, 44, 6, 55, 20, 3, 10, 43, 25, 39, 41, 45, 15, 21, 8, 18, 2, 61, 56, 14]

/-- The lanes whose offset has bit k, for each k. -/
def rhoLanes : List Nat :=
  (List.range 6).map (fun k => (2 ^ 64 - 1) *
    (List.range 25).foldl (fun a i => if bit (keccakOffsets.getD i 0) k then a + 2 ^ (64 * i) else a) 0)

/-- The rotations, in stages by powers of two. -/
def keccakRho (x : Nat) : Nat :=
  (List.range 6).foldl (fun x k =>
    let m := rhoLanes.getD k 0
    (x &&& (everyLane ^^^ m)) ||| rotLanes (2 ^ k) (x &&& m)) x

def keccakPi (x : Nat) : Nat :=
  (List.range 25).foldl (fun a i =>
    a ||| ((x >>> (64 * i)) % 2 ^ 64) <<< (64 * (i / 5 + 5 * ((2 * (i % 5) + 3 * (i / 5)) % 5)))) 0

def keccakChi (x : Nat) : Nat := x ^^^ ((rotPlanes 1 x ^^^ everyLane) &&& rotPlanes 2 x)

def keccakConstants : List Nat :=
  [0x1, 0x8082, 0x800000000000808A, 0x8000000080008000, 0x808B, 0x80000001, 0x8000000080008081, 0x8000000000008009, 0x8A, 0x88,
    0x80008009, 0x8000000A, 0x8000808B, 0x800000000000008B, 0x8000000000008089, 0x8000000000008003, 0x8000000000008002,
    0x8000000000000080, 0x800A, 0x800000008000000A, 0x8000000080008081, 0x8000000000008080, 0x80000001, 0x8000000080008008]

def keccak (x : Nat) : Nat := keccakConstants.foldl (fun x c => keccakChi (keccakPi (keccakRho (keccakTheta x))) ^^^ c) x

/-- The bytes of a rate block. -/
def shakeRate : Nat := 136

/-- SHAKE256 of a message, its first 256 bits. -/
def shake256 (m : List Byte) : List Byte :=
  let blocks := m.length / shakeRate + 1
  let padded := bytesVal m + 0x1F * 256 ^ m.length + 0x80 * 256 ^ (shakeRate * blocks - 1)
  leBytes 32 ((List.range blocks).foldl (fun x k => keccak (x ^^^ padded / 256 ^ (shakeRate * k) % 256 ^ shakeRate)) 0)

/-! ## XMSS -/

/-- The n big-endian bytes of a number. -/
def beBytes (n x : Nat) : List Byte := (leBytes n x).reverse

def xorBytes (a b : List Byte) : List Byte := a.zipWith (· ^^^ ·) b

/-- The keyed hashes, told apart by their prefix: F 0, H 1, the hash of the message 2, the pseudorandom function 3. -/
def keyedHash (pre : Nat) (key m : List Byte) : List Byte := shake256 (beBytes 32 pre ++ key ++ m)

/-- The address of a hash: a one-time chain (kind 0), an L-tree (1) or the hash tree (2), its three words, and which key or mask. -/
def xmssAddress (kind a b c mask : Nat) : List Byte := List.replicate 12 0 ++ [kind, a, b, c, mask].flatMap (beBytes 4)

def xmssPrf (seed : List Byte) (kind a b c mask : Nat) : List Byte := keyedHash 3 seed (xmssAddress kind a b c mask)

/-- Steps of a one-time chain, from step i on. -/
def xmssChain (seed : List Byte) (leaf chain i steps : Nat) (x : List Byte) : List Byte :=
  (List.range steps).foldl (fun x j =>
    keyedHash 0 (xmssPrf seed 0 leaf chain (i + j) 0) (xorBytes x (xmssPrf seed 0 leaf chain (i + j) 1))) x

/-- The randomised hash of two nodes. -/
def xmssNode (seed : List Byte) (kind a b c : Nat) (l r : List Byte) : List Byte :=
  keyedHash 1 (xmssPrf seed kind a b c 0) (xorBytes l (xmssPrf seed kind a b c 1) ++ xorBytes r (xmssPrf seed kind a b c 2))

/-- The 67 base-16 digits that a one-time signature signs: the digest's, high half first, and those of their checksum. -/
def xmssDigits (digest : List Byte) : List Nat :=
  let nibbles (l : List Byte) : List Nat := l.flatMap (fun x => [x.toNat / 16, x.toNat % 16])
  let ds := nibbles digest
  ds ++ (nibbles (beBytes 2 (16 * (ds.map (fun d => 15 - d)).sum))).take 3

/-- One level of an L-tree: neighbours join, and a last odd node moves up. -/
def lTreeLevel (seed : List Byte) (leaf height : Nat) : Nat → List (List Byte) → List (List Byte)
  | k, l :: r :: rest => xmssNode seed 1 leaf height k l r :: lTreeLevel seed leaf height (k + 1) rest
  | _, rest => rest

/-- The root that a signature leads to: its leaf from the 67 chains and the L-tree, then up the 20 levels. -/
def xmssRoot (seed digest : List Byte) (leaf : Nat) (ots auth : List (List Byte)) : List Byte :=
  let ends := (ots.zip (xmssDigits digest)).mapIdx (fun k (e : List Byte × Nat) => xmssChain seed leaf k e.2 (15 - e.2) e.1)
  let node := ((List.range 7).foldl (fun l h => lTreeLevel seed leaf h 0 l) ends).headD []
  (auth.zipIdx).foldl (fun x (e : List Byte × Nat) =>
    if bit leaf e.2 then xmssNode seed 2 0 e.2 (leaf / 2 ^ (e.2 + 1)) e.1 x else xmssNode seed 2 0 e.2 (leaf / 2 ^ (e.2 + 1)) x e.1) node

/-- The bytes of a signature: a 4-byte index, a 32-byte randomiser, 67 chain values and 20 nodes of the path (R304, R336). -/
def signatureSize : Nat := 2820

/-- Is a signature of a message good under a key record of 68 bytes: OID, root and public seed (R337)? -/
def xmssGood (key : BitVec 544) (message signature : List Byte) : Bool :=
  let record := leBytes 68 key.toNat
  let root := (record.drop 4).take 32
  let leaf := bytesVal (signature.take 4).reverse
  let words := (List.range 87).map (fun k => (signature.drop (36 + 32 * k)).take 32)
  let digest := keyedHash 2 ((signature.drop 4).take 32 ++ root ++ beBytes 32 leaf) message
  signature.length == signatureSize && xmssRoot (record.drop 36) digest leaf (words.take 67) (words.drop 67) == root

end Sys2Proof.Machine
end

