-- ==== Sys2Proof/Machine/EvHost.lean ====
section
/-!
DEFINITION. The host link: the feature word (R320), host commands and their completion (R321 to R324, R330, R334, R337), the
background verifications (R280, R304, R305, R323), and the registers with a behaviour of their own (R288, R301, R306, R316,
R339).
-/
namespace Sys2Proof.Machine

/-! ## The link -/

/-- Does `STARTSTAT` show READY (R335)? -/
def State.ready (s : State) : Bool := s.host.startStat.toNat % 16 == 1

/-- n bytes of host memory by an untranslated request (R318). -/
def State.hostBytes (s : State) (a n : Nat) : List Byte := (List.range n).map (fun k => Memory.read s.mem (hostBase + a + k))

def State.hostWriteBytes (s : State) (a : Nat) (l : List Byte) : State :=
  (l.mapIdx (fun k b => (k, b))).foldl (fun s e => s.hostWrite (hostBase + a + e.1) e.2) s

/-- Is a REGISTER_QUEUE that `HCMD` has accepted still to be checked (R320)? -/
def State.lockComes (s : State) : Bool := !s.host.done && s.host.pending.isNone && s.host.hcmd.toNat / 2 ^ 56 == 1

/-- FEATACC_WRITE (R320): ignored when locked, and while the locking command runs. -/
def execFeatAccWrite (x : BitVec 128) (s : State) : Host.Outcome State Fault Refusal :=
  .next (if s.host.locked || s.lockComes || !s.ready then s else { s with host := { s.host with featAcc := x &&& s.host.featOff } })

def State.lockFeatures (s : State) : State := { s with host := { s.host with locked := true } }

/-! ## Host commands

A write to `HCMD` starts the command; its effect is taken at once, or once its translations have come. COMMAND_DONE finishes
it. -/

def stOk : Nat := 0
def stBusy : Nat := 1
def stBad : Nat := 2
def stSignature : Nat := 3
def stRollback : Nat := 4
def stNoRoom : Nat := 5
def stAbsent : Nat := 6

/-- What a command's checks and effect come to: a status with the new state, or a page to wait for. -/
inductive Cmd
  | fin (status : Nat) (s : State)
  | wait (s : State)

/-- A failed check changes nothing. -/
def State.fail (s : State) (status : Nat) : Cmd := .fin status s

/-- The state in which the running command's status stands (R321). -/
def Cmd.settle (tag : Byte) : Cmd → State
  | .fin st s => { s with host := { s.host with pending := some (BitVec.ofNat 8 st, tag) } }
  | .wait s => s

/-- `HCMD` accepts a command while DONE is 1; else the write is ignored and LOST is set (R5, R321). -/
def State.issueCmd (s : State) (op : Nat) (tag : Byte) (arg : BitVec 48) (run : State → Cmd) : State :=
  if !s.host.done then { s with host := { s.host with lost := true } }
  else
    let w : W64 := BitVec.ofNat 64 (op * 2 ^ 56 + tag.toNat * 2 ^ 48 + arg.toNat)
    (run { s with host := { s.host with hcmd := w, done := false, pending := none } }).settle tag

/-- A 64-byte argument block whose unnamed bytes are zero; `named` bytes lead it. -/
def State.argBlock (s : State) (arg named : Nat) (tail : Nat) : Option (List Byte) :=
  let b := s.hostBytes arg 64
  if arg % 64 = 0 && ((b.take (64 - tail)).drop named).all (fun x => x == 0) then some b else none

/-- A PASID of 20 bits. -/
def pasidOk (n : Nat) : Bool := n < 2 ^ 20

/-! ### REGISTER_QUEUE -/

/-- A queue as a new QCB gives it: UNMAPPED, with an empty window and the fetch index at RDIDX (R261). -/
def Queue.fresh (qnum : Nat) (qcb : W64) (pasid : Nat) : Queue :=
  { qnum := qnum, qcb := qcb, pasid := pasid, state := .unmapped, slot := none, armed := false, base := 0, faultrec := 0
    ctxpool := 0, log2 := 4, prio := 0, priv := false, rdidx := 0, wridx := 0, fetch := 0, abort := false, hold := false
    window := [], watches := [], saved := false, age := 0, children := [] }

/-- Entry q of the queue directory, in the firmware's memory (R273). -/
def State.writeDirectory (s : State) (qnum : Nat) (qcb : W64) (pasid : Nat) : State :=
  let base := fwBase + s.flash.directory.toNat + 16 * qnum
  s.writeBytes (cellsOf base 8 qcb.toNat ++ cellsOf (base + 8) 4 pasid ++ cellsOf (base + 12) 4 0)

/-- The host commands as work that waits for translations. -/
def cmdWork : Waiter := ioWork 5 0

/-- The QCB of REGISTER_QUEUE, read under the PASID and checked by R261. -/
def State.registerQcb (s : State) (qcb : W64) (pasid : Nat) : Cmd :=
  match (s.engineRead (ioParty cmdWork pasid) none qcb 128).orNone with
  | .miss q => .wait (s.ask q)
  | .bad _ | .ok none => s.fail stBad
  | .ok (some b) =>
    let qnum := fieldOf b 36 4
    match (Queue.fresh qnum qcb pasid).parse b with
    | none => s.fail stBad
    | some q =>
      if 4096 ≤ qnum || (s.queues.any (fun x => x.qnum == qnum && x.slot.isSome)) then s.fail stBad
      else
        let qs := s.queues.filter (fun (x : Queue) => x.qnum != qnum) ++ [q]
        let s : State := { s with queues := qs }
        .fin stOk ((s.writeDirectory qnum qcb pasid).lockFeatures)

def State.cmdRegisterQueue (arg : Nat) (s : State) : Cmd :=
  match s.argBlock arg 12 0 with
  | none => s.fail stBad
  | some b =>
    let qcb : W64 := BitVec.ofNat 64 (fieldOf b 0 8)
    let pasid := fieldOf b 8 4
    if !pasidOk pasid || qcb == 0 || qcb.toNat % 128 != 0 || !signalAddr qcb then s.fail stBad else s.registerQcb qcb pasid

/-- REGISTER_QUEUE (R322). -/
def execRegisterQueue (tag : BitVec 8) (arg : BitVec 48) (s : State) : Host.Outcome State Fault Refusal :=
  .next (s.issueCmd 0x01 tag arg (State.cmdRegisterQueue arg.toNat))

/-! ### TEARDOWN_PASID, DESTROY_CTX, PREEMPT -/

/-- The first translation requests that wait for the limit are sent: n of them (R205). -/
def sendAts : Nat → List Ats → List Ats
  | 0, l => l
  | _, [] => []
  | n + 1, a :: l => if a.sent then a :: sendAts (n + 1) l else { a with sent := true } :: sendAts n l

/-- The discarded requests of a PASID make room for others (R205, R279). -/
def State.discardAts (s : State) (pasid : Nat) : State :=
  let l := s.ats.filter (fun a => a.pasid != pasid)
  { s with ats := sendAts (atsLimit - (l.filter (fun a => a.sent)).length) l }

/-- The Stop Marker of a PASID that is torn down (R318). -/
def State.stopMark (s : State) (pasid : Nat) : State := { s with host := { s.host with stopMarkers := s.host.stopMarkers ++ [pasid] } }

/-- R279, first step: every queue of the PASID enters TEARDOWN, and outstanding ATS completions are discarded: a group that waits
for one is parked, and stays so (log 56). -/
def State.tearDown (s0 : State) (pasid : Nat) : State :=
  let s := s0.parkWaiters (s0.gangs.flatMap (fun g =>
    if g.pasid s0 != pasid then []
    else (g.groups.filter (fun r => r.status == .waitAts && s0.waiting g r)).map (fun r => (g.uid, lowSlice r.slices))))
  { s.discardAts pasid with
    queues := s.queues.map (fun q => if q.pasid == pasid && q.state != .dead then { q with state := .teardown } else q) }

def State.cmdTeardown (arg : Nat) (s : State) : Cmd :=
  match s.argBlock arg 4 0 with
  | none => s.fail stBad
  | some b => if pasidOk (fieldOf b 0 4) then .fin stOk ((s.tearDown (fieldOf b 0 4)).stopMark (fieldOf b 0 4)) else s.fail stBad

/-- TEARDOWN_PASID (R279). -/
def execTeardownPasid (tag : BitVec 8) (arg : BitVec 48) (s : State) : Host.Outcome State Fault Refusal :=
  .next (s.issueCmd 0x02 tag arg (State.cmdTeardown arg.toNat))

/-- The launches of a PASID. -/
def State.launchesOf (s : State) (pasid : Nat) : List Nat :=
  (s.grids.filter (fun g => g.pasid == pasid && g.depth != 0)).map (fun g => g.uid)

/-- R279, second step, the halt: no group of the PASID's launches starts a clause. -/
def State.haltLaunches (s : State) (pasid : Nat) : State :=
  { s with grids := s.grids.map (fun g =>
      if g.pasid == pasid && g.depth != 0 then { g with aborted := true, stopped := true, doomed := true, events := 0, fault := none } else g) }

/-- Have they halted, with none of their items left on the fabric? -/
def State.launchesHalted (s : State) (pasid : Nat) : Bool :=
  s.blocks.all (fun b => !(s.launchesOf pasid).contains b.grid || s.blockHalted b)

/-- The launches are discarded: no context record, completion signal or EVENTS word is written. -/
def State.discardLaunches (s : State) (pasid : Nat) : State :=
  let l := s.launchesOf pasid
  let s := (s.blocks.filter (fun b => l.contains b.grid)).foldl (fun s b => s.dropBlock b) s
  { s with
    blocks := s.blocks.filter (fun b => !l.contains b.grid)
    clusters := s.clusters.filter (fun c => !l.contains c.grid)
    grids := s.grids.filter (fun g => !l.contains g.uid)
    roots := s.roots.filter (fun r => !l.contains r.grid)
    copies := s.copies.filter (fun c => c.pasid != pasid) }

/-- STATE = DEAD in a QCB (R279): a page that is missing is asked for, a refused one is passed over. -/
def State.writeDead (s : State) (q : Queue) : Eng State :=
  (s.engineDest (ioParty cmdWork q.pasid) (q.qcb + 32) 4).orNone.bind (fun a => match a with
    | some a => .ok ((s.ioWrite a (leBytes 4 (3 + (if q.abort then 2 ^ 8 else 0) + (if q.hold then 2 ^ 9 else 0)))).releaseSystem)
    | none => .ok s)

/-- A queue of a destroyed context: DEAD, out of its slot, its directory entry zero (R273, R279). -/
def State.killQueue (s : State) (q : Queue) : State :=
  (s.setQueue { q with state := .dead, slot := none, armed := false, window := [], watches := [], qcb := 0
                       children := [] }).writeDirectory q.qnum 0 0

/-- DESTROY_CTX's end: launches discarded, QCBs written, queues dead, debug right revoked (R279, R306). -/
def State.destroy (s : State) (pasid : Nat) : Eng State :=
  let qs := s.queues.filter (fun q => q.pasid == pasid && q.state != .dead)
  (qs.foldl (fun (x : Eng State) q => x.bind (fun s => s.writeDead q)) (.ok s)).bind (fun s =>
    let s := (s.discardLaunches pasid).revokeKernel pasid
    let s := qs.foldl (fun s q => s.killQueue q) s
    .ok { s with
      watchTable := s.watchTable.filter (fun w => !qs.any (fun q => q.qnum == w.1))
      pri := s.pri.filter (fun p => p.sent || p.pasid != pasid) })

def State.cmdDestroy (arg : Nat) (s : State) : Cmd :=
  match s.argBlock arg 4 0 with
  | none => s.fail stBad
  | some b => if pasidOk (fieldOf b 0 4) then .fin stOk (s.haltLaunches (fieldOf b 0 4)) else s.fail stBad

/-- DESTROY_CTX (R279): the halt; COMMAND_DONE discards what has halted. -/
def execDestroyCtx (tag : BitVec 8) (arg : BitVec 48) (s : State) : Host.Outcome State Fault Refusal :=
  .next (s.issueCmd 0x03 tag arg (State.cmdDestroy arg.toNat))

/-- The queue that PREEMPT names: 0xFFFF is every one. -/
def preemptQueue (n : Nat) : Option Nat := if n = 0xFFFF then none else some n

def State.cmdPreempt (arg : Nat) (s : State) : Cmd :=
  match s.argBlock arg 6 0 with
  | none => s.fail stBad
  | some b =>
    let q := fieldOf b 4 2
    if !pasidOk (fieldOf b 0 4) || (4096 ≤ q && q != 0xFFFF) then s.fail stBad
    else .fin stOk (s.requestPreempt (fieldOf b 0 4) (preemptQueue q))

/-- PREEMPT (R322): DONE follows the save. -/
def execPreempt (tag : BitVec 8) (arg : BitVec 48) (s : State) : Host.Outcome State Fault Refusal :=
  .next (s.issueCmd 0x04 tag arg (State.cmdPreempt arg.toNat))

/-! ### Signed images (R336) -/

structure Image where
  (magic kind keyslot rsv version length target devid rsv2 : Nat)
deriving DecidableEq, Repr, Inhabited

/-- The 64-byte header of an image. -/
def imageOf (b : List Byte) : Image :=
  { magic := fieldOf b 0 4, kind := fieldOf b 4 1, keyslot := fieldOf b 5 1, rsv := fieldOf b 6 2, version := fieldOf b 8 8
    length := fieldOf b 16 4, target := fieldOf b 20 4, devid := fieldOf b 24 16, rsv2 := fieldOf b 40 24 }

/-- The header of an image at an untranslated host address. -/
def State.imageAt (s : State) (a : Nat) : Image := imageOf (s.hostBytes a 64)

/-- Is a field of the header broken, or the image another device's? -/
def Flash.imageBad (f : Flash) (i : Image) (kind : Nat) : Bool :=
  i.magic != 0x53564947 || i.kind != kind || 3 < i.keyslot || i.rsv != 0 || i.rsv2 != 0 || (kind != 3 && i.target != 0) ||
    (i.devid != 0 && i.devid != f.deviceId.toNat)

def Flash.keySlot (f : Flash) (k : Nat) : Option (BitVec 544) := (f.keySlots[k]?).join

def Flash.minOf (f : Flash) (kind : Nat) : Nat := (Store.getD f.minVersion kind (0 : W64)).toNat

/-- Is a signature good under the key of a slot? -/
def Flash.signed (f : Flash) (slot : Nat) (message signature : List Byte) : Bool :=
  (f.keySlot slot).any (fun key => xmssGood key message signature)

/-- The result of a verification (R336), given whether the signature is good: the first that applies. -/
def Flash.verify (f : Flash) (i : Image) (kind : Nat) (good : Bool) : Nat :=
  if f.imageBad i kind then stBad
  else if (f.keySlot i.keyslot).isNone || !good then stSignature
  else if i.version < f.minOf kind then stRollback
  else stOk

/-- Success raises the minimum version of a KIND. -/
def Flash.raiseVersion (f : Flash) (kind version : Nat) : Flash :=
  { f with minVersion := Store.putD 0 f.minVersion kind (BitVec.ofNat 64 version) }

/-- Is the image at a host address signed (R336)? -/
def State.imageSigned (s : State) (a : Nat) : Bool :=
  let i := s.imageAt a
  s.flash.signed i.keyslot (s.hostBytes a (64 + i.length)) (s.hostBytes (a + 64 + i.length) signatureSize)

/-- The argument block shows that a verification runs (R323). -/
def State.markRunning (s : State) (arg : Nat) : State := s.hostWriteBytes (arg + 56) (leBytes 8 (2 ^ 64 - 1))

/-- The final status of a verification, and vector 0 (R323). -/
def State.reportVerify (s : State) (v : Verify) (status : Nat) : State :=
  (s.hostWriteBytes (v.arg + 56) (leBytes 8 status)).raiseMsi 0

/-! ### LOAD_FW -/

def State.cmdLoadFw (arg : Nat) (s : State) : Cmd :=
  match s.argBlock arg 9 8 with
  | none => s.fail stBad
  | some b =>
    let mask := fieldOf b 8 1
    if 4 ≤ mask then s.fail stBad
    else if s.fwVerify.isSome then s.fail stBusy
    else
      let v : Verify :=
        { arg := arg, addr := fieldOf b 0 8, keyslot := (s.imageAt (fieldOf b 0 8)).keyslot, mask := mask, token := none }
      .fin stOk ({ s with fwVerify := some v }.markRunning arg)

/-- LOAD_FW (R280, R323). -/
def execLoadFw (tag : BitVec 8) (arg : BitVec 48) (s : State) : Host.Outcome State Fault Refusal :=
  .next (s.issueCmd 0x05 tag arg (State.cmdLoadFw arg.toNat))

/-- The code of a bank in the firmware's address space (log 20). -/
def bankBase (core : Nat) (b : Bool) : Nat := 2 ^ 40 * (1 + 2 * (core - 256) + (if b then 1 else 0))

/-- The payload of an image goes into the inactive bank of a core (R280). -/
def State.fillBank (s : State) (core : Nat) (payload : List Byte) : State :=
  let b := s.bankOf core
  let base := bankBase core (!b.activeB)
  let s := s.writeBytes (payload.mapIdx (fun k x => (fwBase + base + k, x)))
  s.setBank core (if b.activeB then { b with imageA := BitVec.ofNat 64 base, validA := true, switching := true }
    else { b with imageB := BitVec.ofNat 64 base, validB := true, switching := true })

/-- An image that fails is marked invalid, and the active bank runs on. -/
def State.spoilBank (s : State) (core : Nat) : State :=
  let b := s.bankOf core
  s.setBank core (if b.activeB then { b with validA := false, switching := false } else { b with validB := false, switching := false })

def maskCores (mask : Nat) : List Nat := (if bit mask 0 then [256] else []) ++ (if bit mask 1 then [257] else [])

/-- The end of the verification of a Heham image with a status (R280, R323). -/
def State.endFwVerify (s : State) (v : Verify) (st : Nat) : State :=
  let i := s.imageAt v.addr
  let payload := s.hostBytes (v.addr + 64) i.length
  let s := { s with fwVerify := none }
  let s := if st = stOk then
      (maskCores v.mask).foldl (fun s c => s.fillBank c payload) { s with flash := s.flash.raiseVersion 1 i.version }
    else (maskCores v.mask).foldl (fun s c => s.spoilBank c) s
  s.reportVerify v st

/-- FW_VERIFY_DONE (R280, R323, R336). `unchanged` says that the host has left every byte as it was while they were read: an image
changed meanwhile fails its check (R321). -/
def execFwVerifyDone (unchanged : Bool) (s : State) : Host.Outcome State Fault Refusal :=
  .next (match s.fwVerify with
  | none => s
  | some v => s.endFwVerify v (s.flash.verify (s.imageAt v.addr) 1 (unchanged && s.imageSigned v.addr)))

/-! ### KEYSLOT_WRITE -/

/-- Does a running verification name a key slot (R337)? -/
def State.slotNamed (s : State) (k : Nat) : Bool :=
  s.fwVerify.any (fun v => v.keyslot == k) || s.unlockVerify.any (fun v => v.keyslot == k)

/-- A key record takes effect, or the write ends with the status of its verification: 68 zero bytes empty the slot (R337). -/
def State.endKeyslot (s : State) (a st : Nat) : Cmd :=
  if st = stOk then
    let i := s.imageAt a
    let x := bytesVal (s.hostBytes (a + 64) 68)
    let f := s.flash.raiseVersion 3 i.version
    .fin stOk { s with flash := { f with keySlots := f.keySlots.mapIdx (fun k old =>
      if k == i.target then (if x = 0 then none else some (BitVec.ofNat 544 x)) else old) } }
  else s.fail st

def State.cmdKeyslot (arg : Nat) (unchanged : Bool) (s : State) : Cmd :=
  match s.argBlock arg 8 0 with
  | none => s.fail stBad
  | some b =>
    let a := fieldOf b 0 8
    let i := s.imageAt a
    if s.flash.imageBad i 3 || 3 < i.target || i.target < i.keyslot || i.length != 68 then s.fail stBad
    else if s.slotNamed i.target then s.fail stBusy
    else s.endKeyslot a (s.flash.verify i 3 (unchanged && s.imageSigned a))

/-- KEYSLOT_WRITE (R337). -/
def execKeyslotWrite (tag : BitVec 8) (arg : BitVec 48) (unchanged : Bool) (s : State) : Host.Outcome State Fault Refusal :=
  .next (s.issueCmd 0x06 tag arg (State.cmdKeyslot arg.toNat unchanged))

/-! ### UNLOCK -/

def State.cmdUnlock (arg : Nat) (s : State) : Cmd :=
  match s.argBlock arg 8 8 with
  | none => s.fail stBad
  | some b =>
    if !s.feature 2 then s.fail stAbsent
    else if s.unlockVerify.isSome then s.fail stBusy
    else
      let a := fieldOf b 0 8
      let v : Verify := { arg := arg, addr := a, keyslot := fieldOf (s.hostBytes a 64) 2 1, mask := 0, token := none }
      .fin stOk ({ s with unlockVerify := some v }.markRunning arg)

/-- UNLOCK (R305, R323). -/
def execUnlock (tag : BitVec 8) (arg : BitVec 48) (s : State) : Host.Outcome State Fault Refusal :=
  .next (s.issueCmd 0x07 tag arg (State.cmdUnlock arg.toNat))

/-- A size that R299 accepts: a power of two from 64 KiB to 1 GiB. -/
def sinkSizeOk (n : Nat) : Bool := (List.range 15).any (fun k => n == 2 ^ (16 + k))

/-- Does a token break R304, or name another device? -/
def State.tokenBad (s : State) (b : List Byte) : Bool :=
  let u := fieldOf b
  let fw := u 1 1 == 1
  u 0 1 != 1 || 1 < u 1 1 || 3 < u 2 1 || 16 ≤ u 3 1 || !pasidOk (u 4 4) || (fw && u 4 4 != 0) || (fw && u 16 8 != 0) ||
    u 24 8 % 64 != 0 || !sinkSizeOk (u 32 8) || u 40 16 != s.flash.deviceId.toNat || u 56 8 != 0

def kernelDomains : Nat := 16

/-- Is the token at a host address signed (R304)? -/
def State.tokenSigned (s : State) (a : Nat) : Bool :=
  let b := s.hostBytes a 64
  s.flash.signed (fieldOf b 2 1) b (s.hostBytes (a + 64) signatureSize)

/-- The status of a token (R305), given whether its signature is good: the first check that fails. -/
def State.tokenStatus (s : State) (b : List Byte) (good : Bool) : Nat :=
  let fw := fieldOf b 1 1 == 1
  let nonce := if fw then s.flash.nonceFirmware.toNat else s.flash.nonceKernel.toNat
  let others := s.dbgDomains.filter (fun d => !d.firmware && !d.closing && d.pasid != fieldOf b 4 4)
  if s.tokenBad b then stBad
  else if (s.flash.keySlot (fieldOf b 2 1)).isNone || !good then stSignature
  else if fieldOf b 8 8 ≤ nonce then stRollback
  else if !fw && kernelDomains ≤ others.length then stNoRoom
  else stOk

/-- An accepted token: its nonce is recorded, and the revocation of an earlier unlock of the domain begins (R305). -/
def State.acceptToken (s : State) (b : List Byte) : State :=
  let fw := fieldOf b 1 1 == 1
  let nonce : W64 := BitVec.ofNat 64 (fieldOf b 8 8)
  let s := if fw then { s with flash := { s.flash with nonceFirmware := nonce } }
    else { s with flash := { s.flash with nonceKernel := nonce } }
  if fw then s.revokeFirmware else s.revokeKernel (fieldOf b 4 4)

/-- The token takes effect. -/
def State.installToken (s : State) (b : List Byte) : State :=
  { s with dbgDomains := s.dbgDomains ++
      [{ firmware := fieldOf b 1 1 == 1, pasid := fieldOf b 4 4, rights := BitVec.ofNat 4 (fieldOf b 3 1)
         handler := BitVec.ofNat 64 (fieldOf b 16 8), sink := BitVec.ofNat 64 (fieldOf b 24 8), sinkSize := fieldOf b 32 8
         prod := 0, lost := 0, closing := false }] }

/-- An accepted token takes effect once the revocation of the earlier unlock has ended (R305). -/
def State.takeToken (s : State) (v : Verify) (b : List Byte) : State :=
  if fieldOf b 1 1 == 0 && (s.closingDomain (fieldOf b 4 4)).isSome then { s with unlockVerify := some { v with token := some b } }
  else ({ s with unlockVerify := none }.installToken b).reportVerify v stOk

/-- The end of the verification of a token with a status (R305, R323). -/
def State.endUnlock (s : State) (v : Verify) (st : Nat) : State :=
  let b := s.hostBytes v.addr 64
  if st = stOk then (s.acceptToken b).takeToken v b else { s with unlockVerify := none }.reportVerify v st

/-- UNLOCK_VERIFY_DONE (R305, R323): `unchanged` as for FW_VERIFY_DONE. -/
def execUnlockVerifyDone (unchanged : Bool) (s : State) : Host.Outcome State Fault Refusal :=
  .next (match s.unlockVerify with
  | none => s
  | some v => match v.token with
    | some b => s.takeToken v b
    | none => s.endUnlock v (s.tokenStatus (s.hostBytes v.addr 64) (unchanged && s.tokenSigned v.addr)))

/-! ### DOMAIN_SET (R324) -/

/-- The table at an untranslated host address, unless a field breaks R324. -/
def State.parseDomain (s : State) (a : Nat) : Option Domain :=
  let h := s.hostBytes a 8
  let ndev := fieldOf h 2 2
  let nh := fieldOf h 4 2
  let devs := (List.range ndev).map (fun k => bytesVal (s.hostBytes (a + 8 + 8 * k) 8))
  let hs := (List.range nh).map (fun k => bytesVal (s.hostBytes (a + 8 + 8 * ndev + 8 * k) 8))
  let ok := fieldOf h 0 2 ≤ 511 && ndev ≤ 511 && nh ≤ 1024 && fieldOf h 6 2 == 0 &&
    devs.all (fun x => bits x 15 9 == 0 && x / 2 ^ 34 == 0) && hs.all (fun x => x / 2 ^ 36 == 0)
  if ok then some
    { self := fieldOf h 0 2, devs := devs.map (fun x => (x % 2 ^ 9, bits x 33 16))
      handles := hs.map (fun x => (x % 2 ^ 16, bits x 35 16)) }
  else none

def State.cmdDomainSet (arg : Nat) (s : State) : Cmd :=
  match s.argBlock arg 8 0 with
  | none => s.fail stBad
  | some b =>
    if !s.feature 7 then s.fail stAbsent
    else match s.parseDomain (fieldOf b 0 8) with
    | none => s.fail stBad
    | some d => .fin stOk { s with domainPending := some d }

/-- DOMAIN_SET (R324). -/
def execDomainSet (tag : BitVec 8) (arg : BitVec 48) (s : State) : Host.Outcome State Fault Refusal :=
  .next (s.issueCmd 0x08 tag arg (State.cmdDomainSet arg.toNat))

/-! ### Streams (R329, R330) -/

/-- The stream entry of R330, unless a field breaks it. -/
def parseStream (b : List Byte) : Option Stream :=
  let u := fieldOf b
  let va (x : Nat) : W64 := BitVec.ofNat 64 x
  let off := u 8 8 == 0
  let ok := u 0 1 ≤ 254 && u 3 1 == 0 && u 32 32 == 0 && (off || (4 ≤ u 1 1 && u 1 1 ≤ 16 && u 2 1 ≤ 1 && pasidOk (u 4 4) &&
    u 8 8 % 4096 == 0 && u 8 8 / 2 ^ 57 ≤ 2 && !bit (u 8 8) 56 && signalAddr (va (u 16 8)) && signalAddr (va (u 24 8))))
  if ok then some { num := u 0 1, log2 := u 1 1, big := u 2 1 == 1, pasid := u 4 4, ring := va (u 8 8), signal := va (u 16 8)
                    consumed := va (u 24 8), n := 0, dropped := 0 }
  else none

def State.cmdStreamSet (arg : Nat) (s : State) : Cmd :=
  if arg % 64 != 0 then s.fail stBad
  else if !s.feature 8 then s.fail stAbsent
  else match parseStream (s.hostBytes arg 64) with
  | none => s.fail stBad
  | some x =>
    let others := s.streams.filter (fun y => y.num != x.num)
    .fin stOk (State.lockFeatures { s with streams := if x.ring = 0 then others else others ++ [x] })

/-- STREAM_SET (R330). -/
def execStreamSet (tag : BitVec 8) (arg : BitVec 48) (s : State) : Host.Outcome State Fault Refusal :=
  .next (s.issueCmd 0x09 tag arg (State.cmdStreamSet arg.toNat))

def State.cmdStreamMap (arg : Nat) (s : State) : Cmd :=
  match s.argBlock arg 10 0 with
  | none => s.fail stBad
  | some b =>
    if fieldOf b 8 1 = 255 || fieldOf b 9 1 = 255 then s.fail stBad
    else
      let m := s.hostBytes (fieldOf b 0 8) 4096
      .fin stOk { s with
        mapTable := (m.mapIdx (fun k x => (k, x))).filter (fun e => e.2 != 0xFF)
        eth0 := { s.eth0 with defStream := fieldOf b 8 1 }
        eth1 := { s.eth1 with defStream := fieldOf b 9 1 } }

/-- STREAM_MAP (R329). -/
def execStreamMap (tag : BitVec 8) (arg : BitVec 48) (s : State) : Host.Outcome State Fault Refusal :=
  .next (s.issueCmd 0x0A tag arg (State.cmdStreamMap arg.toNat))

/-! ### START_CLEAR (R334) -/

/-- The fields of the start record. -/
structure StartRec where
  (gen step outcome : Nat)
  (fails : W64)
  (alt skip : W32)
deriving DecidableEq, Repr, Inhabited

/-- CRC-64/ECMA of bytes: polynomial 0x42F0E1EBA9EA3693, high bit first, from 0 (log 30). -/
def crc64 (l : List Byte) : Nat :=
  l.foldl (fun c x => (List.range 8).foldl (fun c _ =>
    if bit c 63 then 2 * c % 2 ^ 64 ^^^ 0x42F0E1EBA9EA3693 else 2 * c) (c ^^^ x.toNat * 2 ^ 56)) 0

/-- The 64 bytes of a copy, its reserved ones zero. -/
def StartRec.copy (r : StartRec) : BitVec 512 :=
  let b := leBytes 4 r.gen ++ leBytes 1 r.step ++ leBytes 1 r.outcome ++ leBytes 2 0 ++ leBytes 8 r.fails.toNat ++ leBytes 4 r.alt.toNat ++
    leBytes 4 r.skip.toNat ++ leBytes 32 0
  BitVec.ofNat 512 (bytesVal (b ++ leBytes 8 (crc64 b)))

/-- The record in a copy whose check holds. -/
def parseStart (x : BitVec 512) : Option StartRec :=
  let b := leBytes 64 x.toNat
  if fieldOf b 56 8 = crc64 (b.take 56) then some
    { gen := fieldOf b 0 4, step := fieldOf b 4 1, outcome := fieldOf b 5 1, fails := BitVec.ofNat 64 (fieldOf b 8 8)
      alt := BitVec.ofNat 32 (fieldOf b 16 4), skip := BitVec.ofNat 32 (fieldOf b 20 4) }
  else none

/-- The start record in use: the valid copy with the higher GEN; with no valid copy, one of zeros (log 30). -/
def Flash.record (f : Flash) : StartRec :=
  match parseStart f.rec0, parseStart f.rec1 with
  | some a, some b => if a.gen < b.gen then b else a
  | some a, none => a
  | none, some b => b
  | none, none => default

/-- Is copy 0 the older one, which the next write replaces? -/
def Flash.olderIs0 (f : Flash) : Bool :=
  match parseStart f.rec0, parseStart f.rec1 with
  | some a, some b => decide (a.gen < b.gen)
  | some _, none => false
  | none, _ => true

/-- A write of the start record. -/
def Flash.writeRecord (f : Flash) (r : StartRec) : Flash :=
  let x := { r with gen := f.record.gen + 1 }.copy
  if f.olderIs0 then { f with rec0 := x } else { f with rec1 := x }

def State.cmdStartClear (s : State) : Cmd :=
  .fin stOk { s with flash := s.flash.writeRecord { s.flash.record with fails := 0, alt := 0, skip := 0 } }

/-- START_CLEAR (R334). -/
def execStartClear (tag : BitVec 8) (arg : BitVec 48) (s : State) : Host.Outcome State Fault Refusal :=
  .next (s.issueCmd 0x0B tag arg State.cmdStartClear)

/-! ### Other writes to HCMD, and the end of a command -/

/-- HCMD_UNKNOWN_OP (R322). -/
def execHcmdUnknownOp (op tag : BitVec 8) (arg : BitVec 48) (s : State) : Host.Outcome State Fault Refusal :=
  .next (if 1 ≤ op.toNat && op.toNat ≤ 0x0B then s else s.issueCmd op.toNat tag arg (fun s => s.fail stBad))

/-- HCMD_IGNORED (R321): DONE was 0. -/
def execHcmdIgnored (_w : BitVec 64) (s : State) : Host.Outcome State Fault Refusal :=
  .next (if s.host.done then s else { s with host := { s.host with lost := true } })

def State.cmdOp (s : State) : Nat := s.host.hcmd.toNat / 2 ^ 56
def State.cmdArg (s : State) : Nat := s.host.hcmd.toNat % 2 ^ 48
def State.cmdTag (s : State) : Byte := BitVec.ofNat 8 (s.host.hcmd.toNat / 2 ^ 48)

/-- DONE with a status, and vector 0 (R321). -/
def State.finishCmd (s : State) (status tag : Byte) : State :=
  State.raiseMsi { s.dropWaiter cmdWork with host := { s.host with done := true, status := status, tag := tag, pending := none } } 0

/-- The PASID of the running command's argument block. -/
def State.cmdPasid (s : State) : Nat := fieldOf (s.hostBytes s.cmdArg 64) 0 4

/-- Is a pre-emption that the running PREEMPT asked for still under way? -/
def State.preemptRuns (s : State) : Bool :=
  s.blocks.any (fun b => b.stage == .resident && b.preempt && (match s.grid? b.grid with
    | some g => g.pasid == s.cmdPasid
    | none => false))

/-- COMMAND_DONE (R321): a command that waited for a page acts now; DESTROY_CTX discards what has halted; PREEMPT waits for
the save; else the command finishes. -/
def execCommandDone (s : State) : Host.Outcome State Fault Refusal :=
  .next (if s.host.done then s
  else match s.host.pending with
  | none => (if s.cmdOp = 1 then State.cmdRegisterQueue s.cmdArg s else .fin stBad s).settle s.cmdTag
  | some p =>
    if p.1 = 0 && s.cmdOp = 4 && s.preemptRuns then s
    else if p.1 = 0 && s.cmdOp = 3 then
      if !s.launchesHalted s.cmdPasid then s
      else match s.destroy s.cmdPasid with
      | .ok s => s.finishCmd p.1 p.2
      | .miss q => s.ask q
      | .bad _ => s
    else s.finishCmd p.1 p.2)

/-! ## Debug registers -/

/-- DBGATTN_WRITE (R316). -/
def execDbgAttnWrite (w : BitVec 64) (s : State) : Host.Outcome State Fault Refusal :=
  .next (let pasid := w.toNat % 2 ^ 20
  if (s.kernelDomain pasid).isNone then s
  else s.addEvent (64 * bits w.toNat 23 22 + 40 + bits w.toNat 21 20)
    { kind := 5, unit := 0, gslot := 0, gang := pasid, pc := 0, addr := 0, halt := 0, val := 0, clock := 0 })

/-- DBGREVOKE_WRITE (R306, R316). -/
def execDbgRevokeWrite (w : BitVec 64) (s : State) : Host.Outcome State Fault Refusal :=
  .next (if w.getLsbD 20 then s.revokeFirmware else s.revokeKernel (w.toNat % 2 ^ 20))

/-- Writable bits of `PTCTLn`, and the W1C field STATUS (R288). -/
def ptctlRw : W64 := 0x1FFFFFFF3007

/-- One register of a trigger written: `PTADDR`, `PTVAL`, `PTCTL`, `PTGANG`. -/
def Trigger.write (t : Trigger) (reg : Nat) (w : W64) : Trigger :=
  match reg with
  | 0 => { t with addr := w }
  | 1 => { t with val := BitVec.ofNat 32 w.toNat }
  | 2 => { t with ctl := (w &&& ptctlRw) ||| (t.ctl &&& 0xC000 &&& ~~~ w) }
  | _ => { t with gangs := BitVec.ofNat 32 w.toNat }

/-- TRIGGER_REGISTER_WRITE (R288, R316, R319). -/
def execTriggerRegisterWrite (core trig reg : Nat) (w : BitVec 64) (s : State) : Host.Outcome State Fault Refusal :=
  .next (match s.core? core with
  | none => s
  | some c =>
    if !isPressCore core || 2 ≤ trig || 4 ≤ reg || !s.feature 2 || !(s.kernelRights c.trigPasid.toNat).getLsbD 0 then s
    else s.setCore (if trig = 0 then { c with trig0 := c.trig0.write reg w } else { c with trig1 := c.trig1.write reg w }))

/-! ## Plain registers (R5) -/

/-- The lane-cycle registers of a core's debug window, by window offset (R301, R316). -/
def LaneCycle.write (l : LaneCycle) (off : Nat) (w : W64) : LaneCycle :=
  if off = 0x100 then { l with ctl := w &&& 0x1FFFFF }
  else if 0x108 ≤ off && off < 0x208 then
    let k := (off - 0x108) / 16
    if (off - 0x108) % 16 = 0 then { l with base := Store.putD 0 l.base k w } else { l with lim := Store.putD 0 l.lim k w }
  else if 0x300 ≤ off && off < 0x300 + 8 * 80 then
    let k := (off - 0x300) / 8
    { l with cnt := Store.putD 0 l.cnt k (Store.getD l.cnt k 0 &&& ~~~ w) }
  else l

/-- A register of a core's debug window. -/
def Core.writeWindow (c : Core) (off : Nat) (w : W64) : Core :=
  if off % 8 != 0 then c
  else if off = 0 then { c with trigPasid := BitVec.ofNat 20 w.toNat }
  else { c with lc := c.lc.write off w }

/-- A clock register of a port that a write stores (R328). -/
def EthPort.writeClock (e : EthPort) (off : Nat) (w : W64) : EthPort :=
  if off = 0x18 then { e with rate := BitVec.ofNat 32 w.toNat }
  else if off = 0x20 then { e with delay := BitVec.ofNat 32 w.toNat }
  else e

/-- One half of an entry of the MSI-X table is written; an entry that is pending and masked no more sends its message (R315; log 61). -/
def HostLink.writeMsix (h : HostLink) (off : Nat) (w : W64) : HostLink :=
  if off % 8 != 0 || 0x8000 ≤ off then h
  else
    let v := off / 16
    let old := h.msixEntry v
    let e : BitVec 128 := if off % 16 = 0 then (old &&& ~~~ (0xFFFFFFFFFFFFFFFF : BitVec 128)) ||| w.setWidth 128
      else (old &&& (0xFFFFFFFFFFFFFFFF : BitVec 128)) ||| (w &&& 0x1FFFFFFFF).setWidth 128 <<< 64
    let h := { h with msixTable := Store.putD msixReset h.msixTable v e }
    if h.msixPending.getLsbD v && !h.masked v then
      { h with msixPending := h.msixPending &&& ~~~ ((1 : BitVec 2048) <<< v), msix := h.msix ++ [v] }
    else h

/-- Waiting page requests are sent: n of them (R318). -/
def sendPris (stopped : Nat → Bool) : Nat → List Pri → List Pri
  | 0, l => l
  | n + 1, l => sendPris stopped n (sendNextPri stopped l)

/-- The host writes the allocation of the PRI capability (R318); a larger one lets waiting requests go. -/
def State.writePriAlloc (s : State) (n : Nat) : State :=
  { s with
    host := { s.host with priAlloc := n }
    pri := sendPris s.tornDown (n - (s.pri.filter (fun p => p.sent)).length) s.pri }

/-- Where `registerWrite` and `readRegister` have BAR4 and the PRI allocation: behind BAR0, in a numbering of the model's own
(log 61). -/
def bar4At : Nat := 2 ^ 21
def priAllocAt : Nat := 2 ^ 22

/-- Access codes of the registers that hold only their value (R5): RW stores, W1C clears, RO and unlisted offsets ignore.
Registers with an effect of their own have transitions of their own. -/
def State.writeRegister (s : State) (off : Nat) (w : W64) : State :=
  if off = 0x108 then { s with host := { s.host with lost := s.host.lost && !w.getLsbD 9 } }
  else if off = 0x300 then
    let cap := w.toNat % 2 ^ 12
    if 800 ≤ cap && cap ≤ 3200 then { s with host := { s.host with pwrCap := cap } } else s
  else if 0x400 ≤ off && off < 0x480 then { s with eth0 := s.eth0.writeClock (off - 0x400) w }
  else if 0x480 ≤ off && off < 0x500 then { s with eth1 := s.eth1.writeClock (off - 0x480) w }
  else if off = priAllocAt then s.writePriAlloc (w.toNat % 2 ^ 32)
  else if bar4At ≤ off then { s with host := s.host.writeMsix (off - bar4At) w }
  else if 0x80000 ≤ off then
    let k := (off - 0x80000) / 0x800
    if dieOf k < 4 then s.updCore k (fun c => c.writeWindow ((off - 0x80000) % 0x800) w) else s
  else s

/-! ## What a register reads (R5, R316) -/

/-- One register of a trigger (R288). -/
def Trigger.read (t : Trigger) (reg : Nat) : W64 :=
  match reg with
  | 0 => t.addr
  | 1 => t.val.setWidth 64
  | 2 => t.ctl
  | _ => t.gangs.setWidth 64

/-- A lane-cycle register by its window offset (R301). -/
def LaneCycle.read (l : LaneCycle) (off : Nat) : W64 :=
  if off = 0x100 then l.ctl
  else if 0x108 ≤ off && off < 0x208 then
    Store.getD (if (off - 0x108) % 16 = 0 then l.base else l.lim) ((off - 0x108) / 16) 0
  else if 0x300 ≤ off && off < 0x300 + 8 * 80 then Store.getD l.cnt ((off - 0x300) / 8) 0
  else 0

/-- A register of a core's debug window (R316). -/
def Core.readWindow (c : Core) (off : Nat) : W64 :=
  if off = 0 then c.trigPasid.setWidth 64
  else if 0x08 ≤ off && off < 0x28 then c.trig0.read ((off - 0x08) / 8)
  else if 0x28 ≤ off && off < 0x48 then c.trig1.read ((off - 0x28) / 8)
  else c.lc.read off

/-- A clock register of a port (R328); a read of `PTPSEC` is a transition of its own beside, which latches `PTPNS`. -/
def EthPort.readClock (e : EthPort) (off : Nat) : W64 :=
  match off with
  | 0x00 => e.sec.setWidth 64
  | 0x08 => e.latched.setWidth 64
  | 0x10 => e.adj
  | 0x18 => e.rate.setWidth 64
  | 0x20 => e.delay.setWidth 64
  | _ => 0

/-- `HSTAT` (R321). -/
def HostLink.hstat (h : HostLink) : W64 :=
  BitVec.ofNat 64 (h.tag.toNat * 2 ^ 56 + (if h.lost then 2 ^ 9 else 0) + (if h.done then 2 ^ 8 else 0) + h.status.toNat)

/-- The 64 bits that the host reads at an offset: of BAR0, where one that R316 does not list reads as zero, and behind it of BAR4's
table and pending bits and of the PRI allocation. `DBGATTN` and `DBGREVOKE` have no access code, so what they read is free (log 61). -/
def State.readRegister (s : State) (off : Nat) : W64 :=
  let h := s.host
  if off % 8 != 0 then 0
  else match off with
  | 0x000 => h.featOff.extractLsb' 0 64
  | 0x008 => h.featOff.extractLsb' 64 64
  | 0x010 => h.featAcc.extractLsb' 0 64
  | 0x018 => h.featAcc.extractLsb' 64 64
  | 0x100 => h.hcmd
  | 0x108 => h.hstat
  | 0x200 => h.startStat
  | 0x208 => h.startSkip.setWidth 64
  | 0x300 => BitVec.ofNat 64 h.pwrCap
  | 0x308 => BitVec.ofNat 64 h.pwrNow
  | 0x310 => h.pwrStat.setWidth 64
  | 0x318 => h.tLayerMax.setWidth 64
  | 0x1000 => s.freeWord 8
  | 0x1008 => s.freeWord 9
  | _ =>
    if 0x400 ≤ off && off < 0x480 then s.eth0.readClock (off - 0x400)
    else if 0x480 ≤ off && off < 0x500 then s.eth1.readClock (off - 0x480)
    else if off = priAllocAt then BitVec.ofNat 64 h.priAlloc
    else if bar4At ≤ off && off < bar4At + 0x8000 then
      (h.msixEntry ((off - bar4At) / 16)).extractLsb' (64 * ((off - bar4At) % 16 / 8)) 64
    else if bar4At + 0x8000 ≤ off && off < bar4At + 0x8100 then h.msixPending.extractLsb' (8 * (off - bar4At - 0x8000)) 64
    else if 0x80000 ≤ off && off < 2 ^ 20 && dieOf ((off - 0x80000) / 0x800) < 4 then
      ((s.core? ((off - 0x80000) / 0x800)).map (fun c => c.readWindow ((off - 0x80000) % 0x800))).getD 0
    else 0

/-- REGISTER_WRITE (R5, R316). -/
def execRegisterWrite (off : Nat) (w : BitVec 64) (s : State) : Host.Outcome State Fault Refusal := .next (s.writeRegister off w)

end Sys2Proof.Machine
end

