-- ==== Sys2Proof/Machine/EvIngress.lean ====
section
/-!
DEFINITION. Ingress and fabric transitions: frames received, classified and published (R327 to R331), the 1588 clocks (R328),
ports and links that fail (R326), and the installation of a domain table (R324).
-/
namespace Sys2Proof.Machine

/-! ## The 1588 clocks (R328) -/

def nsPerSec : Nat := 1000000000

def EthPort.total (e : EthPort) : Nat := e.sec.toNat * nsPerSec + e.ns

/-- A count of nanoseconds as seconds, modulo 2^48, and the rest. -/
def splitNs (x : Int) : Nat × Nat :=
  let y := (x % ((2 ^ 48 * nsPerSec : Nat) : Int)).toNat
  (y / nsPerSec, y % nsPerSec)

/-- A signed count of nanoseconds is added to a clock. -/
def EthPort.shift (e : EthPort) (d : Int) : EthPort :=
  let t := splitNs ((e.total : Int) + d)
  { e with sec := BitVec.ofNat 48 t.1, ns := t.2 }

def State.eth (s : State) (port : Nat) : EthPort := if port = 0 then s.eth0 else s.eth1

def State.setEth (s : State) (port : Nat) (e : EthPort) : State := if port = 0 then { s with eth0 := e } else { s with eth1 := e }

/-- PTPSEC_READ (R328): the read latches NS. -/
def execPtpsecRead (port : Nat) (s : State) : Host.Outcome State Fault Refusal :=
  .next (if 2 ≤ port then s
  else s.setEth port { s.eth port with latched := BitVec.ofNat 32 (s.eth port).ns })

/-- PTPADJ_WRITE (R328). -/
def execPtpadjWrite (port : Nat) (w : BitVec 64) (s : State) : Host.Outcome State Fault Refusal :=
  .next (if 2 ≤ port then s else s.setEth port (EthPort.shift { s.eth port with adj := w } w.toInt))

/-! ## Classification (R329) -/

def frameByte (l : List Byte) (k : Nat) : Nat := ((l[k]?).map (fun (b : Byte) => b.toNat)).getD 0

/-- A field in network byte order. -/
def frameBe (l : List Byte) (k n : Nat) : Nat := (List.range n).foldl (fun a i => a * 256 + frameByte l (k + i)) 0

def frameSlice (l : List Byte) (k n : Nat) : List Byte := (List.range n).map (fun i => BitVec.ofNat 8 (frameByte l (k + i)))

/-- Ethertype and the offset of the payload, past at most one 802.1Q tag. -/
def frameType (l : List Byte) : Nat × Nat := if frameBe l 12 2 = 0x8100 then (frameBe l 16 2, 18) else (frameBe l 12 2, 14)

/-- TCP or UDP. -/
def isL4 (proto : Nat) : Bool := proto == 6 || proto == 17

/-- The tuple of 37 bytes: source and destination address, protocol, source and destination port, in network order. -/
def frameTuple (l : List Byte) : Option (List Byte) :=
  let t := frameType l
  let o := t.2
  if t.1 = 0x0800 then
    let h := 4 * (frameByte l o % 16)
    let mapped : List Byte := List.replicate 10 0 ++ [0xFF, 0xFF]
    if frameByte l o / 16 = 4 && 20 ≤ h && isL4 (frameByte l (o + 9)) && frameBe l (o + 6) 2 % 2 ^ 14 == 0 &&
        o + h + 4 ≤ l.length then
      some (mapped ++ frameSlice l (o + 12) 4 ++ mapped ++ frameSlice l (o + 16) 4 ++ frameSlice l (o + 9) 1 ++
        frameSlice l (o + h) 4)
    else none
  else if t.1 = 0x86DD then
    if frameByte l o / 16 = 6 && isL4 (frameByte l (o + 6)) && o + 44 ≤ l.length then
      some (frameSlice l (o + 8) 32 ++ frameSlice l (o + 6) 1 ++ frameSlice l (o + 40) 4)
    else none
  else none

/-- One bit of a reflected CRC-32C. -/
def crcBit (c : W32) : W32 := if c.getLsbD 0 then (c >>> 1) ^^^ 0x82F63B78 else c >>> 1

def crcByte (c : W32) (b : Byte) : W32 :=
  (List.range 8).foldl (fun c _ => crcBit c) (c ^^^ BitVec.ofNat 32 b.toNat)

/-- CRC-32C: initial value and final complement of all ones. -/
def crc32c (l : List Byte) : W32 := ~~~ (l.foldl crcByte 0xFFFFFFFF)

/-- Stream of a frame, whether the tuple chose it, and HASH. -/
def State.classify (s : State) (e : EthPort) (l : List Byte) : Nat × Bool × Option W32 :=
  match frameTuple l with
  | none => (e.defStream, false, none)
  | some t =>
    let h := crc32c t
    let m := (Store.getD s.mapTable (h.toNat % 4096) (0xFF : Byte)).toNat
    if m = 255 then (e.defStream, false, some h) else (m, true, some h)

/-! ## FRAME_ARRIVAL (R327, R328) -/

def portBuffer : Nat := 2 ^ 23

/-- A frame that passes the port's checks, stamped and classified. -/
def State.bufferFrame (s : State) (e : EthPort) (bytes : List Byte) : EthPort :=
  if portBuffer < e.bufferBytes + bytes.length then { e with full := e.full + 1 }
  else
    let t := splitNs ((e.total : Int) - (e.delay.toNat : Int))
    let c := s.classify e bytes
    { e with
      bufferBytes := e.bufferBytes + bytes.length
      pending := e.pending ++ [{ stream := c.1, byTuple := c.2.1, bytes := bytes, sec := t.1, ns := t.2, frac := e.frac, hash := c.2.2 }] }

/-- FRAME_ARRIVAL (R327): the bytes are those from the destination address to the last of the payload; the FCS adds four. -/
def execFrameArrival (port : Nat) (bytes : List (BitVec 8)) (fcsOk : Bool) (s : State) : Host.Outcome State Fault Refusal :=
  .next (let e := s.eth port
  if 2 ≤ port || !e.up || !s.ready || !s.feature 8 then s
  else if !fcsOk then s.setEth port { e with badFcs := e.badFcs + 1 }
  else if bytes.length + 4 < 64 then s.setEth port { e with runt := e.runt + 1 }
  else if 9216 < bytes.length + 4 then s.setEth port { e with long := e.long + 1 }
  else s.setEth port (s.bufferFrame e bytes))

/-! ## FRAME_PUBLISH (R330, R331) -/

/-- The oldest buffered frame of each stream. -/
def EthPort.heads (e : EthPort) : List Frame :=
  e.pending.foldl (fun (acc : List Frame) f => if acc.any (fun g => g.stream == f.stream) then acc else acc ++ [f]) []

/-- The oldest frame of a stream leaves the buffer. -/
def EthPort.takeFrame (e : EthPort) (f : Frame) : EthPort :=
  { e with pending := e.pending.eraseP (fun g => g.stream == f.stream), bufferBytes := e.bufferBytes - f.bytes.length }

def slotBytes (x : Stream) : Nat := if x.big then 16384 else 2048

/-- The 64-byte record of frame n (R330); HASH of a frame without a tuple is free. -/
def State.frameRecord (s : State) (x : Stream) (port : Nat) (f : Frame) : List Byte :=
  leBytes 8 f.sec ++ leBytes 4 f.ns ++ leBytes 2 f.frac.toNat ++ leBytes 1 port ++ leBytes 1 (if f.byTuple then 1 else 0) ++
    leBytes 4 f.bytes.length ++ leBytes 4 x.dropped ++ leBytes 8 x.n ++
    leBytes 4 ((f.hash.map (fun h => h.toNat)).getD (s.freeWord 40).toNat) ++ leBytes 28 0

/-- A full ring, or a frame too long for its slot. -/
def Stream.noRoom (x : Stream) (consumed : Nat) (f : Frame) : Bool :=
  consumed + 2 ^ x.log2 ≤ x.n || slotBytes x < 64 + f.bytes.length

/-- The record, the frame and the signal of one frame, or its drop. -/
def State.publish (s : State) (x : Stream) (port : Nat) (f : Frame) : Eng State :=
  let io := ioParty (ioWork 6 x.num) x.pasid
  (s.engineRead io none x.consumed 8).bind fun c =>
    if x.noRoom (bytesVal c) f then .ok (s.setStream { x with dropped := x.dropped + 1 })
    else
      let slot := x.ring + BitVec.ofNat 64 (x.n % 2 ^ x.log2 * slotBytes x)
      (s.engineDest io slot (64 + f.bytes.length)).bind fun dst =>
        (s.engineAt io true x.signal 8 8).bind fun sg =>
          let s := s.ioWrite dst (s.frameRecord x port f ++ f.bytes)
          let s := (s.signalOp sg 0 1).2
          .ok (s.setStream { x with n := x.n + 1, dropped := 0 })

/-- One buffered frame of a port: published or dropped; a missing page is asked for; a refused one disables the stream. -/
def State.publishFrame (s : State) (port : Nat) (f : Frame) : State :=
  let e := (s.eth port).takeFrame f
  match s.stream? f.stream with
  | none => s.setEth port e
  | some x => match s.publish x port f with
    | .ok s => (s.dropWaiter (ioWork 6 x.num)).setEth port e
    | .miss q => s.ask q
    | .bad _ =>
      let s := s.dropWaiter (ioWork 6 x.num)
      let s : State := { s with streams := s.streams.filter (fun (y : Stream) => y.num != x.num) }
      (s.raiseMsi 2).setEth port e

/-- FRAME_PUBLISH (R331): among the streams that have a frame, any one's oldest. -/
def execFramePublish (port : Nat) (s : State) : Host.Outcome State Fault Refusal :=
  .next (let hs := (s.eth port).heads
  if 2 ≤ port then s
  else match hs[Config.freeNat s.now (2 ^ 25) % max 1 hs.length]? with
    | none => s
    | some f => s.publishFrame port f)

/-! ## The fabric -/

/-- Devices of a table that no port reaches (R326). -/
def Domain.cutOff (d : Domain) (up : BitVec 18) : List Nat :=
  (d.devs.filter (fun e => (BitVec.ofNat 18 e.2 &&& up) == 0)).map (fun e => e.1)

/-- PORT_DOWN (R326). -/
def execPortDown (port : Nat) (s : State) : Host.Outcome State Fault Refusal :=
  .next (if !s.portsUp.getLsbD port then s
  else
    let up := s.portsUp &&& ~~~ ((1 : BitVec 18) <<< port)
    let cut := ((s.domain.map (fun d => d.cutOff up)).getD []).filter (fun d => !s.unreachable.contains d)
    State.raiseMsi { s with portsUp := up, unreachable := s.unreachable ++ cut } 1)

/-- LINK_RETRY_TIMEOUT (R326). -/
def execLinkRetryTimeout (dev : Nat) (s : State) : Host.Outcome State Fault Refusal :=
  .next (if s.unreachable.contains dev || !(s.domain.any (fun d => d.devs.any (fun e => e.1 == dev))) then s
  else State.raiseMsi { s with unreachable := s.unreachable ++ [dev] } 1)

/-- DOMAIN_TABLE_INSTALL (R324). -/
def execDomainTableInstall (s : State) : Host.Outcome State Fault Refusal :=
  .next (match s.domainPending with
  | none => s
  | some d =>
    if s.lanes.any (fun l => l.src == s.selfDev && !l.items.isEmpty) then s
    else { s with domain := some d, domainPending := none, unreachable := d.cutOff s.portsUp })

end Sys2Proof.Machine
end

