-- ==== Sys2Proof/Machine/EvStart.lean ====
section
/-!
DEFINITION. The start (R332 to R335), the Function Level Reset (R318), soft errors (R338), power and temperature (R339), and the
loss of supply (R334).
-/
namespace Sys2Proof.Machine

/-! ## Power-on start -/

/-- What is left when the device is dark: the flash, the code banks (log 20), and the memory of the host and of other devices. -/
def State.dark (s : State) : State :=
  { State.reset with
    now := s.now
    agenda := s.agenda
    flash := s.flash
    bank0 := { s.bank0 with switching := false, stopped := false }
    bank1 := { s.bank1 with switching := false, stopped := false }
    mem := s.mem.filter (fun e => (hostBase ≤ e.1 && e.1 < fwBase) || (fwBase + 2 ^ 40 ≤ e.1 && e.1 < savedBase)) }

/-- What a step does after two failures (R333). -/
inductive AfterTwo
  | stop | alternative | skip
deriving DecidableEq, Repr, Inhabited

def afterTwo (step : Nat) : AfterTwo :=
  if [5, 6, 11, 12, 13, 14, 20, 21, 24].contains step then .alternative
  else if [16, 18, 19, 22, 26, 27, 28].contains step then .skip
  else .stop

/-- The count of a step in FAILS. -/
def StartRec.count (r : StartRec) (step : Nat) : Nat := bits r.fails.toNat (2 * step - 1) (2 * step - 2)

def StartRec.setCount (r : StartRec) (step n : Nat) : StartRec :=
  { r with fails := (r.fails &&& ~~~ ((3 : W64) <<< (2 * step - 2))) ||| (BitVec.ofNat 64 (n % 4) <<< (2 * step - 2)) }

def stepBit (step : Nat) : W32 := (1 : W32) <<< (step - 1)

/-- How an attempt ends: READY, stopped at a step, or a step s ≥ 4 failed. -/
inductive Attempt
  | ready (r : StartRec)
  | stopped (step : Nat) (r : StartRec)
  | failed (step : Nat) (r : StartRec)
deriving DecidableEq, Repr, Inhabited

/-- One step with the step that fails in this attempt, if any (R334); step 5 also fails where the copy of the configuration image that it
reads does not verify (R333). -/
def startStep (fail : Option Nat) (verifies : Bool → Bool) (r : StartRec) (step : Nat) : Attempt :=
  let go (r : StartRec) : Attempt :=
    if fail == some step || (step == 5 && !verifies (r.alt.getLsbD 4)) then (if step < 4 then .stopped step r else .failed step r)
    else .ready { r.setCount step 0 with step := step }
  match r.count step with
  | 0 | 1 => go r
  | 2 => match afterTwo step with
    | .skip => .ready { r with skip := r.skip ||| stepBit step, step := step }
    | .alternative => go { r with alt := r.alt ||| stepBit step }
    | .stop => .stopped step r
  | _ => .stopped step r

/-- The 32 steps in order. -/
def attempt (fail : Option Nat) (verifies : Bool → Bool) (r : StartRec) : Attempt :=
  ((List.range 32).map (· + 1)).foldl (fun (a : Attempt) k => match a with
    | .ready r => startStep fail verifies r k
    | x => x) (.ready { r with step := 0, outcome := 0 })

/-- Does an attempt get past step 5, the verification of the configuration image? -/
def Attempt.verified : Attempt → Bool
  | .ready _ => true
  | .stopped step _ | .failed step _ => 5 < step

def Attempt.record : Attempt → StartRec
  | .ready r | .stopped _ r | .failed _ r => r

/-- A copy of the configuration image: the first, or the second (R333). -/
def Flash.cfgBytes (f : Flash) (second : Bool) : List Byte :=
  let c := if second then f.cfg1 else f.cfg0
  leBytes c.size c.bits

/-- Is a copy of the configuration image signed (R332, R336)? -/
def Flash.cfgSigned (f : Flash) (second : Bool) : Bool :=
  let b := f.cfgBytes second
  let i := imageOf b
  f.signed i.keyslot (b.take (64 + i.length)) ((b.drop (64 + i.length)).take signatureSize)

/-- A configuration image that has verified raises the minimum version of its KIND (R336). -/
def Flash.configured (f : Flash) (a : Attempt) : Flash :=
  if a.verified then f.raiseVersion 2 (imageOf (f.cfgBytes (a.record.alt.getLsbD 4))).version else f

/-- One attempt of a start, given which copies of the configuration image are signed: a failure is written (R334). -/
def startOnce (good : Bool → Bool) (fail : Option Nat) (f : Flash) : Flash × Attempt :=
  let a := attempt fail (fun second => f.verify (imageOf (f.cfgBytes second)) 2 (good second) == stOk) f.record
  let f := f.configured a
  match a with
  | .failed step r => (f.writeRecord { r.setCount step (r.count step + 1) with step := step - 1, outcome := 2 }, a)
  | _ => (f, a)

/-- Attempts until one does not fail, at most n + 1. -/
def startAgain (good : Bool → Bool) : Nat → Flash → Flash × Attempt
  | 0, f => startOnce good none f
  | n + 1, f => match startOnce good none f with
    | (f, .failed _ _) => startAgain good n f
    | x => x

/-- Attempts one after another (R334), with the step that fails in each; where the list ends, a configuration image that does not verify
can fail the start up to three times more before step 5 stops it. -/
def runStart (good : Bool → Bool) : List Nat → Flash → Flash × Attempt
  | [], f => startAgain good 4 f
  | k :: rest, f => match startOnce good (some k) f with
    | (f, .failed _ _) => runStart good rest f
    | x => x

/-- `FEATOFF` after the skips of a start (R333). -/
def offered (skip : W32) : BitVec 128 :=
  let off (k : Nat) (b : Bool) : BitVec 128 := if b then (1 : BitVec 128) <<< k else 0
  0xFFF &&& ~~~ (off 2 (skip.getLsbD 18) ||| off 7 (skip.getLsbD 25) ||| off 8 (skip.getLsbD 26 && skip.getLsbD 27))

/-- `STARTSTAT` of a state, step and ALT (R335). -/
def startStat (alt : W32) (step state : Nat) : W64 := BitVec.ofNat 64 (alt.toNat * 2 ^ 32 + step * 2 ^ 8 + state)

/-- The machine as a start that reached READY leaves it: steps 21, 26 to 29, 31 and 32. -/
def State.started (s : State) (r : StartRec) : State :=
  let b : Bool := r.alt.getLsbD 20
  let s : State := { s with
    bank0 := { s.bank0 with activeB := b }
    bank1 := { s.bank1 with activeB := b }
    portsUp := if r.skip.getLsbD 25 then 0 else 0x3FFFF
    eth0 := { EthPort.reset with up := !r.skip.getLsbD 26 }
    eth1 := { EthPort.reset with up := !r.skip.getLsbD 27 }
    host := { s.host with featOff := offered r.skip, startStat := startStat r.alt 32 1, startSkip := r.skip } }
  (s.startBank 256).startBank 257

/-- A start that stopped; from step 4 on the record says so. -/
def State.stoppedAt (s : State) (step : Nat) (r : StartRec) : State :=
  { s with
    flash := if step < 4 then s.flash else s.flash.writeRecord { r with step := step - 1, outcome := 3 }
    host := { s.host with startStat := startStat r.alt step 2, startSkip := r.skip } }

/-- A whole start, given which copies of the configuration image are signed. -/
def State.startWith (s : State) (good : Bool → Bool) (fails : List Nat) : State :=
  let x := runStart good fails s.flash
  let s : State := { s.dark with flash := x.1 }
  match x.2 with
  | .ready r => State.started { s with flash := s.flash.writeRecord { r with step := 30, outcome := 1 } } r
  | .stopped step r => s.stoppedAt step r
  | .failed _ _ => s

/-- POWER_ON_START (R333, R334): `fails` names the step that fails in each attempt. -/
def execPowerOnStart (fails : List Nat) (s : State) : Host.Outcome State Fault Refusal :=
  .next (if s.ready then s else s.startWith s.flash.cfgSigned fails)

/-! ## Function Level Reset -/

/-- The PASIDs that have a context: launches, queues, streams or a debug right. -/
def State.pasids (s : State) : List Nat :=
  uniq (s.grids.map (fun g => g.pasid) ++ s.queues.map (fun q => q.pasid) ++
    s.streams.map (fun x => x.pasid) ++ (s.dbgDomains.filter (fun d => !d.firmware)).map (fun d => d.pasid))

/-- FUNCTION_LEVEL_RESET (R318): the launches halt; once they have, every context is destroyed, `FEATACC` and its lock are
cleared, and queues, streams and domain tables are unregistered. A page of a QCB that is missing is asked for first. -/
def execFunctionLevelReset (s : State) : Host.Outcome State Fault Refusal :=
  .next (let ps := s.pasids
  let s := ps.foldl (fun (s : State) p => (s.tearDown p).haltLaunches p) s
  if !ps.all (fun p => s.launchesHalted p) then s
  else match ps.foldl (fun (x : Eng State) p => x.bind (fun s => s.destroy p)) (.ok s) with
  | .miss q => s.ask q
  | .bad _ => s
  | .ok s =>
    { s.dropWaiter cmdWork with
      queues := [], watchTable := [], streams := [], domain := none, domainPending := none
      host := { s.host with featAcc := 0, locked := false } })

/-! ## Soft errors (R338) -/

/-- The counter that owns a row or line. -/
def unitOwner (unit : Nat) : Nat := unit / 2 ^ 20

/-- The window in which an owner's clock stands, aligned to 2^32 clocks; a row or line of no core counts by the I/O die's, the clock of
compositor core 0 (log 14). -/
def State.errWindow (s : State) (owner : Nat) : Nat := (if (s.core? owner).isSome then s.clockOf owner else s.clockOf 256) / 2 ^ 32

/-- A new window begins with no errors counted (R338). -/
def State.turnWindow (s : State) (owner : Nat) : State :=
  if Store.getD s.errWindows owner 0 = s.errWindow owner then s
  else { s with
    errCounts := s.errCounts.filter (fun e => unitOwner e.1 != owner), errWindows := Store.putD 0 s.errWindows owner (s.errWindow owner) }

/-- CORRECTED_ERROR (R338): the fourth of a window retires the row or line while a spare remains, which is left open. -/
def execCorrectedError (unit : Nat) (s : State) : Host.Outcome State Fault Refusal :=
  .next (let s := s.turnWindow (unitOwner unit)
  let n := Store.getD s.errCounts unit 0 + 1
  let s : State := { s with errCounts := Store.put s.errCounts unit n }
  if n != 4 then s
  else
    let s : State := if Config.freeBit s.now (2 ^ 27 + unit) then
        { s with flash := { s.flash with retired := s.flash.retired ++ [unit] }, errCounts := Store.erase s.errCounts unit }
      else s
    s.raiseMsi 3)

/-- ERROR_WINDOW (R338): where the owner's clock has passed a multiple of 2^32, its counts start again. -/
def execErrorWindow (owner : Nat) (s : State) : Host.Outcome State Fault Refusal := .next (s.turnWindow owner)

/-! ## Power and temperature (R339) -/

/-- 105 and 110 degrees in steps of 0.125. -/
def tempLimit : Nat := 840
def tempStop : Nat := 880
def hotRefill : Nat := 4096

def State.dieAt (s : State) (die temp : Nat) : Bool := s.cores.any (fun c => dieOf c.key == die && temp ≤ c.temp)

/-- The refill of every partition of some cores. -/
def State.setRefill (s : State) (sel : Nat → Bool) (f : Nat → Nat → Nat → Nat) : State :=
  { s with cores := s.cores.map (fun c =>
      if sel c.key then { c with parts := c.parts.mapIdx (fun k (p : Part) => { p with refill := f c.key k p.refill }) } else c) }

/-- THERMAL_LIMIT (R339). -/
def execThermalLimit (die : Nat) (s : State) : Host.Outcome State Fault Refusal :=
  .next (if !s.dieAt die tempLimit then s
  else
    let s := s.setRefill (fun k => dieOf k == die) (fun _ _ _ => hotRefill)
    { s with host := { s.host with pwrStat := if s.host.pwrStat = 3 then 3 else 2 } })

/-- THERMAL_STOP (R339): every context is pre-empted, and no clause starts until a new start. -/
def execThermalStop (die : Nat) (s : State) : Host.Outcome State Fault Refusal :=
  .next (if !s.dieAt die tempStop || s.host.startStat.toNat % 16 != 1 then s
  else State.raiseMsi { s with
    blocks := s.blocks.map (fun b => if b.stage == .resident then { b with preempt := true } else b)
    host := { s.host with startStat := s.host.startStat ||| 3, pwrStat := 3 } } 4)

/-- POWER_AVERAGE_WINDOW (R339): above CAP the refills fall, by amounts left open but not below 4,096 (R55), and deterministic launch clocks stop; else
both are restored, but for a die at its thermal limit. -/
def execPowerAverageWindow (watts : Nat) (s : State) : Host.Outcome State Fault Refusal :=
  .next (let now := watts % 4096
  let above := s.host.pwrCap < now
  let hot := (List.range 5).any (fun d => s.dieAt d tempLimit)
  let state : BitVec 2 := if s.host.pwrStat = 3 then 3 else if hot then 2 else if above then 1 else 0
  let s : State := { s with
    host := { s.host with pwrNow := now, pwrStat := state }
    roots := s.roots.map (fun (r : Root) => { r with stopped := above }) }
  if above then s.setRefill (fun _ => true) (fun k p r => hotRefill + Config.freeNat s.now (2 ^ 28 + 64 * k + p) % (r - hotRefill + 1))
  else s.setRefill (fun k => !s.dieAt (dieOf k) tempLimit) (fun _ _ _ => Part.reset.refill))

/-! ## Loss of supply (R334) -/

/-- The copy that a write under way was replacing holds free bytes whose check fails (log 30). -/
def Flash.tear (f : Flash) (copy1 : Bool) (now : Nat) : Flash :=
  let x : BitVec 512 := BitVec.ofNat 512 (Config.freeNat now (2 ^ 29))
  let x := if (parseStart x).isSome then x ^^^ 1 <<< 511 else x
  if copy1 == f.olderIs0 then f else if copy1 then { f with rec1 := x } else { f with rec0 := x }

/-- POWER_LOSS (R334). -/
def execPowerLoss (torn : Option Bool) (s : State) : Host.Outcome State Fault Refusal :=
  .next (let s := s.dark
  match torn with
  | none => s
  | some b => { s with flash := s.flash.tear b s.now })

end Sys2Proof.Machine
end

