-- ==== Sys2Proof/Machine/Scalar.lean ====
section
/-!
DEFINITION. The scalar instructions (R104 to R110).
-/
namespace Sys2Proof.Machine

/-- A two-source scalar form on numbers (R107): wraps to the type's width. -/
def scalarBin (op : Int → Int → Int) (f : FmtS) (s : State) : State :=
  scalarForm (fun now g =>
    g.wrScalar f.ty f.dst
      (wrapI f.ty.width (op (numOf f.ty (g.scalarVal now f.ty f.a)) (numOf f.ty (g.scalarVal now f.ty f.b))))) s

/-- A two-source form on w-bit patterns. -/
def scalarBits (op : Nat → Nat → Nat) (f : FmtS) (s : State) : State :=
  scalarForm (fun now g => g.wrScalar f.ty f.dst (op (g.scalarVal now f.ty f.a) (g.scalarVal now f.ty f.b))) s

/-- Shifts of a w-bit pattern by a count n (R107, R133): logical left and right, and arithmetic right. -/
def shlBits (w x n : Nat) : Nat := if n < w then x * 2 ^ n % 2 ^ w else 0
def shrBits (w x n : Nat) : Nat := if n < w then x % 2 ^ w / 2 ^ n else 0
def sraBits (w x n : Nat) : Nat := wrapI w (sintOf w x / (2 ^ min n (w - 1) : Nat))

def scalarShift (op : Nat → Nat → Nat → Nat) (f : FmtS) (s : State) : State :=
  scalarForm (fun now g =>
    g.wrScalar f.ty f.dst (op f.ty.width (g.scalarVal now f.ty f.a) (g.scalar32 now f.b))) s

/-- `sbfe` and `vbfe` on a w-bit pattern (R110). -/
def bfe (t : Ty) (x fw : Nat) : Nat :=
  let w := t.width
  let pos := fw % 256
  let wid := min (fw / 256 % 256) w
  let field := (List.range wid).foldl (fun a j =>
    a + (if pos + j < w then x / 2 ^ (pos + j) % 2 else if t.isI then x / 2 ^ (w - 1) % 2 else 0) * 2 ^ j) 0
  if t.isI then wrapI w (sintOf wid field) else field

/-- `sbfi` and `vbfi` on w-bit patterns (R110): bits POS to POS + WID - 1 of x, those below w, replaced by the low bits
of y. -/
def bfi (w x y fw : Nat) : Nat :=
  let pos := fw % 256
  let wid := fw / 256 % 256
  (List.range w).foldl (fun a j =>
    a + (if pos ≤ j && j < pos + wid then y / 2 ^ (j - pos) % 2 else x / 2 ^ j % 2) * 2 ^ j) 0

/-- SMOV (R107). -/
def execSmov (f : FmtS) (s : State) : Host.Outcome State Fault Refusal :=
  .next (scalarForm (fun now g => g.wrScalar f.ty f.dst (g.scalarVal now f.ty f.a)) s)

/-- What `smovi` writes: IMM for 32-bit types, extended for 64-bit ones (R108). -/
def moviVal (t : Ty) (imm : BitVec 32) : Nat :=
  match t with
  | .i64 => wrapI 64 imm.toInt
  | _ => imm.toNat

/-- SMOVI (R108). -/
def execSmovi (f : FmtI) (s : State) : Host.Outcome State Fault Refusal :=
  .next (scalarForm (fun _ g => g.wrScalar f.ty f.dst (moviVal f.ty f.imm)) s)

/-- SADD (R107). -/
def execSadd (f : FmtS) (s : State) : Host.Outcome State Fault Refusal := .next (scalarBin (· + ·) f s)

/-- SSUB (R107). -/
def execSsub (f : FmtS) (s : State) : Host.Outcome State Fault Refusal := .next (scalarBin (· - ·) f s)

/-- SMUL (R107). -/
def execSmul (f : FmtS) (s : State) : Host.Outcome State Fault Refusal := .next (scalarBin (· * ·) f s)

/-- SMULH (R107). -/
def execSmulh (f : FmtS) (s : State) : Host.Outcome State Fault Refusal :=
  .next (scalarBin (fun x y => x * y / (2 ^ f.ty.width : Nat)) f s)

/-- SAND (R107). -/
def execSand (f : FmtS) (s : State) : Host.Outcome State Fault Refusal := .next (scalarBits (· &&& ·) f s)

/-- SOR (R107). -/
def execSor (f : FmtS) (s : State) : Host.Outcome State Fault Refusal := .next (scalarBits (· ||| ·) f s)

/-- SXOR (R107). -/
def execSxor (f : FmtS) (s : State) : Host.Outcome State Fault Refusal := .next (scalarBits (· ^^^ ·) f s)

/-- SSHL (R107). -/
def execSshl (f : FmtS) (s : State) : Host.Outcome State Fault Refusal := .next (scalarShift shlBits f s)

/-- SSHR (R107). -/
def execSshr (f : FmtS) (s : State) : Host.Outcome State Fault Refusal := .next (scalarShift shrBits f s)

/-- SSRA (R107). -/
def execSsra (f : FmtS) (s : State) : Host.Outcome State Fault Refusal := .next (scalarShift sraBits f s)

/-- SMIN (R107). -/
def execSmin (f : FmtS) (s : State) : Host.Outcome State Fault Refusal := .next (scalarBin min f s)

/-- SMAX (R107). -/
def execSmax (f : FmtS) (s : State) : Host.Outcome State Fault Refusal := .next (scalarBin max f s)

/-- SCMP (R109): 1 if A CMP B holds, else 0. -/
def execScmp (f : FmtS) (s : State) : Host.Outcome State Fault Refusal :=
  .next (scalarForm (fun now g =>
    g.wrScalar32 f.dst (boolNat (cmpInt f.sel.toNat (numOf f.ty (g.scalarVal now f.ty f.a))
      (numOf f.ty (g.scalarVal now f.ty f.b))))) s)

/-- SSEL (R107). -/
def execSsel (f : FmtS) (s : State) : Host.Outcome State Fault Refusal :=
  .next (scalarForm (fun now g =>
    g.wrScalar f.ty f.dst (if g.scalar32 now f.c ≠ 0 then g.scalarVal now f.ty f.a else g.scalarVal now f.ty f.b)) s)

/-- SCLZ (R107). -/
def execSclz (f : FmtS) (s : State) : Host.Outcome State Fault Refusal :=
  .next (scalarForm (fun now g => g.wrScalar32 f.dst (leadingZeros f.ty.width (g.scalarVal now f.ty f.a))) s)

/-- SPOPC (R107). -/
def execSpopc (f : FmtS) (s : State) : Host.Outcome State Fault Refusal :=
  .next (scalarForm (fun now g => g.wrScalar32 f.dst (popcount f.ty.width (g.scalarVal now f.ty f.a))) s)

/-- SBFE (R110). -/
def execSbfe (f : FmtS) (s : State) : Host.Outcome State Fault Refusal :=
  .next (scalarForm (fun now g =>
    g.wrScalar f.ty f.dst (bfe f.ty (g.scalarVal now f.ty f.a) (g.scalar32 now f.b))) s)

/-- SBFI (R110). -/
def execSbfi (f : FmtS) (s : State) : Host.Outcome State Fault Refusal :=
  .next (scalarForm (fun now g =>
    g.wrScalar f.ty f.dst
      (bfi f.ty.width (g.scalarVal now f.ty f.a) (g.scalarVal now f.ty f.b) (g.scalar32 now f.c))) s)

end Sys2Proof.Machine
end

