-- ==== Sys2Proof/Machine/VectorInt.lean ====
section
/-!
DEFINITION. The integer vector forms (R132 to R135).
-/
namespace Sys2Proof.Machine

/-- A two-source integer form whose exact result SAT may clamp (R133). -/
def vecBin (op : Int → Int → Int) (f : FmtA2) (s : State) : State :=
  vecForm f.mask f.gang f.ty f.dst (fun now g k =>
    outT f.ty f.sat (op (numOf f.ty (g.laneVal now f.ty f.a k)) (numOf f.ty (g.laneVal now f.ty f.b k)))) s

/-- A two-source form on w-bit patterns. -/
def vecBits (op : Nat → Nat → Nat) (f : FmtA2) (s : State) : State :=
  vecForm f.mask f.gang f.ty f.dst (fun now g k => (op (g.laneVal now f.ty f.a k) (g.laneVal now f.ty f.b k), 0)) s

/-- A shift by a 32-bit count. -/
def vecShift (op : Nat → Nat → Nat → Nat) (f : FmtA2) (s : State) : State :=
  vecForm f.mask f.gang f.ty f.dst (fun now g k =>
    (op f.ty.width (g.laneVal now f.ty f.a k) (g.lane32 now f.b k), 0)) s

/-- A count of bits, written to one 32-bit register. -/
def vecCount (op : Nat → Nat → Nat) (f : FmtA2) (s : State) : State :=
  vecForm32 f.mask f.gang f.dst (fun now g k => (op f.ty.width (g.laneVal now f.ty f.a k), 0)) s

/-- VADD (R133). -/
def execVadd (f : FmtA2) (s : State) : Host.Outcome State Fault Refusal := .next (vecBin (· + ·) f s)

/-- VSUB (R133). -/
def execVsub (f : FmtA2) (s : State) : Host.Outcome State Fault Refusal := .next (vecBin (· - ·) f s)

/-- VMUL (R133). -/
def execVmul (f : FmtA2) (s : State) : Host.Outcome State Fault Refusal := .next (vecBin (· * ·) f s)

/-- VMULH (R133): wraps. -/
def execVmulh (f : FmtA2) (s : State) : Host.Outcome State Fault Refusal :=
  .next (vecForm f.mask f.gang f.ty f.dst (fun now g k =>
    (wrapI f.ty.width (numOf f.ty (g.laneVal now f.ty f.a k) * numOf f.ty (g.laneVal now f.ty f.b k) /
      (2 ^ f.ty.width : Nat)), 0)) s)

/-- VMAD (R133). -/
def execVmad (f : FmtA3) (s : State) : Host.Outcome State Fault Refusal :=
  .next (vecForm f.mask f.gang f.ty f.dst (fun now g k =>
    outT f.ty f.sat (numOf f.ty (g.laneVal now f.ty f.a k) * numOf f.ty (g.laneVal now f.ty f.b k) +
      numOf f.ty (g.laneVal now f.ty f.c k))) s)

/-- VAND (R133). -/
def execVand (f : FmtA2) (s : State) : Host.Outcome State Fault Refusal := .next (vecBits (· &&& ·) f s)

/-- VOR (R133). -/
def execVor (f : FmtA2) (s : State) : Host.Outcome State Fault Refusal := .next (vecBits (· ||| ·) f s)

/-- VXOR (R133). -/
def execVxor (f : FmtA2) (s : State) : Host.Outcome State Fault Refusal := .next (vecBits (· ^^^ ·) f s)

/-- VNOT (R133). -/
def execVnot (f : FmtA2) (s : State) : Host.Outcome State Fault Refusal :=
  .next (vecForm f.mask f.gang f.ty f.dst (fun now g k =>
    (2 ^ f.ty.width - 1 - g.laneVal now f.ty f.a k % 2 ^ f.ty.width, 0)) s)

/-- VSHL (R133): the exact product x · 2^n; a count of w or more gives 0, or the clamp of a nonzero x with SAT. -/
def shlOut (t : Ty) (sat : Bool) (x n : Nat) : Nat × W32 :=
  if n < t.width then outT t sat (numOf t x * (2 ^ n : Nat))
  else if sat then outT t true (numOf t x * (2 ^ t.width : Nat)) else (0, 0)

/-- VSHL (R133). -/
def execVshl (f : FmtA2) (s : State) : Host.Outcome State Fault Refusal :=
  .next (vecForm f.mask f.gang f.ty f.dst (fun now g k =>
    shlOut f.ty f.sat (g.laneVal now f.ty f.a k) (g.lane32 now f.b k)) s)

/-- VSHR (R133). -/
def execVshr (f : FmtA2) (s : State) : Host.Outcome State Fault Refusal := .next (vecShift shrBits f s)

/-- VSRA (R133). -/
def execVsra (f : FmtA2) (s : State) : Host.Outcome State Fault Refusal := .next (vecShift sraBits f s)

/-- VMIN (R133): wraps, its SAT field unused. -/
def execVmin (f : FmtA2) (s : State) : Host.Outcome State Fault Refusal := .next (vecBin min { f with sat := false } s)

/-- VMAX (R133). -/
def execVmax (f : FmtA2) (s : State) : Host.Outcome State Fault Refusal := .next (vecBin max { f with sat := false } s)

/-- VABS (R133). -/
def execVabs (f : FmtA2) (s : State) : Host.Outcome State Fault Refusal :=
  .next (vecForm f.mask f.gang f.ty f.dst (fun now g k =>
    outT f.ty f.sat (numOf f.ty (g.laneVal now f.ty f.a k)).natAbs) s)

/-- VCLZ (R133). -/
def execVclz (f : FmtA2) (s : State) : Host.Outcome State Fault Refusal := .next (vecCount leadingZeros f s)

/-- VPOPC (R133). -/
def execVpopc (f : FmtA2) (s : State) : Host.Outcome State Fault Refusal := .next (vecCount popcount f s)

/-- VBFE (R133, R110). -/
def execVbfe (f : FmtA3) (s : State) : Host.Outcome State Fault Refusal :=
  .next (vecForm f.mask f.gang f.ty f.dst (fun now g k =>
    (bfe f.ty (g.laneVal now f.ty f.a k) (g.lane32 now f.b k), 0)) s)

/-- VBFI (R133, R110). -/
def execVbfi (f : FmtA3) (s : State) : Host.Outcome State Fault Refusal :=
  .next (vecForm f.mask f.gang f.ty f.dst (fun now g k =>
    (bfi f.ty.width (g.laneVal now f.ty f.a k) (g.laneVal now f.ty f.b k) (g.lane32 now f.c k), 0)) s)

/-- VSEL (R133): copies the bits of A where the lane's condition holds, else those of B. -/
def execVsel (f : FmtA3) (s : State) : Host.Outcome State Fault Refusal :=
  .next (vecForm f.mask f.gang f.ty f.dst (fun now g k =>
    (if (g.condLanes now f.c (Lanes1 k)) != 0 then g.dataVal now f.ty f.a k else g.dataVal now f.ty f.b k, 0)) s)

/-- VCMP (R134). -/
def execVcmp (f : FmtA2S) (s : State) : Host.Outcome State Fault Refusal :=
  .next (vecCompare f.mask f.gang f.dst (fun now g k =>
    (boolNat (cmpInt f.sel.toNat (numOf f.ty (g.laneVal now f.ty f.a k)) (numOf f.ty (g.laneVal now f.ty f.b k))), 0)) s)

/-- VMOV (R133). -/
def execVmov (f : FmtA2) (s : State) : Host.Outcome State Fault Refusal :=
  .next (vecForm f.mask f.gang f.ty f.dst (fun now g k => (g.dataVal now f.ty f.a k, 0)) s)

/-- What `vmovi` writes (R135): IMM, extended for the 64-bit integer types, converted exactly from FP32 for `f64`; its low
half for the 16-bit types. An FP32 NaN becomes the canonical FP64 NaN and sets no NV, which the spec leaves open (log 53). -/
def vmoviVal (t : Ty) (imm : BitVec 32) : Nat :=
  match t with
  | .i64 => wrapI 64 imm.toInt
  | .f64 => (fmt64.rne (fmt32.decode imm.toNat)).1
  | .b16 | .i16 | .n16 | .f16 | .bf16 => imm.toNat % 2 ^ 16
  | _ => imm.toNat

/-- VMOVI (R135). -/
def execVmovi (f : FmtI) (s : State) : Host.Outcome State Fault Refusal :=
  .next (vecForm f.mask f.gang f.ty f.dst (fun _ _ _ => (vmoviVal f.ty f.imm, 0)) s)

end Sys2Proof.Machine
end

