-- ==== Sys2Proof/Machine/VectorPacked.lean ====
section
/-!
DEFINITION. The packed and saturating vector forms (R136 to R138).
-/
namespace Sys2Proof.Machine

/-- Element k of width w of a 32-bit value, signed or unsigned (R84, R136). -/
def elem (sg : Bool) (w x k : Nat) : Int :=
  if sg then sintOf w (x / 2 ^ (w * k)) else ((x / 2 ^ (w * k) % 2 ^ w : Nat) : Int)

/-- Elements of width w packed from the lowest, with their sticky bits. -/
def packElems (w : Nat) (l : List (Nat × W32)) : Nat × W32 :=
  (l.foldr (fun e acc => e.1 % 2 ^ w + acc * 2 ^ w) 0, l.foldl (fun a e => a ||| e.2) 0)

/-- A packed form over the elements of two sources. -/
def packedBin (w : Nat) (f : Int → Int → Nat × W32) (sg : Bool) (x y : Nat) : Nat × W32 :=
  packElems w ((List.range (32 / w)).map (fun k => f (elem sg w x k) (elem sg w y k)))

def packForm (f : FmtA2) (op : Nat → Nat → Nat × W32) (s : State) : State :=
  vecForm32 f.mask f.gang f.dst (fun now g k => op (g.lane32 now f.a k) (g.lane32 now f.b k)) s

def packForm3 (f : FmtA3) (op : Nat → Nat → Nat → Nat × W32) (s : State) : State :=
  vecForm32 f.mask f.gang f.dst (fun now g k => op (g.lane32 now f.a k) (g.lane32 now f.b k) (g.lane32 now f.c k)) s

/-- VADD2 (R137). -/
def execVadd2 (f : FmtA2) (s : State) : Host.Outcome State Fault Refusal :=
  .next (packForm f (packedBin 16 (fun x y => outW f.sat f.ty.isI 16 (x + y)) f.ty.isI) s)

/-- VSUB2 (R137). -/
def execVsub2 (f : FmtA2) (s : State) : Host.Outcome State Fault Refusal :=
  .next (packForm f (packedBin 16 (fun x y => outW f.sat f.ty.isI 16 (x - y)) f.ty.isI) s)

/-- The sum of n products of elements added to a 32-bit value (R137). -/
def dotElems (sat sg : Bool) (w n x y z : Nat) : Nat × W32 :=
  outW sat sg 32 ((List.range n).foldl (fun a k => a + elem sg w x k * elem sg w y k) (elem sg 32 z 0))

/-- VMAC2 (R137). -/
def execVmac2 (f : FmtA3) (s : State) : Host.Outcome State Fault Refusal :=
  .next (packForm3 f (dotElems f.sat f.ty.isI 16 2) s)

/-- VDOT4 (R137). -/
def execVdot4 (f : FmtA3) (s : State) : Host.Outcome State Fault Refusal :=
  .next (packForm3 f (dotElems f.sat f.ty.isI 8 4) s)

/-- VQADD (R137): always saturates. -/
def execVqadd (f : FmtA2) (s : State) : Host.Outcome State Fault Refusal :=
  .next (packForm f (packedBin f.ty.width (fun x y => outW true f.ty.isI f.ty.width (x + y)) f.ty.isI) s)

/-- VQSUB (R137). -/
def execVqsub (f : FmtA2) (s : State) : Host.Outcome State Fault Refusal :=
  .next (packForm f (packedBin f.ty.width (fun x y => outW true f.ty.isI f.ty.width (x - y)) f.ty.isI) s)

/-- One element of `vshrr` (R137): a tie rounds towards +∞; a count of w or more gives 0; SAT narrows to half the width. -/
def shrrElem (sat sg : Bool) (w n : Nat) (x : Int) : Nat × W32 :=
  let v : Int := if n = 0 then x else if w ≤ n then 0 else (x + (2 ^ (n - 1) : Nat)) / (2 ^ n : Nat)
  if sat then
    let v' := clampTo sg (w / 2) v
    (wrapI w v', if v' = v then 0 else flagSAT)
  else (wrapI w v, 0)

/-- VSHRR (R137). -/
def execVshrr (f : FmtA2) (s : State) : Host.Outcome State Fault Refusal :=
  .next (packForm f (fun x n =>
    packElems f.ty.width ((List.range (32 / f.ty.width)).map (fun k =>
      shrrElem f.sat f.ty.isI f.ty.width n (elem f.ty.isI f.ty.width x k)))) s)

/-- VPACK (R138): sources read signed. -/
def packVal (t : Ty) (sat : Bool) (x y : Nat) : Nat × W32 :=
  if t.width = 16 then packElems 16 [outW sat t.isI 16 (elem true 32 x 0), outW sat t.isI 16 (elem true 32 y 0)]
  else packElems 8 [outW sat t.isI 8 (elem true 16 x 0), outW sat t.isI 8 (elem true 16 x 1),
    outW sat t.isI 8 (elem true 16 y 0), outW sat t.isI 8 (elem true 16 y 1)]

/-- VPACK (R138). -/
def execVpack (f : FmtA2) (s : State) : Host.Outcome State Fault Refusal := .next (packForm f (packVal f.ty f.sat) s)

/-- VUNPACK (R138): PART selects the half of the source elements. -/
def unpackVal (t : Ty) (part x : Nat) : Nat :=
  if t.width = 16 then wrapI 32 (elem t.isI 16 x part)
  else (packElems 16 [(wrapI 16 (elem t.isI 8 x (2 * part)), 0), (wrapI 16 (elem t.isI 8 x (2 * part + 1)), 0)]).1

/-- VUNPACK (R138). -/
def execVunpack (f : FmtA2S) (s : State) : Host.Outcome State Fault Refusal :=
  .next (vecForm32 f.mask f.gang f.dst (fun now g k => (unpackVal f.ty f.sel.toNat (g.lane32 now f.a k), 0)) s)

end Sys2Proof.Machine
end

