-- ==== Sys2Proof/Machine/Dispatch.lean ====
section
/-!
DEFINITION. The dispatch of every instruction and transition to its meaning, one arm per constructor of `Instr`.
-/
namespace Sys2Proof.Machine

def exec (i : Instr) (s : State) : Host.Outcome State Fault Refusal :=
  match i with
  | .clauseStart core part port => Sys2Proof.Machine.execClauseStart core part port s
  | .merge gang => Sys2Proof.Machine.execMerge gang s
  | .joinRelease gang => Sys2Proof.Machine.execJoinRelease gang s
  | .collectiveWaitEnd gang => Sys2Proof.Machine.execCollectiveWaitEnd gang s
  | .budgetRefill core part => Sys2Proof.Machine.execBudgetRefill core part s
  | .tempRefresh core temp => Sys2Proof.Machine.execTempRefresh core temp s
  | .blockPlace die => Sys2Proof.Machine.execBlockPlace die s
  | .roomAdvertise die => Sys2Proof.Machine.execRoomAdvertise die s
  | .blockPass die => Sys2Proof.Machine.execBlockPass die s
  | .quantumExpiry grid => Sys2Proof.Machine.execQuantumExpiry grid s
  | .dueClock root => Sys2Proof.Machine.execDueClock root s
  | .resolve gang op => Sys2Proof.Machine.execResolve gang op s
  | .grant gang => Sys2Proof.Machine.execGrant gang s
  | .atomic gang op addr => Sys2Proof.Machine.execAtomic gang op addr s
  | .cabort lvl uid => Sys2Proof.Machine.execCabort lvl uid s
  | .land gang op => Sys2Proof.Machine.execLand gang op s
  | .phase owner bar => Sys2Proof.Machine.execPhase owner bar s
  | .deliver src dst lane => Sys2Proof.Machine.execDeliver src dst lane s
  | .gangRetire gang => Sys2Proof.Machine.execGangRetire gang s
  | .blockRetire block => Sys2Proof.Machine.execBlockRetire block s
  | .clusterRetire cluster => Sys2Proof.Machine.execClusterRetire cluster s
  | .blockCompletionEvent block => Sys2Proof.Machine.execBlockCompletionEvent block s
  | .trapEntry gang => Sys2Proof.Machine.execTrapEntry gang s
  | .atsCompletion pasid page ans => Sys2Proof.Machine.execAtsCompletion pasid page ans s
  | .priResponse pasid page ans => Sys2Proof.Machine.execPriResponse pasid page ans s
  | .invalidation pasid lo hi => Sys2Proof.Machine.execInvalidation pasid lo hi s
  | .invalidationCompletion pasid lo hi => Sys2Proof.Machine.execInvalidationCompletion pasid lo hi s
  | .preemptRequest pasid queue => Sys2Proof.Machine.execPreemptRequest pasid queue s
  | .contextSave block => Sys2Proof.Machine.execContextSave block s
  | .blockRestore die => Sys2Proof.Machine.execBlockRestore die s
  | .mstart core part => Sys2Proof.Machine.execMstart core part s
  | .rqmove core req unit => Sys2Proof.Machine.execRqmove core req unit s
  | .rqsignal core req => Sys2Proof.Machine.execRqsignal core req s
  | .rqlistBlockFetch core => Sys2Proof.Machine.execRqlistBlockFetch core s
  | .kick queue x => Sys2Proof.Machine.execKick queue x s
  | .packetComplete queue idx => Sys2Proof.Machine.execPacketComplete queue idx s
  | .pendscanWake comp => Sys2Proof.Machine.execPendscanWake comp s
  | .signalRecheck comp => Sys2Proof.Machine.execSignalRecheck comp s
  | .bankSwitch comp => Sys2Proof.Machine.execBankSwitch comp s
  | .fwVerifyDone unchanged => Sys2Proof.Machine.execFwVerifyDone unchanged s
  | .unlockVerifyDone unchanged => Sys2Proof.Machine.execUnlockVerifyDone unchanged s
  | .pull gang => Sys2Proof.Machine.execPull gang s
  | .guestReturn gang => Sys2Proof.Machine.execGuestReturn gang s
  | .arrivalMessage gang => Sys2Proof.Machine.execArrivalMessage gang s
  | .releaseMessage gang => Sys2Proof.Machine.execReleaseMessage gang s
  | .clauseCountMessage guest gang => Sys2Proof.Machine.execClauseCountMessage guest gang s
  | .debugHandlerEntry core => Sys2Proof.Machine.execDebugHandlerEntry core s
  | .traceDrain core => Sys2Proof.Machine.execTraceDrain core s
  | .frameArrival port bytes fcsOk => Sys2Proof.Machine.execFrameArrival port bytes fcsOk s
  | .framePublish port => Sys2Proof.Machine.execFramePublish port s
  | .portDown port => Sys2Proof.Machine.execPortDown port s
  | .linkRetryTimeout dev => Sys2Proof.Machine.execLinkRetryTimeout dev s
  | .domainTableInstall => Sys2Proof.Machine.execDomainTableInstall s
  | .powerOnStart fails => Sys2Proof.Machine.execPowerOnStart fails s
  | .functionLevelReset => Sys2Proof.Machine.execFunctionLevelReset s
  | .correctedError unit => Sys2Proof.Machine.execCorrectedError unit s
  | .errorWindow owner => Sys2Proof.Machine.execErrorWindow owner s
  | .thermalLimit die => Sys2Proof.Machine.execThermalLimit die s
  | .thermalStop die => Sys2Proof.Machine.execThermalStop die s
  | .featAccWrite x => Sys2Proof.Machine.execFeatAccWrite x s
  | .registerQueue tag arg => Sys2Proof.Machine.execRegisterQueue tag arg s
  | .teardownPasid tag arg => Sys2Proof.Machine.execTeardownPasid tag arg s
  | .destroyCtx tag arg => Sys2Proof.Machine.execDestroyCtx tag arg s
  | .preempt tag arg => Sys2Proof.Machine.execPreempt tag arg s
  | .loadFw tag arg => Sys2Proof.Machine.execLoadFw tag arg s
  | .keyslotWrite tag arg unchanged => Sys2Proof.Machine.execKeyslotWrite tag arg unchanged s
  | .unlock tag arg => Sys2Proof.Machine.execUnlock tag arg s
  | .domainSet tag arg => Sys2Proof.Machine.execDomainSet tag arg s
  | .streamSet tag arg => Sys2Proof.Machine.execStreamSet tag arg s
  | .streamMap tag arg => Sys2Proof.Machine.execStreamMap tag arg s
  | .startClear tag arg => Sys2Proof.Machine.execStartClear tag arg s
  | .hcmdUnknownOp op tag arg => Sys2Proof.Machine.execHcmdUnknownOp op tag arg s
  | .hcmdIgnored w => Sys2Proof.Machine.execHcmdIgnored w s
  | .commandDone => Sys2Proof.Machine.execCommandDone s
  | .dbgAttnWrite w => Sys2Proof.Machine.execDbgAttnWrite w s
  | .dbgRevokeWrite w => Sys2Proof.Machine.execDbgRevokeWrite w s
  | .triggerRegisterWrite core trig reg w => Sys2Proof.Machine.execTriggerRegisterWrite core trig reg w s
  | .ptpsecRead port => Sys2Proof.Machine.execPtpsecRead port s
  | .ptpadjWrite port w => Sys2Proof.Machine.execPtpadjWrite port w s
  | .registerWrite off w => Sys2Proof.Machine.execRegisterWrite off w s
  | .smov f => Sys2Proof.Machine.execSmov f s
  | .smovi f => Sys2Proof.Machine.execSmovi f s
  | .sadd f => Sys2Proof.Machine.execSadd f s
  | .ssub f => Sys2Proof.Machine.execSsub f s
  | .smul f => Sys2Proof.Machine.execSmul f s
  | .smulh f => Sys2Proof.Machine.execSmulh f s
  | .sand f => Sys2Proof.Machine.execSand f s
  | .sor f => Sys2Proof.Machine.execSor f s
  | .sxor f => Sys2Proof.Machine.execSxor f s
  | .sshl f => Sys2Proof.Machine.execSshl f s
  | .sshr f => Sys2Proof.Machine.execSshr f s
  | .ssra f => Sys2Proof.Machine.execSsra f s
  | .smin f => Sys2Proof.Machine.execSmin f s
  | .smax f => Sys2Proof.Machine.execSmax f s
  | .scmp f => Sys2Proof.Machine.execScmp f s
  | .ssel f => Sys2Proof.Machine.execSsel f s
  | .sclz f => Sys2Proof.Machine.execSclz f s
  | .spopc f => Sys2Proof.Machine.execSpopc f s
  | .sbfe f => Sys2Proof.Machine.execSbfe f s
  | .sbfi f => Sys2Proof.Machine.execSbfi f s
  | .bra f => Sys2Proof.Machine.execBra f s
  | .bru f => Sys2Proof.Machine.execBru f s
  | .brv f => Sys2Proof.Machine.execBrv f s
  | .brau f => Sys2Proof.Machine.execBrau f s
  | .skip f => Sys2Proof.Machine.execSkip f s
  | .call f => Sys2Proof.Machine.execCall f s
  | .ret f => Sys2Proof.Machine.execRet f s
  | .join f => Sys2Proof.Machine.execJoin f s
  | .gangAll f => Sys2Proof.Machine.execGangAll f s
  | .exit f => Sys2Proof.Machine.execExit f s
  | .trap f => Sys2Proof.Machine.execTrap f s
  | .yield f => Sys2Proof.Machine.execYield f s
  | .nop f => Sys2Proof.Machine.execNop f s
  | .mand f => Sys2Proof.Machine.execMand f s
  | .mor f => Sys2Proof.Machine.execMor f s
  | .mxor f => Sys2Proof.Machine.execMxor f s
  | .mnot f => Sys2Proof.Machine.execMnot f s
  | .mmov f => Sys2Proof.Machine.execMmov f s
  | .mpopc f => Sys2Proof.Machine.execMpopc f s
  | .mfirst f => Sys2Proof.Machine.execMfirst f s
  | .measure f => Sys2Proof.Machine.execMeasure f s
  | .srd f => Sys2Proof.Machine.execSrd f s
  | .swr f => Sys2Proof.Machine.execSwr f s
  | .vadd f => Sys2Proof.Machine.execVadd f s
  | .vsub f => Sys2Proof.Machine.execVsub f s
  | .vmul f => Sys2Proof.Machine.execVmul f s
  | .vmulh f => Sys2Proof.Machine.execVmulh f s
  | .vmad f => Sys2Proof.Machine.execVmad f s
  | .vand f => Sys2Proof.Machine.execVand f s
  | .vor f => Sys2Proof.Machine.execVor f s
  | .vxor f => Sys2Proof.Machine.execVxor f s
  | .vnot f => Sys2Proof.Machine.execVnot f s
  | .vshl f => Sys2Proof.Machine.execVshl f s
  | .vshr f => Sys2Proof.Machine.execVshr f s
  | .vsra f => Sys2Proof.Machine.execVsra f s
  | .vmin f => Sys2Proof.Machine.execVmin f s
  | .vmax f => Sys2Proof.Machine.execVmax f s
  | .vabs f => Sys2Proof.Machine.execVabs f s
  | .vclz f => Sys2Proof.Machine.execVclz f s
  | .vpopc f => Sys2Proof.Machine.execVpopc f s
  | .vbfe f => Sys2Proof.Machine.execVbfe f s
  | .vbfi f => Sys2Proof.Machine.execVbfi f s
  | .vsel f => Sys2Proof.Machine.execVsel f s
  | .vcmp f => Sys2Proof.Machine.execVcmp f s
  | .vmov f => Sys2Proof.Machine.execVmov f s
  | .vmovi f => Sys2Proof.Machine.execVmovi f s
  | .vadd2 f => Sys2Proof.Machine.execVadd2 f s
  | .vsub2 f => Sys2Proof.Machine.execVsub2 f s
  | .vmac2 f => Sys2Proof.Machine.execVmac2 f s
  | .vdot4 f => Sys2Proof.Machine.execVdot4 f s
  | .vqadd f => Sys2Proof.Machine.execVqadd f s
  | .vqsub f => Sys2Proof.Machine.execVqsub f s
  | .vshrr f => Sys2Proof.Machine.execVshrr f s
  | .vpack f => Sys2Proof.Machine.execVpack f s
  | .vunpack f => Sys2Proof.Machine.execVunpack f s
  | .vfadd f => Sys2Proof.Machine.execVfadd f s
  | .vfsub f => Sys2Proof.Machine.execVfsub f s
  | .vfmul f => Sys2Proof.Machine.execVfmul f s
  | .vfma f => Sys2Proof.Machine.execVfma f s
  | .vfmin f => Sys2Proof.Machine.execVfmin f s
  | .vfmax f => Sys2Proof.Machine.execVfmax f s
  | .vfrcp f => Sys2Proof.Machine.execVfrcp f s
  | .vfrsq f => Sys2Proof.Machine.execVfrsq f s
  | .vfsqrt f => Sys2Proof.Machine.execVfsqrt f s
  | .vfexp2 f => Sys2Proof.Machine.execVfexp2 f s
  | .vflog2 f => Sys2Proof.Machine.execVflog2 f s
  | .vfcmp f => Sys2Proof.Machine.execVfcmp f s
  | .vfclass f => Sys2Proof.Machine.execVfclass f s
  | .vcvt f => Sys2Proof.Machine.execVcvt f s
  | .vfcvt f => Sys2Proof.Machine.execVfcvt f s
  | .vftoi f => Sys2Proof.Machine.execVftoi f s
  | .vitof f => Sys2Proof.Machine.execVitof f s
  | .vshfl f => Sys2Proof.Machine.execVshfl f s
  | .vshflx f => Sys2Proof.Machine.execVshflx f s
  | .vslide f => Sys2Proof.Machine.execVslide f s
  | .vbcast f => Sys2Proof.Machine.execVbcast f s
  | .vvote f => Sys2Proof.Machine.execVvote f s
  | .vreduce f => Sys2Proof.Machine.execVreduce f s
  | .vscan f => Sys2Proof.Machine.execVscan f s
  | .ld f => Sys2Proof.Machine.execLd f s
  | .st f => Sys2Proof.Machine.execSt f s
  | .lds f => Sys2Proof.Machine.execLds f s
  | .sts f => Sys2Proof.Machine.execSts f s
  | .prefetch f => Sys2Proof.Machine.execPrefetch f s
  | .atom f => Sys2Proof.Machine.execAtom f s
  | .atomf f => Sys2Proof.Machine.execAtomf f s
  | .atomcas f => Sys2Proof.Machine.execAtomcas f s
  | .commit f => Sys2Proof.Machine.execCommit f s
  | .commitc f => Sys2Proof.Machine.execCommitc f s
  | .mark f => Sys2Proof.Machine.execMark f s
  | .abort f => Sys2Proof.Machine.execAbort f s
  | .waitcnt f => Sys2Proof.Machine.execWaitcnt f s
  | .bara f => Sys2Proof.Machine.execBara f s
  | .barw f => Sys2Proof.Machine.execBarw f s
  | .bars f => Sys2Proof.Machine.execBars f s
  | .barx f => Sys2Proof.Machine.execBarx f s
  | .vralloc f => Sys2Proof.Machine.execVralloc f s
  | .rte f => Sys2Proof.Machine.execRte f s
  | .launch f => Sys2Proof.Machine.execLaunch f s
  | .sigop f => Sys2Proof.Machine.execSigop f s
  | .mma f => Sys2Proof.Machine.execMma f s
  | .mmas f => Sys2Proof.Machine.execMmas f s
  | .mmac f => Sys2Proof.Machine.execMmac f s
  | .mmag f => Sys2Proof.Machine.execMmag f s
  | .qhist f => Sys2Proof.Machine.execQhist f s
  | .qscale f => Sys2Proof.Machine.execQscale f s
  | .qcvt f => Sys2Proof.Machine.execQcvt f s
  | .qclr f => Sys2Proof.Machine.execQclr f s
  | .rqcopy f => Sys2Proof.Machine.execRqcopy f s
  | .rqfill f => Sys2Proof.Machine.execRqfill f s
  | .rqgather f => Sys2Proof.Machine.execRqgather f s
  | .rqscatter f => Sys2Proof.Machine.execRqscatter f s
  | .rqputs f => Sys2Proof.Machine.execRqputs f s
  | .rqred f => Sys2Proof.Machine.execRqred f s
  | .rqlist f => Sys2Proof.Machine.execRqlist f s
  | .rqswap f => Sys2Proof.Machine.execRqswap f s
  | .pktld f => Sys2Proof.Machine.execPktld f s
  | .pktdone f => Sys2Proof.Machine.execPktdone f s
  | .sigrmw f => Sys2Proof.Machine.execSigrmw f s
  | .qsave f => Sys2Proof.Machine.execQsave f s
  | .qload f => Sys2Proof.Machine.execQload f s
  | .dispatch f => Sys2Proof.Machine.execDispatch f s
  | .pendscan f => Sys2Proof.Machine.execPendscan f s
  | .qarm f => Sys2Proof.Machine.execQarm f s
  | .dbgrd f => Sys2Proof.Machine.execDbgrd f s
  | .dbgwr f => Sys2Proof.Machine.execDbgwr f s
  | .dstep f => Sys2Proof.Machine.execDstep f s
  | .dresume f => Sys2Proof.Machine.execDresume f s
  | .dreturn f => Sys2Proof.Machine.execDreturn f s
  | .wpset f => Sys2Proof.Machine.execWpset f s
  | .trctl f => Sys2Proof.Machine.execTrctl f s
  | .vhrd f => Sys2Proof.Machine.execVhrd f s
  | .childLaunch gang op => Sys2Proof.Machine.execChildLaunch gang op s
  | .powerAverageWindow watts => Sys2Proof.Machine.execPowerAverageWindow watts s
  | .powerLoss torn => Sys2Proof.Machine.execPowerLoss torn s

end Sys2Proof.Machine
end

