-- ==== Sys2Proof/Machine/Issue.lean ====
section
/-!
DEFINITION. The issue of one word: the word is fetched from the running clause, decoded and executed, and around it stand the PC
triggers and comparators (R289, R297), the trace (R298), the register watchpoints (R297, R313), the lane-cycle record (R301,
R302) and the end of a single step (R309).
-/
namespace Sys2Proof.Machine

/-! ## Destinations at issue -/

/-- The MASK field of a form; `em` where it has none. -/
def Form.mask : Form → MaskSel
  | .a3 f => f.mask
  | .f2 f => f.mask
  | .a2 f => f.mask
  | .a2s f => f.mask
  | .a3s f => f.mask
  | .cv f => f.mask
  | .i f => f.mask
  | .b f => f.mask
  | .m f => f.mask
  | .ma f => f.mask
  | _ => .em

/-- The operand written at issue; forms whose result lands later are left out where they issue (R13, R130). -/
def Form.dest : Form → Option Opd
  | .a3 f => some f.dst
  | .f2 f => some f.dst
  | .a2 f => some f.dst
  | .a2s f => some f.dst
  | .a3s f => some f.dst
  | .cv f => some f.dst
  | .s f => some f.dst
  | .i f => some f.dst
  | .bl f => some f.dst
  | .y f => some f.dst
  | .q f => some f.dst
  | _ => none

/-- A result of one register whatever TYPE is (R84, R134). -/
def narrowDest : Instr → Bool
  | .scmp _ | .sclz _ | .spopc _ | .vcmp _ | .vclz _ | .vpopc _ | .vfcmp _ | .vfclass _ => true
  | _ => false

/-- Does the destination take a pair of registers? -/
def pairDest (i : Instr) : Bool :=
  !narrowDest i && (match formOf i with
    | .a3 f => f.ty.is64
    | .f2 f => f.ty.is64
    | .a2 f => f.ty.is64
    | .a2s f => f.ty.is64
    | .a3s f => f.ty.is64
    | .i f => f.ty.is64
    | .cv f => f.dty.is64
    | .s f => f.ty.is64 || (match i, f.a with
      | .srd _, .sr .cycles | .srd _, .sr .tvec | .srd _, .sr .tval | .srd _, .sr .tret => true
      | _, _ => false)
    | .bl _ => true
    | _ => false)

/-- A vector form issues once for each pass; a scalar form counts as one (R46, R302). -/
def perPass (i : Instr) : Bool :=
  match i, formOf i with
  | .lds _, _ | .sts _, _ | .smovi _, _ => false
  | _, .a3 _ | _, .f2 _ | _, .a2 _ | _, .a2s _ | _, .a3s _ | _, .cv _ | _, .i _ | _, .b _ | _, .m _ | _, .ma _ => true
  | _, _ => false

/-- The instructions that write lanes of a mask: each lane skips by itself (R111, R120, R123). -/
def masksLanes : Instr → Bool
  | .mand _ | .mor _ | .mxor _ | .mnot _ | .mmov _ => true
  | .srd f => namesMask f.dst
  | _ => false

/-- Old and new value of each register element that a word wrote at issue; a word that is skipped wrote none (R120). Of a special
register of 64 bits the low half is seen (log 26). -/
def destSeen (c : Ctx) (now : Nat) (i : Instr) (h : Gang) : List Seen :=
  let act := c.active now (formOf i).mask
  let lanes := if perPass i then act else c.lanes &&& ~~~ c.skip
  let n := if pairDest i then 2 else 1
  if c.skipped (masksLanes i) then []
  else match (formOf i).dest with
  | some (.v r) => (List.range n).flatMap (fun j => (laneList act).map (fun k =>
      { kind := 0, lane := k, addr := BitVec.ofNat 64 (r.toNat + j), old := c.gang.rawV (r.toNat + j) k
        new := h.rawV (r.toNat + j) k : Seen }))
  | some (.s r) => if r = 0 then [] else (List.range n).map (fun j =>
      { kind := 0, lane := 128, addr := BitVec.ofNat 64 (256 + r.toNat + j), old := c.gang.rawS (r.toNat + j)
        new := h.rawS (r.toNat + j) })
  | some (.m r) => (laneList lanes).map (fun k =>
      { kind := 0, lane := k, addr := BitVec.ofNat 64 (0x390 + r.toNat), old := laneBit (c.gang.rawM r.toNat) k
        new := laneBit (h.rawM r.toNat) k })
  | some .em => (laneList lanes).map (fun k =>
      { kind := 0, lane := k, addr := 0x380, old := laneBit c.gang.em k, new := laneBit h.em k })
  | some (.sr r) => match c.gang.swrValue r, h.swrValue r with
    | some x, some y => [{ kind := 0, lane := 128, addr := BitVec.ofNat 64 (encOpd (.sr r)).toNat, old := loHalf x, new := loHalf y }]
    | _, _ => []
  | _ => []

/-- The bits of `em` that a control word has moved: at a `brv`, `join`, `exit` or `rte` (R45, R117, R121, R199). -/
def emSeen (c : Ctx) (i : Instr) (h : Gang) : List Seen :=
  match i with
  | .brv _ | .join _ | .exit _ | .rte _ => (laneList ((c.gang.em ^^^ h.em) &&& h.present)).map (fun k =>
      { kind := 0, lane := k, addr := 0x380, old := laneBit c.gang.em k, new := laneBit h.em k })
  | _ => []

/-- VALUE of a trace record: the destination element of the lowest active lane (R298). -/
def traceValue (l : List Seen) (act : Lanes) : W32 :=
  match l.find? (fun e => e.lane == 128 || e.lane == lowLane act) with
  | some e => e.new
  | none => 0

/-! ## Register data that a word reads (R209) -/

/-- B is 32 bits wide whatever TYPE is. -/
def narrowB : Instr → Bool
  | .sshl _ | .sshr _ | .ssra _ | .sbfe _ | .vshl _ | .vshr _ | .vsra _ | .vbfe _ | .vshrr _ | .vshfl _ | .vshflx _ | .vslide _
  | .vbcast _ => true
  | _ => false

/-- Is a word gang-collective, so that it issues after the wait of R50? -/
def isColl (i : Instr) : Bool :=
  match i, formOf i with
  | .commit _, _ | .commitc _, _ | .abort _, _ | .gangAll _, _ => true
  | .bara f, _ | .bars f, _ => FmtY.barCommit f
  | _, .a3 f => f.gang
  | _, .f2 f => f.gang
  | _, .a2 f => f.gang
  | _, .a2s f => f.gang
  | _, .a3s f => f.gang
  | _, .cv f => f.gang
  | _, .i f => f.gang
  | _, .m f => f.gang
  | _, _ => false

/-- Base and offset registers of an address (R152). -/
def addrSources (base : BitVec 9) (voff : Option (BitVec 8)) : List (Opd × Nat) :=
  (.s base, 2) :: (voff.map (fun v => (Opd.v v, 1))).toList

/-- Source operands of a word, each with how many of its registers the word reads at issue (R84). -/
def Ctx.sources (c : Ctx) (now : Nat) (i : Instr) : List (Opd × Nat) :=
  let w := c.gang.measure
  let n (t : Ty) : Nat := if t.is64 then 2 else 1
  match i with
  | .vmad f | .vfma f => [(f.a, n f.ty), (f.b, n f.ty), (f.c, n f.ty)]
  | .launch f => [(f.a, 2)]
  | .sigop f => (f.a, 2) :: (if f.sel = 2 then [] else [(f.b, 2)])
  | .swr f => [(f.a, match f.dst with
      | .sr .tvec | .sr .tval | .sr .tret => 2
      | _ => 1)]
  | .ret f => [(f.a, 2)]
  | .st f | .sts f => (f.dst, n f.ty) :: addrSources f.base f.voff
  | .atomcas f => (f.dst, n f.ty) :: (f.b, n f.ty) :: addrSources f.base f.voff
  | .mma f | .mmac f => [(f.a, aRegs w false), (f.b, 1), (f.c, 2)]
  | .mmag f => [(f.a, aRegs w false), (f.b, 1), (f.c, 2), (f.e, 1)]
  | .mmas f => [(f.a, aRegs w true), (f.b, 1), (f.c, 2), (f.e, 2)]
  | .qhist f => [(f.a, c.gang.scalar32 now f.b), (f.b, 1)]
  | .qscale f => [(f.b, 1)]
  | .qcvt f => [(f.a, qcvtSrcRegs w (qcvtSel f).1 (qcvtSel f).2.1), (f.b, 1), (f.c, 1)]
  | .qclr _ => []
  | .sigrmw f => (f.a, 2) :: (if bits f.sel.toNat 1 0 = 2 then [] else [(f.b, 2)])
  | .qsave f | .qload f => [(f.a, 2)]
  | .wpset f => [(f.a, 1), (f.b, 8)]
  | .rqlist f => [(f.a, 1), (f.b, 1)]
  | .rqfill f => [(f.dst, 2), (f.a, 1), (f.b, 1)]
  | .rqgather f | .rqscatter f => [(f.dst, 2), (f.a, 2), (f.b, 1), (f.c, 1)]
  | .rqputs f | .rqred f => [(f.dst, 2), (f.a, 2), (f.b, 1), (f.c, 4)]
  | _ => match formOf i with
    | .a3 f => [(f.a, n f.ty), (f.b, if narrowB i then 1 else n f.ty), (f.c, 1)]
    | .f2 f => [(f.a, n f.ty), (f.b, n f.ty)]
    | .a2 f => [(f.a, n f.ty), (f.b, if narrowB i then 1 else n f.ty)]
    | .a2s f => [(f.a, n f.ty), (f.b, n f.ty)]
    | .a3s f => [(f.a, n f.ty), (f.b, 1), (f.c, 1)]
    | .cv f => [(f.a, if f.sty.is64 then 2 else 1)]
    | .s f => [(f.a, n f.ty), (f.b, if narrowB i then 1 else n f.ty), (f.c, 1)]
    | .b f => [(f.a, 1)]
    | .k f => [(f.a, 1)]
    | .m f => addrSources f.base f.voff
    | .ma f => (f.b, n f.ty) :: addrSources f.base f.voff
    | .y f => [(f.a, 1), (f.b, 1)]
    | .q f => [(f.a, 1), (f.b, 1), (f.c, 1)]
    | .rq f => [(f.dst, 2), (f.a, 2), (f.b, 1)]
    | _ => []

/-- Keys of the register elements of a source in some lanes. -/
def sourceKeys (lanes : Lanes) (e : Opd × Nat) : List Nat :=
  match e.1 with
  | .v r => (List.range e.2).flatMap (fun j => (laneList lanes).map (vKey (r.toNat + j)))
  | .s r => if r = 0 then [] else (List.range e.2).map (fun j => sKey (r.toNat + j))
  | .m r => (List.range 4).map (mKey r.toNat)
  | .em => (List.range 4).map (mKey 16)
  | _ => []

/-- Does the word read a register element in which an uncorrectable error stands (R209)? A gang-collective word issues only after
its wait. -/
def Ctx.readsBad (c : Ctx) (s : State) (i : Instr) : Bool :=
  let bad := s.bad.filterMap (fun d => match d with
    | .reg g k => if g = c.uid then some k else none
    | _ => none)
  let lanes := if c.run.header.cls == .matrix then c.gang.present else c.active s.now (formOf i).mask
  let mask : Opd := match (formOf i).mask with
    | .m n => .m n
    | .em => .em
  !bad.isEmpty && !c.skipped (masksLanes i) && (c.run.collected || !isColl i) &&
    ((if perPass i then [(mask, 1)] else []) ++ c.sources s.now i).any (fun e => (sourceKeys lanes e).any bad.contains)

/-! ## What the issue came to -/

def Gang.heldFault (g : Gang) : Bool := g.guest.any (fun q => q.held.isSome)

/-- Has the word executed: the group stands behind it, and no fault was taken? -/
def Ctx.passed (c : Ctx) (h : Gang) : Bool :=
  !(h.trap.isSome && c.gang.trap.isNone) && h.latched.length == c.gang.latched.length &&
    (h.heldFault == c.gang.heldFault) && (match h.group? c.slice with
      | some r => match r.run with
        | some u => u.idx != c.run.idx
        | none => true
      | none => true)

/-! ## The lane-cycle record (R301, R302) -/

/-- The range that holds an address: the lowest-numbered. -/
def LaneCycle.range? (l : LaneCycle) (pc : W64) : Option Nat :=
  (List.range 16).find? (fun k => (Store.getD l.base k 0).toNat ≤ pc.toNat && pc.toNat < (Store.getD l.lim k 0).toNat)

def LaneCycle.add (l : LaneCycle) (k cls n : Nat) : LaneCycle :=
  { l with cnt := Store.putD 0 l.cnt (5 * k + cls) (Store.getD l.cnt (5 * k + cls) 0 + BitVec.ofNat 64 n) }

def LaneCycle.counts (l : LaneCycle) (pasid : Nat) : Bool := l.ctl.getLsbD 20 && l.ctl.toNat % 2 ^ 20 == pasid

/-- Slices of a list by passes of four (R46). -/
def passesOf : Nat → List Nat → List (List Nat)
  | 0, _ => []
  | n + 1, l => if l.isEmpty then [] else l.take 4 :: passesOf n (l.drop 4)

/-- Replays of one pass in local memory (R156): the most distinct words in one bank, at least one. -/
def replays (words : List Nat) : Nat :=
  (List.range 32).foldl (fun m b => max m ((uniq words).filter (fun w => w % 32 == b)).length) 1

/-- The local words that one pass of a format M or MA word touches. -/
def State.localWords (s : State) (c : Ctx) (i : Instr) (lanes : Lanes) : List Nat :=
  let words (l : List (Nat × W64)) (n : Nat) : List Nat := l.flatMap (fun e =>
    match s.reach (c.gang.party s) .plain false e.2 n n e.1 with
    | .at a => match homeOf a with
      | .local _ => (List.range (if n = 8 then 2 else 1)).map (fun k => (a - localBase) % 2 ^ 19 / 4 + k)
      | _ => []
    | _ => [])
  match formOf i with
  | .m f => words (c.addrsM s.now f lanes) f.ty.bytes
  | .ma f => words ((laneList lanes).map (fun k => (k, c.gang.effAddr s.now f.base f.voff 0 k))) f.ty.bytes
  | _ => []

/-- One pass counted in its range: active, divergence, predicated, absent, idle; `gone` slices that have exited ride in it
(R51; log 28). -/
def State.countPass (s : State) (c : Ctx) (i : Instr) (k gone : Nat) (l : LaneCycle) (slices : List Nat) : LaneCycle :=
  let all := slices.foldl (fun a x => a ||| lanesOfSlice x) (0 : Lanes)
  let here := all &&& c.lanes &&& lanesOf c.gang.live
  let act := here &&& c.active s.now (formOf i).mask
  let n := replays (if perPass i then s.localWords c i act else [])
  let div := laneCount (here &&& ~~~ c.gang.em)
  let a := laneCount act
  let live := laneCount here
  let room := 8 * (slices.length + gone)
  (((((l.add k 0 (n * a)).add k 1 (n * div)).add k 2 (n * (live - div - a))).add k 3 (n * (room - live))).add k 4 (n * (32 - room)))

/-- The passes of a word (R46): a scalar form counts as one (R302). -/
def Ctx.passes (c : Ctx) (i : Instr) : List (List Nat) :=
  let ps := passesOf 4 (sliceList (c.grp.slices &&& c.gang.live))
  if perPass i then ps else ps.take 1

/-- Clocks in which a word issues: its passes and their replays (R46, R156). -/
def State.wordClocks (s : State) (c : Ctx) (i : Instr) : Nat :=
  let n := (c.passes i).foldl (fun n p =>
    let all := p.foldl (fun a x => a ||| lanesOfSlice x) (0 : Lanes)
    n + replays (if perPass i then s.localWords c i (all &&& c.active s.now (formOf i).mask) else [])) 0
  max 1 n

/-- The word that the port issued, kept for the slots in which it issues nothing (R302). -/
def Part.issued (p : Part) (port : Nat) (w : LastWord) : Part := if port = 0 then { p with last0 := some w } else { p with last1 := some w }

/-- The issue slots of a word. -/
def State.countIssue (s before : State) (c : Ctx) (i : Instr) : State :=
  let key := c.gang.coreKey
  let pasid := c.gang.pasid before
  let s := s.updPart key c.gang.part (fun p => p.issued (c.run.port.getD 0) ⟨pasid, c.pc⟩)
  match s.core? key with
  | none => s
  | some k =>
    if !k.lc.counts pasid then s
    else match k.lc.range? c.pc with
      | none => s
      | some r =>
        let ps := c.passes i
        s.setCore { k with lc := (ps.mapIdx (fun j p => (j, p))).foldl (fun (l : LaneCycle) e =>
          before.countPass c i r (if e.1 + 1 = ps.length then min (4 - e.2.length) (sliceCount c.gang.exited) else 0) l e.2) k.lc }

/-! ## Trace records -/

/-- The groups of 32 lanes for which a word has a record each (R298). -/
def Ctx.windows (c : Ctx) (i : Instr) : List Nat :=
  let ps := (List.range 4).filter (fun p => (lanesOf (c.grp.slices &&& c.gang.live) &&& ((0xFFFFFFFF : Lanes) <<< (32 * p))) != 0)
  if perPass i then ps else ps.take 1

/-- The records of a word, one for each 32 lanes its group reaches, in their place before what the word itself recorded. -/
def State.traceIssue (s before : State) (c : Ctx) (i : Instr) (seen : List Seen) : State :=
  match c.gang.place with
  | .guest core gslot _ =>
    if !before.tracing core gslot || !before.hasSink (c.gang.pasid before) then s
    else
      let act := c.active before.now (formOf i).mask
      let win (p : Nat) : Lanes := (0xFFFFFFFF : Lanes) <<< (32 * p)
      let recs := (c.windows i).map (fun p =>
        { dom := c.gang.pasid before, pc := c.pc
          clock := BitVec.ofNat 64 (if c.gang.det before then before.launchClock c.gang else before.clockOf core)
          lanes := BitVec.ofNat 32 (act.toNat / 2 ^ (32 * p)), val := traceValue seen (act &&& win p)
          block := BitVec.ofNat 32 (((before.block? c.gang.block).map (fun b => b.blockid)).getD 0)
          gang := BitVec.ofNat 8 c.gang.gangid, kind := 0, info := BitVec.ofNat 8 (gslot * 64 + p * 16) : TraceRec })
      let n := ((before.proof? core).map (fun p => p.trace.length)).getD 0
      s.updProof core (fun (p : Proof) => { p with trace := p.trace.take n ++ recs ++ p.trace.drop n })
  | _ => s

/-- Has the guest's trace buffer no room for the records of its next word, so that it stalls (R298)? -/
def State.traceFull (s : State) (c : Ctx) (i : Instr) : Bool :=
  match c.gang.place with
  | .guest core gslot _ =>
    s.tracing core gslot && s.traceShort core (c.windows i).length
  | _ => false

/-! ## Before the word -/

/-- The lowest PC comparator that matches the word a guest is about to issue (R295 to R297). -/
def State.pcUnit (s : State) (c : Ctx) : Option (Nat × Nat × Nat) :=
  match c.gang.place with
  | .guest core gslot _ =>
    if c.run.unmatched || c.run.replaying || c.run.collected || c.run.holding then none
    else match s.proof? core with
      | none => none
      | some p =>
        let queue := ((c.gang.grid? s).map (fun x => x.queue)).getD 0
        (p.pcs.find? (fun w => w.2.admits c.gang (c.gang.pasid s) queue && w.2.lo == c.pc)).map (fun w => (core, gslot, w.1))
  | _ => none

/-- PC triggers see the word (R289). -/
def State.beforeWord (s : State) (c : Ctx) : State :=
  if c.run.replaying || c.run.collected || c.run.holding then s else s.fireTriggers c.uid 0 (fun t => t.addr == c.pc)

/-- A guest halted by a debug event stands before its word, its port given up (R295). -/
def State.standStill (s : State) (c : Ctx) : State := s.updGang c.uid (fun g => match g.group? c.slice with
  | some r => g.setGroup r.standBy
  | none => g)

/-! ## After the word -/

/-- A guest's `waitcnt` that does not pass holds its clause from here on (R313). -/
def State.startHold (s : State) (c : Ctx) (i : Instr) (h : Gang) : Bool × State :=
  let starts : Bool := match i, h.group? c.slice with
    | .waitcnt _, some r => h.isGuest && !c.run.holding && r.status == .running && r.at? == c.pc
    | _, _ => false
  (starts, if starts then s.updGang c.uid (fun g => match g.group? c.slice with
    | some r => g.setGroup { r with run := r.run.map (fun (u : Run) => { u with holding := true }) }
    | none => g) else s)

/-- Has the word yet to issue: it waits for its pages (log 57), or its group for the others of a collective word (R50)? -/
def Ctx.awaits (c : Ctx) (h : Gang) : Bool :=
  (h.group? c.slice).any (fun r => (r.status == .waitAts || r.status == .heldColl) && r.run.isSome && r.at? == c.pc)

/-- Has the word issued, though its group stays at it: some lanes are pending, or it is an abort that is held (R172, R206)? -/
def Ctx.issuedHere (c : Ctx) (h : Gang) : Bool :=
  match h.group? c.slice with
  | some r => (match r.status with
    | .parked | .heldAbort _ _ => r.at? == c.pc
    | _ => false)
  | none => false

/-- The next word of the group issues after the clocks of this one, in a deterministic launch (log 23). -/
def State.spendClocks (s before : State) (c : Ctx) (i : Instr) : State :=
  if !c.gang.det before then s
  else s.updGang c.uid (fun g => match g.group? c.slice with
    | some r => g.setGroup { r with nextClock := before.launchClock c.gang + before.wordClocks c i }
    | none => g)

/-- What the instruments see of a word: its trace record, the watchpoints of a guest, the lane-cycle record, in which a `waitcnt`
that has held counts once, and the clocks of its launch. -/
def State.recordWord (s before : State) (c : Ctx) (i : Instr) (traced guest : Bool) (seen moved : List Seen) : State :=
  let s := if traced then s.traceIssue before c i seen else s
  let s := if guest then s.watchSees c.uid none c.pc none (seen ++ moved) else s
  (if c.run.holding then s else s.countIssue before c i).spendClocks before c i

/-- A guest that an event of the word has halted stands still, but for a `waitcnt` that is held from here on (R313). -/
def State.stillHalted (s : State) (c : Ctx) (held : Bool) : State :=
  match s.gang? c.uid with
  | some g => if g.halted && !held then s.standStill c else s
  | none => s

/-- What follows the execution of a word; one that does not issue yet leaves nothing, and a replay has its record already
(R298). -/
def State.wordDone (s before : State) (c : Ctx) (i : Instr) : State :=
  match s.gang? c.uid with
  | none => s
  | some h =>
    let done := c.passed h
    let stays := before.gang? c.uid == some h
    let late := s.nextOp != before.nextOp
    let seen := if done && !late then destSeen c before.now i h else []
    let moved := if done then emSeen c i h else []
    let hold := if done then (false, s) else s.startHold c i h
    let traced := ((done || c.issuedHere h) && !c.run.holding && !c.run.replaying) || hold.1
    if (stays || c.awaits h) && !hold.1 then s
    else ((hold.2.recordWord before c i traced h.isGuest seen moved).stillHalted c hold.1).endStep c.uid c.slice

/-! ## The issue -/

/-- ISSUE of the next word of a group (R19, R188); a word that reads an uncorrectable register datum faults instead (R209). -/
def State.issueNext (s0 : State) (uid slice : Nat) : Host.Outcome State Fault Refusal :=
  let s : State := { s0 with cur := some (uid, slice) }
  match s.ctx? with
  | none => .next s0
  | some c =>
    match c.run.words[c.run.idx]? with
    | none => .next s0
    | some w => match decodeWord c.run.header.cls w with
      | .error _ => .next s0
      | .ok i =>
        if c.gang.halted && !c.run.holding then .next (s.standStill c)
        else if !c.run.holding && s.traceFull c i then .next s0
        else match s.pcUnit c with
          | some (core, gslot, unit) =>
            .next ((s.updGang uid (fun g => g.haltGuest slice c.pc)).addEvent core
              { kind := 1, unit := unit, gslot := gslot, gang := uid, pc := c.pc, addr := 0, halt := c.pc, val := 0, clock := 0 })
          | none =>
            let s := s.beforeWord c
            match Sys2Proof.Machine.exec i s with
            | .next t =>
              .next ((if c.readsBad s i then s.takeFault uid slice (c.raise .uncorrectable c.pc) else t).wordDone s c i)
            | .fault f => .fault f
            | .refused r => .refused r

/-- The order in which groups of a gang issue in one clock: that of the higher lowest slice first, each once (R105, R191). -/
def Gang.issueOrder (g : Gang) (ks : List Nat) : List Nat :=
  match ks with
  | [k] => [k]
  | _ => (List.range 16).reverse.filterMap (fun low => ks.find? (fun k => (g.group? k).any (fun r => lowSlice r.slices == low)))

/-- The issues of one clock: the next words of groups of a gang in their order, then the landing of one of its operations (R105,
R131, R191). -/
def State.issueClock (s : State) (uid : Nat) (ks : List Nat) (land : Option Nat) : Host.Outcome State Fault Refusal :=
  match s.gang? uid with
  | none => .next s
  | some g =>
    match (g.issueOrder ks).foldl (fun (o : Host.Outcome State Fault Refusal) k => match o with
      | .next t => t.issueNext uid k
      | x => x) (.next s) with
    | .next t => match land with
      | some id => Sys2Proof.Machine.execLand uid id t
      | none => .next t
    | x => x

end Sys2Proof.Machine
end

