-- ==== Sys2Proof/Machine/Schedule.lean ====
section
/-!
DEFINITION. A choice as it is taken (R19), and the schedule of a deterministic launch (R21, R59, R60, R195): of its transitions the
first that changes the state is taken, in a fixed order, and its launch clock runs on only when none is left (log 23).
-/
namespace Sys2Proof.Machine

/-! ## A choice as such -/

/-- The transitions that a device stopped for its temperature still takes: the pre-emption of every context runs to its end, and a
new start or a loss of power may come; else it stands (R339; log 31). -/
def whileHalted : Instr → Bool
  | .grant _ | .resolve _ _ | .land _ _ | .atomic _ _ _ | .deliver _ _ _ | .mstart _ _ | .rqmove _ _ _ | .rqsignal _ _
  | .rqlistBlockFetch _ | .childLaunch _ _ | .dueClock _ | .phase _ _ | .arrivalMessage _ | .releaseMessage _
  | .atsCompletion _ _ _ | .priResponse _ _ _ | .invalidation _ _ _ | .invalidationCompletion _ _ _ | .contextSave _
  | .tempRefresh _ _ | .functionLevelReset | .powerOnStart _ | .powerLoss _ => true
  | _ => false

/-- What a choice comes to: groups of one gang issue in one clock, or a named transition is taken. -/
def State.act (s : State) : Choice → Host.Outcome State Fault Refusal
  | .issue g ks land => s.issueClock g ks land
  | .event i => if i.cls.isSome || (s.thermal && !whileHalted i) then .next s else Sys2Proof.Machine.exec i s

/-- Does a choice change anything, the current group aside? -/
def State.acts (s : State) (c : Choice) : Bool :=
  match s.act c with
  | .next t => { t with cur := s.cur } != s
  | _ => true

/-! ## Whose transition is it? -/

/-- The deterministic launch that a grid belongs to. -/
def Grid.detRoot (gr : Grid) : Option Nat := if gr.desc.det then some gr.root else none

def State.gridRoot (s : State) (uid : Nat) : Option Nat := (s.grid? uid).bind Grid.detRoot
def State.blockRoot (s : State) (uid : Nat) : Option Nat := (s.block? uid).bind (fun b => s.gridRoot b.grid)
def State.clusterRoot (s : State) (uid : Nat) : Option Nat := (s.cluster? uid).bind (fun c => s.gridRoot c.grid)
def State.gangRoot (s : State) (uid : Nat) : Option Nat := (s.gang? uid).bind (fun g => s.blockRoot g.block)

/-- The launch whose schedule an operation follows: none where it holds no due clock (R61). -/
def State.opRoot (s : State) (uid id : Nat) : Option Nat :=
  match ((s.gang? uid).bind (fun g => g.op? id)).map (fun o => o.due) with
  | some none => none
  | _ => s.gangRoot uid

/-- The launch whose schedule the oldest grant of a gang follows. -/
def State.grantRoot (s : State) (uid : Nat) : Option Nat :=
  match ((s.gang? uid).bind (fun g => g.dlist.head?)).map (fun d => d.due) with
  | some none => none
  | _ => s.gangRoot uid

/-- The launch whose clause or merge an arbitration of a port serves. -/
def State.portRoot (s : State) (core part port : Nat) : Option Nat :=
  match s.winner core part port with
  | some c => s.gangRoot c.gang.uid
  | none => ((s.gangs.find? (fun g => s.schedAt g == (core, part))).map (fun g => g.uid)).bind s.gangRoot

/-- The launch whose block an imposer places next. -/
def State.placeRoot (s : State) (die : Nat) : Option Nat :=
  match s.gridOrder.find? (fun gr => s.afterBad gr die) with
  | some gr => gr.detRoot
  | none => (s.nextUnit die).bind (fun u => u.1.detRoot)

/-- The deterministic launch whose transition a choice names. -/
def State.rootOf (s : State) : Choice → Option Nat
  | .issue g _ _ => s.gangRoot g
  | .event i => match i with
    | .merge g | .joinRelease g | .collectiveWaitEnd g | .gangRetire g | .trapEntry g | .pull g | .guestReturn g
    | .arrivalMessage g | .releaseMessage g => s.gangRoot g
    | .grant g => s.grantRoot g
    | .resolve g o | .land g o | .childLaunch g o | .atomic g o _ => s.opRoot g o
    | .cabort lvl uid => if lvl.rank = 1 then s.blockRoot uid else s.clusterRoot uid
    | .phase owner bar => (s.ownerBlock owner bar).bind (fun b => s.gridRoot b.grid)
    | .blockRetire b | .blockCompletionEvent b | .contextSave b => s.blockRoot b
    | .clusterRetire c => s.clusterRoot c
    | .quantumExpiry gr => s.gridRoot gr
    | .dueClock r => s.gridRoot r
    | .blockPlace die => s.placeRoot die
    | .blockRestore die => (s.nextUnit die).bind (fun u => u.1.detRoot)
    | .clauseStart core part port => s.portRoot core part port
    | .mstart core part => (s.startEntry core part).bind (fun e => s.opRoot e.2.1 e.2.2)
    | .rqmove core req _ | .rqsignal core req => (s.reqEntry core req (fun _ _ => true)).bind (fun x => s.opRoot x.1 req)
    | .rqlistBlockFetch core => (s.reqHead core).bind (fun x => s.opRoot x.1 x.2.2.1.id)
    | _ => none

/-! ## The order of a launch's transitions at one launch clock -/

/-- The gangs of a launch in ascending `%gangid`, then `%blockid` (R59). -/
def State.detGangs (s : State) (root : Nat) : List Gang :=
  let gs := s.rootGangs root
  let key (uid : Nat) : Nat := match gs.find? (fun g => g.uid == uid) with
    | some g => g.gangid * 2 ^ 32 + ((s.block? g.block).map (fun b => b.blockid)).getD 0
    | none => 0
  (sortBy key (gs.map (fun g => g.uid))).filterMap s.gang?

/-- The groups of a gang, that of the highest lowest slice first (R191). -/
def Gang.detGroups (g : Gang) : List Group :=
  (List.range 16).reverse.filterMap (fun low => g.liveGroups.find? (fun r => lowSlice r.slices == low))

/-- What goes on first, as the launch clock has stood since: groups that gave up their ports take them again, and lanes whose
translation has come execute their word (log 23). -/
def State.detReplays (s : State) (gs : List Gang) : List Choice :=
  gs.flatMap (fun g => (g.detGroups.filter (fun r => r.turn = 0)).flatMap (fun r => match r.status with
    | .ready => [0, 1].map (fun port => .event (.clauseStart (s.schedAt g).1 (s.schedAt g).2 port))
    | .running => [.issue g.uid [lowSlice r.slices] none]
    | _ => []))

/-- The words that issue at a launch clock. -/
def State.detIssues (gs : List Gang) (clock : Nat) : List Choice :=
  gs.flatMap (fun g => (g.detGroups.filter (fun r => r.status == .running && r.nextClock ≤ clock)).map (fun r =>
    .issue g.uid [lowSlice r.slices] none))

/-- Landings that have a due clock. -/
def State.detLands (gs : List Gang) : List Choice :=
  gs.flatMap (fun g => (g.ops.filter (fun o => o.due.isSome)).map (fun o => .event (.land g.uid o.id)))

/-- The blocks and cluster launches of a launch. -/
def State.rootBlocks (s : State) (root : Nat) : List Block := s.blocks.filter (fun b => s.gridRoot b.grid == some root)
def State.rootClusters (s : State) (root : Nat) : List Cluster := s.clusters.filter (fun c => s.gridRoot c.grid == some root)

/-- Traps, releases, arrivals and retirements, and then the phases (R185). -/
def State.detSettles (s : State) (root : Nat) (gs : List Gang) : List Choice :=
  let per (f : Nat → Instr) : List Choice := gs.map (fun g => .event (f g.uid))
  let bs := s.rootBlocks root
  let cs := s.rootClusters root
  per .trapEntry ++ per .joinRelease ++ per .collectiveWaitEnd ++
    bs.map (fun b => .event (.cabort .block b.uid)) ++ cs.map (fun c => .event (.cabort .cluster c.uid)) ++
    per .arrivalMessage ++ per .gangRetire ++
    bs.flatMap (fun b => blockBars.map (fun n => .event (.phase b.uid n))) ++
    cs.flatMap (fun c => clusterBars.map (fun n => .event (.phase c.uid n))) ++
    bs.flatMap (fun b => gridBars.map (fun n => .event (.phase b.grid n))) ++
    per .releaseMessage ++
    bs.map (fun b => .event (.blockRetire b.uid)) ++ cs.map (fun c => .event (.clusterRetire c.uid)) ++
    bs.map (fun b => .event (.blockCompletionEvent b.uid))

/-- Moves to a proof core and home, which no clock of the launch sees (R62). -/
def State.detMoves (gs : List Gang) : List Choice :=
  gs.map (fun g => .event (.guestReturn g.uid)) ++ gs.map (fun g => .event (.pull g.uid))

/-- The restores of what a launch waits for. -/
def State.detRestores (s : State) (root : Nat) : List Choice :=
  ([0, 1, 2, 3].filter (fun d => (s.nextUnit d).any (fun u => u.1.detRoot == some root))).map (fun d => .event (.blockRestore d))

/-- Placements and time-slicing. -/
def State.detPlaces (s : State) (root : Nat) : List Choice :=
  let dies := [0, 1, 2, 3]
  (dies.filter (fun d => s.placeRoot d == some root)).map (fun d => .event (.blockPlace d)) ++ s.detRestores root ++
    (s.grids.filter (fun x => x.detRoot == some root)).map (fun x => .event (.quantumExpiry x.uid))

/-- The arbitrations of the ports on which the launch runs. -/
def State.detStarts (s : State) (root : Nat) (gs : List Gang) : List Choice :=
  (coreKeys.filter (fun k => gs.any (fun g => (s.schedAt g).1 == k))).flatMap (fun k => (List.range (partsOf k)).flatMap (fun p =>
    ([0, 1].filter (fun q => s.portRoot k p q == some root)).map (fun q => .event (.clauseStart k p q))))

/-- Does a guest find its trace buffer full, for the word that a group is to issue or for its retirement (R298)? -/
def State.stalls (s : State) (g : Gang) : Bool :=
  (g.live == 0 && !g.retired && s.recordWaits g) || g.groups.any (fun r => r.status == .running && (match State.ctx? { s with cur := some (g.uid, lowSlice r.slices) } with
    | some c => (c.run.word?).any (s.traceFull c)
    | none => false))

/-- The blocks of a launch that stand on their cores, of grids that have not ended (R202). -/
def State.liveBlocks (s : State) (root : Nat) : List Block :=
  (s.rootBlocks root).filter (fun b => b.stage == .resident && (s.grid? b.grid).any (fun gr => !gr.stopped))

/-- Is the launch clock stopped, and the launch with it: a block is being pre-empted, or saved ones are still to be restored (R60,
R210); a guest stands halted, or stalls for its trace (R298, R310); a group waits for a translation (log 23)? -/
def State.rootHeld (s : State) (root : Nat) : Bool :=
  let bs := s.liveBlocks root
  s.rootAwaits root || bs.any (fun b => b.preempt || (s.gangsOf b.uid).any (fun g =>
    g.halted || s.stalls g || g.groups.any (fun r => r.status == .waitAts || r.status == .parked)))

/-- What a stopped launch still takes: effects that are due at its clock and have no words before them, moves, saves and restores. -/
def State.heldCands (s : State) (root : Nat) (gs : List Gang) : List Choice :=
  (if s.wordsLeft root then [] else [.event (.dueClock root)]) ++ State.detMoves gs ++
    (s.rootBlocks root).map (fun b => .event (.contextSave b.uid)) ++ s.detRestores root

/-- Is work of a launch late, so that its clock stands: an effect that is due waits for a translation, or a block's completion
event (R60)? -/
def State.late (s : State) (root clock : Nat) : Bool := (s.firstDue root).any (fun d => d.due ≤ clock)

def State.eventLeft (s : State) (root : Nat) : Bool :=
  (s.rootBlocks root).any (fun b => b.stage == .exited && b.children == 0 && s.clusterDone b.cluster)

/-- The transitions of a launch at its launch clock, in the order in which they are taken: what is late holds back those behind
(log 23). -/
def State.detCands (s : State) (root : Nat) : List Choice :=
  let gs := s.detGangs root
  let clock := ((s.root? root).map (fun r => r.clock)).getD 0
  if s.rootHeld root then s.heldCands root gs
  else
    State.detMoves gs ++ s.detReplays gs ++ State.detIssues gs clock ++ [.event (.dueClock root)] ++
      (if s.late root clock then []
      else State.detLands gs ++ s.detSettles root gs ++
        (if s.eventLeft root then [] else s.detPlaces root ++ s.detStarts root gs))

/-- The transition that a launch takes next. -/
def State.detNext (s : State) (root : Nat) : Option Choice := (s.detCands root).find? s.acts

/-! ## The choice that is taken -/

/-- A choice is taken as it is; one that names a transition of a deterministic launch stands for the launch's next (R21). -/
def State.settle (s : State) (c : Choice) : Option Choice :=
  match s.rootOf c with
  | none => some c
  | some r => s.detNext r

/-- The choice is taken. -/
def State.take (s : State) (c : Choice) : Host.Outcome State Fault Refusal :=
  match s.settle c with
  | some c => s.act c
  | none => .next s

/-! ## The launch clock (R59, R60) -/

/-- May a launch clock run: a block of the launch is resident, nothing holds the launch, no finished block waits for its completion,
and power management has not stopped it (R59, R339). -/
def State.clockRuns (s : State) (r : Root) : Bool :=
  !r.stopped && (s.rootBlocks r.grid).any (fun b => b.stage == .resident) && !s.rootHeld r.grid && !s.eventLeft r.grid

/-- The launches that have a transition to take at their launch clock. -/
def State.movers (s : State) : List Nat := (s.roots.filter (fun r => (s.detNext r.grid).isSome)).map (fun r => r.grid)

/-- Is a launch clock about to advance: nothing of the launch is left to take at it, and the work of no operation is late? -/
def State.clockTurns (s : State) (r : Root) : Bool := s.clockRuns r && !s.late r.grid r.clock

end Sys2Proof.Machine
end

