-- ==== Sys2Proof/Machine/Time.lean ====
section
/-!
DEFINITION. What a step adds around the transition it takes: the clocks of R59, R126 and R328, the idle issue slots of R302, the
ready times of R340, the lines that leave the device cache (R341), and the choice of what moves next (R19); and a machine that
holds one word to issue.
-/
namespace Sys2Proof.Machine

/-! ## What moves next (R19) -/

/-- The head of the agenda, else a free choice: next words of groups of a gang, or a named transition. -/
def State.choose (s : State) : Choice :=
  match s.agenda with
  | c :: _ => c
  | [] => match Config.freeIssue s.now with
    | some (g, ks, land) => .issue g ks land
    | none => .event (Config.freeEvent s.now)

/-- The agenda without its head. -/
def State.dropHead (s : State) : State := { s with agenda := s.agenda.drop 1 }

/-! ## Idle issue slots (R302) -/

/-- Does a group hold a port, or has it run its last clause there? -/
def Group.onPort (r : Group) (port : Nat) : Bool := r.keepOn == some port || r.run.any (fun u => u.port == some port)

/-- Do the passes of a word of a deterministic launch still issue on a port (log 23)? -/
def State.portPasses (s : State) (core part port : Nat) : Bool :=
  s.gangs.any (fun g => g.coreKey == core && g.part == part && g.det s &&
    g.groups.any (fun r => r.onPort port && s.launchClock g < r.nextClock))

/-- Does the next word of a group issue by such a choice? -/
def State.issuesNow (s : State) (c : Ctx) : Bool :=
  match s.act (.issue c.uid [c.slice] none) with
  | .next t => { t with cur := s.cur } != s && !(t.gang? c.uid).any c.awaits
  | _ => false

/-- The issue slots that a choice takes on a port: those of the words that issue there by it (R302). -/
def State.portSlots (s : State) (ch : Choice) (core part port : Nat) : Nat :=
  match s.settle ch with
  | some (.issue uid ks _) =>
    (ks.filterMap (fun k => (State.ctx? { s with cur := some (uid, k) }).bind (fun c =>
      if c.gang.coreKey == core && c.gang.part == part && c.run.port == some port && s.issuesNow c then
        c.run.word?.map (s.wordClocks c) else none))).foldl (· + ·) 0
  | _ => 0

/-- n clocks of a port that issues nothing count as idle in the range of the word it last issued, where that is one of the PASID
that counts. -/
def LaneCycle.idle (l : LaneCycle) (last : Option LastWord) (n : Nat) : LaneCycle :=
  match last with
  | none => l
  | some w => match if l.counts w.pasid then l.range? w.pc else none with
    | some k => l.add k 4 (32 * n)
    | none => l

/-- The idle slots of a core's ports in n clocks, of which the transition that is taken leaves some (R302; log 28). -/
def State.idleCounts (s before : State) (ch : Choice) (c : Core) (n : Nat) : LaneCycle :=
  if !c.lc.ctl.getLsbD 20 || n = 0 then c.lc
  else (c.parts.mapIdx (fun k p => (k, p))).foldl (fun (l : LaneCycle) e =>
    [(0, e.2.last0), (1, e.2.last1)].foldl (fun (l : LaneCycle) q =>
      if before.portPasses c.key e.1 q.1 then l else l.idle q.2 (n - s.portSlots ch c.key e.1 q.1)) l) c.lc

/-! ## What spills (R118, R159, R212) -/

/-- Has a gang more entries on a stack than its partition holds (R118)? -/
def Gang.deep (g : Gang) : Bool := g.reconv.any (fun st => 16 < st.length)

/-- The parts of a block's area to which something of its may spill: any line of a gang or block galley may, one of a cluster galley
beyond what the chip holds (R118, R159). -/
def State.spillParts (s : State) (b : Block) : List Nat :=
  (if !b.galley.bytes.isEmpty || (s.gangsOf b.uid).any (fun g => !g.galley.bytes.isEmpty || g.deep) then [2] else []) ++
    (if b.crank = 0 && (s.cluster? b.cluster).any (fun c => 16384 < (linesOf c.galley.bytes).length) then [3] else [])

/-- A page of such a part, any one of them; the cluster part's spilt lines stand behind its record (R212). -/
def Desc.spillPage (d : Desc) (b part pick : Nat) : Nat :=
  let skip := if part = 3 then clusterRecord else 0
  (d.areaAt b part + skip + 4096 * (pick % (((d.areaParts[part]?).getD 0 - skip) / 4096))) % 2 ^ 56

/-- A spill reaches a page of the context area: one without a translation to write is asked for, and no group waits (R212; log 60). -/
def State.spillTo (s : State) (gr : Grid) (b : Block) (part : Nat) : State :=
  let va := gr.desc.spillPage b.blockid part (Config.freeNat s.now (2 ^ 43 + 4 * b.uid + part))
  match s.lookup b.core gr.pasid va with
  | .hit _ _ true => s
  | _ => if s.standing gr.pasid (pageBase 12 va) true then s else s.requestAts (.area b.core gr.uid) gr.pasid va true

/-- What spills in a step: of each block on a core anything may, as the rules give no time (R159; log 60). -/
def State.spill (s : State) : State :=
  s.blocks.foldl (fun (t : State) b => match s.grid? b.grid with
    | some gr =>
      if b.stage != .resident || gr.stopped then t
      else ((s.spillParts b).filter (fun part => Config.freeBit s.now (2 ^ 43 + 4 * b.uid + part))).foldl
        (fun t part => t.spillTo gr b part) t
    | none => t) s

/-! ## A step's passing of time -/

/-- The deterministic launch that holds a core (R61). -/
def State.coreRoot (s : State) (core : Nat) : Option Nat :=
  (s.blocks.find? (fun b => b.stage == .resident && b.core == core && (s.gridRoot b.grid).isSome)).bind (fun b => s.gridRoot b.grid)

/-- Local clocks of a core that pass in a step: at least one (log 8); on a core that a deterministic launch holds one, and none
while the launch takes the transitions of its present clock (R59; log 23). -/
def State.coreClocks (s : State) (movers : List Nat) (core : Nat) : Nat :=
  match s.coreRoot core with
  | none => 1 + Config.freeNat s.now core
  | some r => if movers.contains r then 0 else 1

/-- The launch clock advances by one with the local clocks of its cores, unless it is stopped (R59, R60). -/
def State.turnRoot (s : State) (movers : List Nat) (r : Root) : Root :=
  if !movers.contains r.grid && s.clockTurns r then { r with clock := r.clock + 1 } else r

/-- Does a clock begin for a gang in a step: for one of a deterministic launch, when its launch clock advances? -/
def State.newClock (s : State) (movers : List Nat) (g : Gang) : Bool :=
  match (s.gangRoot g.uid).bind s.root? with
  | some r => !movers.contains r.grid && s.clockTurns r
  | none => true

/-- A gang as a step passes: the ready times of its groups, and the scalars that were written and the sticky bits that were set in the
clock that has ended (R99, R105, R340). -/
def State.tickGang (s : State) (movers : List Nat) (g : Gang) : Gang :=
  { g with
    fresh := if s.newClock movers g then [] else g.fresh
    freshBits := if s.newClock movers g then 0 else g.freshBits
    groups := g.groups.map (s.stampGroup g) }

def EthPort.tick (e : EthPort) (run : Bool) (n frac : Nat) : EthPort :=
  let t := splitNs (((e.total + (if run then n else 0) : Nat)) : Int)
  { e with sec := BitVec.ofNat 48 t.1, ns := t.2, frac := if run then BitVec.ofNat 16 frac else e.frac }

/-- Time passes; any lines may leave the device cache (log 4), any spill may reach its page (log 60), and errors may stand in any data, but for a step that
the agenda gives (log 51). -/
def State.pass (s0 : State) (movers : List Nat) : State :=
  let now := s0.now
  let s := s0.dropCopies (fun a => Config.freeBit now (2 ^ 40 + a / 128))
  { s with
    now := now + 1
    bad := if s0.agenda.isEmpty then Config.freeBad now else s0.bad
    oldLines := if s0.grids.isEmpty then [] else s.oldLines
    ats := s0.spill.ats
    gangs := s.gangs.map (s0.tickGang movers)
    cores := s.cores.map (fun c => { c with clock := c.clock + s0.coreClocks movers c.key })
    roots := s.roots.map (s0.turnRoot movers)
    eth0 := s.eth0.tick s.ready (Config.freeNat now (2 ^ 42)) (Config.freeNat now (2 ^ 42 + 1))
    eth1 := s.eth1.tick s.ready (Config.freeNat now (2 ^ 42 + 2)) (Config.freeNat now (2 ^ 42 + 3)) }

/-- Time passes, and the idle issue slots in it are counted. -/
def State.tick (s0 : State) : State :=
  let movers := s0.movers
  let s := s0.pass movers
  { s with cores := s.cores.map (fun c =>
      { c with lc := s.dropHead.idleCounts s0 s0.choose c (s0.coreClocks movers c.key) }) }

/-! ## A machine that holds one word -/

/-- The number of the records that `withWord` makes. -/
def wordUid : Nat := 16

/-- The launch of a gang that stands in a clause of its own. -/
def wordGrid (core : Nat) : Grid :=
  { uid := wordUid, desc := { emptyDesc with localSize := 2 ^ 16, scratch := 2 ^ 12 }, queue := 0, packet := 0, pasid := 1
    priv := true, parent := none, depth := 1, events := 0, after := 0, die := dieOf core, nextBlock := 1, passed := []
    retired := 0, aborted := false, stopped := false, fault := none, bars := [], root := wordUid, order := wordUid, claims := []
    doomed := false }

def wordBlock (core : Nat) : Block :=
  { uid := wordUid, grid := wordUid, blockid := 0, crank := 0, cluster := wordUid, stage := .resident, core := core
    die := dieOf core, resident := 0, since := 0, preempt := false, sliced := false, awaited := false, galley := Galley.empty, bars := []
    gangs := [wordUid]
    children := 0 }

def wordCluster : Cluster := { uid := wordUid, grid := wordUid, galley := Galley.empty, bars := [], blocks := [wordUid] }

/-- Where a clause of a class runs: a press core, a compositor core, or the debug handler of a proof core (R11). -/
def placeOf : Cls → Place
  | .compositor => .compositor 256
  | .debug => .handler 40
  | _ => .press 0 0

def homeOfCls : Cls → Nat
  | .compositor => 256
  | .debug => 40
  | _ => 0

/-- The code address of the clause. -/
def wordHdr : W64 := 0x10040

/-- A gang whose one group runs a clause with header h and the word w next. -/
def wordGang (h : Header) (w : W64) : Gang :=
  let g := Gang.start wordUid wordUid 0 0 0 32 32 64 (placeOf h.cls) (homeOfCls h.cls, 0) [0] 0x10000 wordHdr 0
  let u : Run :=
    { hdr := wordHdr, header := h, words := [w], idx := 0, port := some 0, next := none, skips := [], allot := none
      collected := false, replaying := false, replay := none, unmatched := false, holding := false, stood := false }
  { g with groups := [{ Group.at 0xF wordHdr with status := .running, run := some u }], flags := flagSet h.fa ||| flagSet h.fb }

/-- The machine with that gang, and its word as the next choice. -/
def State.withWord (s : State) (h : Header) (w : W64) : State :=
  let core := homeOfCls h.cls
  { s with
    gangs := wordGang h w :: s.gangs.filter (fun g => g.uid != wordUid)
    blocks := wordBlock core :: s.blocks.filter (fun b => b.uid != wordUid)
    clusters := wordCluster :: s.clusters.filter (fun c => c.uid != wordUid)
    grids := wordGrid core :: s.grids.filter (fun g => g.uid != wordUid)
    proofs := s.proofs.map (fun (p : Proof) => if p.key == 40 then { p with handler := some wordUid, domain := 1 } else p)
    agenda := [.issue wordUid [0] none] }

/-- The header of a lone press-class word: one word, no flag named. -/
def plainHeader : Header := { cls := .press, count := 1, wait := 0, fa := some 0, fb := some 1, yield := false }

/-- The clause that a table row's bits are (see `decodeTableWord`): a lone press-class word, or a header and its word. -/
def State.placeWord (s : State) (nbits w : Nat) : State :=
  let x := w % 2 ^ nbits
  let first : W64 := BitVec.ofNat 64 x
  if nbits ≤ 64 then s.withWord plainHeader first
  else match decodeHeader first with
    | some h => s.withWord { h with count := 1 } (BitVec.ofNat 64 (x / 2 ^ 64))
    | none => s

end Sys2Proof.Machine
end

