-- ==== Sys2Proof/Machine/Step.lean ====
section
/-!
DEFINITION. One step of the machine (R19, R20): time passes, and one transition is taken. How a word comes to be the next one:
`State.withFetchWord`.
-/
namespace Sys2Proof.Machine

/-- One step: the head of the agenda, or a free choice, after time has passed. -/
def step (s : State) : Host.Outcome State Fault Refusal := s.tick.dropHead.take s.choose

/-- The state with an instruction's bits in a clause that a group runs, as the next choice of the step. -/
def State.withFetchWord (s : State) (nbits w : Nat) : State := s.placeWord nbits w

end Sys2Proof.Machine
end

