-- ==== Sys2Proof/Safety.lean ====
section
/-!
DEFINITION. What counts as a safe run, in the terms of the statements: a step that answers a next state, when a word issues, how
the group goes on behind it, the forms of the state that every step keeps, and the fair runs of R19.
-/
namespace Sys2Proof.Machine

/-- The step answers a next state: neither a fault nor a refusal of the model. -/
def State.runs (s : State) : Bool :=
  match step s with
  | .next _ => true
  | _ => false

/-- What a step answers. -/
abbrev Answer := Host.Outcome State Fault Refusal

/-- The current group stands at a word to issue and not every lane skips it (R19, R120); `mask` for a mask instruction, which
looks at the group's lanes instead of the active ones; `coll` for a collective one, whose gang-collective wait is over (R50). -/
structure Issues (s : State) (c : Ctx) (coll mask : Bool) : Prop where
  ctx : s.ctx? = some c
  notSkipped : c.skipped mask = false
  collected : coll = true → c.run.collected = true

/-- The group goes on behind the word, its gang changed to g (R114). -/
def State.goesOn (s : State) (c : Ctx) (g : Gang) : State := (s.setGang g).advance c.uid c.slice

/-- The word has executed in the gang alone: the gang is now g, and its group goes on. -/
def State.passes (s : State) (c : Ctx) (g : Gang) : Answer := .next (s.goesOn c g)

/-- The word faults with a code and a fault address before any effect (R78, R196, R197). -/
def State.faults (s : State) (c : Ctx) (code : Code) (tval : W64) : State := s.takeFault c.uid c.slice (c.raise code tval)

/-- Two states hold the same bytes of memory, wherever one reads. -/
def SameBytes (s t : State) : Prop := ∀ a, t.readByte a = s.readByte a

/-- The cores of the device are those of R7 and R8, and memory has its canonical form. -/
structure State.Inv (s : State) : Prop where
  memory : Memory.wf s.mem = true
  cores : s.cores.map (fun c => c.key) = coreKeys
  proofs : s.proofs.map (fun p => p.key) = proofKeys

/-! ## Runs (R19) -/

/-- A run of the machine: every state is the next of the one before. -/
structure Path where
  at' : Nat → State
  steps : ∀ n, step (at' n) = .next (at' (n + 1))

/-- The state in which a step takes its choice: time has passed. -/
def State.settled (s : State) : State := s.tick.dropHead

/-- Is a transition enabled in a step: a choice of its own there, that changes something? -/
def State.enables (s : State) (c : Choice) : Bool := s.settled.settle c == some c && s.settled.acts c

/-- Does one choice take what another names: the same, a word among others of its gang, or a landing beside them (R105, R131)? -/
def Choice.covers : Choice → Choice → Bool
  | .issue g ks _, .issue h js none => g == h && js.all ks.contains
  | .issue g _ (some o), .event (.land h p) => g == h && o == p
  | a, b => a == b

/-- Fairness (R19): a transition that stays enabled is eventually taken. -/
def Path.Fair (p : Path) : Prop :=
  ∀ c n, ∃ m, n ≤ m ∧ ((p.at' m).enables c = false ∨
    ∃ d, (p.at' m).settled.settle (p.at' m).choose = some d ∧ d.covers c = true)

end Sys2Proof.Machine
end

