-- ==== Sys2Proof/Certificates/Slice0/Obligations.lean ====
section
/-!
DEFINITION. The statements for the provers. Each is about every state and operand that meets its hypotheses, and cites the rules of
spec/ it formalises in OBLIGATIONS.json.
-/
section
open Sys2Proof Sys2Proof.Machine

/-! ## Encoding -/

/-- Words that the spec writes out bit by bit decode to the instructions they stand for (R77 and the worked encodings of the
chapters). -/
def Obligations.SpecWordsDecode : Prop :=
  decodeWord .press 0x0090441301001800 = .ok (.sadd ⟨.s 4, .s 4, .imm 1, .v 0, .i32, 0⟩) ∧
  decodeWord .press 0x4539100708142800 = .ok (.vcmp ⟨.m 1, .v 1, .imm 8, 5, .n32, false, .em, false⟩) ∧
  decodeWord .press 0x60C0500806017844 =
    .ok (.vfma ⟨.v 5, .v 2, .v 6, .v 5, .f32, .rne, false, .m 1, false, false⟩) ∧
  decodeWord .press 0x20800E4404000006 = .ok (.brv ⟨.m 1, .em, .nz, 6⟩) ∧
  decodeWord .press 0xA000204404800040 = .ok (.ld ⟨.v 2, 8, some 1, .b32, .em, false, 0x40⟩) ∧
  decodeWord .press 0xA20050440404A000 = .ok (.atom ⟨.v 5, 8, some 1, .v 4, .n32, 0, .block, .em⟩) ∧
  decodeWord .press 0xC000000000008000 = .ok (.commit ⟨.v 0, .v 0, .v 0, 0, .block⟩) ∧
  decodeWord .press 0xE040000000000000 = .ok (.rte ⟨.v 0, false, 0⟩) ∧
  decodeWord .matrix 0x0001002114458000 = .ok (.mma ⟨.v 16, .v 8, .s 20, .s 22, .v 0, false, false⟩) ∧
  decodeWord .request 0x0010C4211400001C = .ok (.rqcopy ⟨.s 12, .s 8, .s 20, .v 0, 0, 3, true, false⟩) ∧
  decodeWord .compositor 0x01C0800000000000 = .ok (.qarm ⟨.v 8, .v 0, .v 0, .v 0, 0⟩) ∧
  decodeWord .debug 0x0010442000000000 = .ok (.dbgrd ⟨.s 4, .s 8, .v 0, .v 0, 0⟩)

/-- Every well-formed instruction of every class, at every operand its encoding admits, is read back from its own word (R63, R66
to R77, R230, R249, R281, R307); an instruction has a word exactly when it has a class. -/
def Obligations.EncodeThenDecode : Prop :=
  ∀ i : Instr, i.cls.isSome = (encode i).isSome ∧
    ∀ c w, i.wf = true → i.cls = some c → encode i = some w → decodeWord c w = .ok i

/-- A word that decodes has one reading: it is the encoding of the well-formed instruction it decodes to, so no bit of a word is
ignored and no reserved bit or code passes (R67, R70, R75). -/
def Obligations.DecodeThenEncode : Prop :=
  ∀ c w i, decodeWord c w = .ok i → i.wf = true ∧ i.cls = some c ∧ encode i = some w

/-- A clause header with a COUNT of 1 to 16 and flags below 12, A and B not the same, is read back from its word, and a word that
reads as a header is that header's word (R13, R63). -/
def Obligations.HeaderRoundTrip : Prop :=
  (∀ h : Header, 1 ≤ h.count → h.count ≤ 16 → (∀ k, h.fa = some k → k < 12) → (∀ k, h.fb = some k → k < 12) →
    (h.fa.isSome = true → h.fa ≠ h.fb) → decodeHeader (encodeHeader h) = some h) ∧
  ∀ w h, decodeHeader w = some h → encodeHeader h = w

/-- Every 10-bit operand code: vectors, scalars, small immediates, `em`, the masks and the special registers stand where R66 and
R67 put them, and every other code is reserved. -/
def Obligations.OperandCodes : Prop :=
  ∀ c : BitVec 10,
    (c.toNat < 0x100 → decOpd c = some (.v (c.extractLsb' 0 8))) ∧
    (0x100 ≤ c.toNat → c.toNat < 0x300 → ∃ n, decOpd c = some (.s n) ∧ n.toNat = c.toNat - 0x100) ∧
    (0x300 ≤ c.toNat → c.toNat < 0x380 → ∃ i, decOpd c = some (.imm i) ∧
      immInt i = if c.toNat < 0x340 then (c.toNat : Int) - 0x300 else (c.toNat : Int) - 0x380) ∧
    (c.toNat = 0x380 → decOpd c = some .em) ∧
    (0x390 ≤ c.toNat → c.toNat < 0x3A0 → ∃ n, decOpd c = some (.m n) ∧ n.toNat = c.toNat - 0x390) ∧
    (0x3C0 ≤ c.toNat → c.toNat < 0x3D2 → ∃ r, decOpd c = some (.sr r) ∧ encSReg r = c.toNat - 0x300) ∧
    ((0x381 ≤ c.toNat ∧ c.toNat < 0x390) ∨ (0x3A0 ≤ c.toNat ∧ c.toNat < 0x3C0) ∨ 0x3D2 ≤ c.toNat → decOpd c = none)

/-! ## The step and reset -/

/-- A step whose choice is a group's next word, that word decoding to an instruction, runs exactly that instruction (R19): on the
machine after the step's time, with the group current and its PC triggers served, and followed by what stands behind every word
(trace, watchpoints, lane-cycle record); a word that reads an uncorrectable register datum faults UNCORRECTABLE in its place
(R209). A halted guest, a full trace buffer and a matching PC comparator are the cases in which no word issues. Several groups
of one gang issue in one clock one after another, that of the higher lowest slice first (R105, R191), before an operation lands
(R131). A step whose choice is a named transition is that transition's meaning. The model's own choices: an instruction word is no
transition by itself (log 21); a device stopped for its temperature takes only what ends its pre-emptions (log 31); a choice that
names a transition of a deterministic launch (R21) stands for the first transition that the launch owes (logs 1 and 23). -/
def Obligations.StepRunsDecodedWord : Prop :=
  (∀ (s : State) (i : Instr), s.choose = .event i → s.settled.rootOf (.event i) = none →
    (i.cls = none → s.settled.thermal = false ∨ whileHalted i = true → step s = exec i s.settled) ∧
    (i.cls.isSome = true ∨ (s.settled.thermal = true ∧ whileHalted i = false) → step s = .next s.settled)) ∧
  (∀ (s : State) (g : Nat) (ks : List Nat) (land : Option Nat), s.choose = .issue g ks land → s.settled.gangRoot g = none →
    step s = s.settled.issueClock g ks land) ∧
  (∀ (s : State) (r : Nat), s.settled.rootOf s.choose = some r →
    (s.settled.detNext r = none → step s = .next s.settled) ∧
    ∀ d, s.settled.detNext r = some d → step s = s.settled.act d ∧ s.settled.acts d = true) ∧
  (∀ (s : State) (g : Gang) (k : Nat), s.gang? g.uid = some g → s.issueClock g.uid [k] none = s.issueNext g.uid k) ∧
  ∀ (s : State) (g k : Nat) (c : Ctx) (w : W64) (i : Instr),
    let s1 : State := { s with cur := some (g, k) }
    s1.ctx? = some c → c.run.words[c.run.idx]? = some w → decodeWord c.run.header.cls w = .ok i → c.gang.halted = false →
    s1.traceFull c i = false → s1.pcUnit c = none →
    let s2 := s1.beforeWord c
    (∀ t, exec i s2 = .next t → s.issueNext g k =
      .next ((if c.readsBad s2 i = true then s2.takeFault g k (c.raise .uncorrectable c.pc) else t).wordDone s2 c i)) ∧
    (∀ f, exec i s2 = .fault f → s.issueNext g k = .fault f) ∧
    (∀ r, exec i s2 = .refused r → s.issueNext g k = .refused r)

/-- The machine right after reset, at the values the register maps give: `STARTSTAT` and `STARTSKIP` 0, `HCMD` 0, `HSTAT` with
DONE alone, `FEATACC` 0 and unlocked beside `FEATOFF` with bits 11 to 0, `PWRCAP` 3,200, doorbells 0; every core's kick
register, `%cycles` counter and pull triggers as R126, R259 and R288 give them and its lane-cycle record off; every proof core's
value history empty with first SEQ 0; no gang, block, cluster launch, grid or queue (R18). The invariant holds. -/
def Obligations.ResetValues : Prop :=
  let s := State.reset
  s.Inv ∧ s.host.startStat = 0 ∧ s.host.startSkip = 0 ∧ s.host.hcmd = 0 ∧ s.host.done = true ∧ s.host.lost = false ∧ s.host.status = 0 ∧
  s.host.tag = 0 ∧ s.host.featAcc = 0 ∧ s.host.locked = false ∧ s.host.featOff = 0xFFF ∧ s.host.pwrCap = 3200 ∧
  s.host.pwrNow = 0 ∧ s.host.pwrStat = 0 ∧ s.host.tLayerMax = 0 ∧ s.doorbells = [] ∧
  s.gangs = [] ∧ s.blocks = [] ∧ s.clusters = [] ∧ s.grids = [] ∧ s.queues = [] ∧ s.domain = none ∧ s.dbgDomains = [] ∧
  (∀ c ∈ s.cores, c.clock = 0 ∧ c.kick = 0 ∧ c.trig0 = c.trig1 ∧ c.trig0.addr = 0 ∧ c.trig0.val = 0 ∧ c.trig0.enabled = false ∧
    c.trig0.kind = 0 ∧ c.trig0.proofSel = 0xF ∧ c.trig0.ctl = 0xF1000 ∧ c.trig0.gangs = 0xFFFFFFFF ∧ c.lc.ctl = 0 ∧
    c.lc.base = [] ∧ c.lc.lim = [] ∧ c.lc.cnt = []) ∧
  (∀ p ∈ s.proofs, p.hist = [] ∧ p.nextSeq = 0) ∧
  ∀ e ∈ [s.eth0, s.eth1], e.sec = 0 ∧ e.ns = 0 ∧ e.adj = 0 ∧ e.rate = 0 ∧ e.delay = 0 ∧ e.latched = 0

/-- From every state that has it, a step that answers a next state keeps the invariant: memory stays in its canonical form (so that
equal memories are equal data), and the device keeps exactly the cores of R7 and R8. -/
def Obligations.InvariantKept : Prop := ∀ s t : State, s.Inv → step s = .next t → t.Inv

/-! ## Registers and numbers -/

/-- Integer results (R97): without SAT the exact number modulo 2^w; with SAT the number clamped to the range of the type, `%astatus`
bit 5 set exactly where the clamp changes it. -/
def Obligations.IntegerResults : Prop :=
  ∀ (t : Ty) (v : Int), t.isInt = true →
    let lo : Int := if t.isI then -(2 : Int) ^ (t.width - 1) else 0
    let hi : Int := if t.isI then (2 : Int) ^ (t.width - 1) - 1 else (2 : Int) ^ t.width - 1
    ((outT t false v).1 : Int) = v % (2 : Int) ^ t.width ∧ (outT t false v).2 = 0 ∧
    ((outT t true v).1 : Int) = (if v < lo then lo else if hi < v then hi else v) % (2 : Int) ^ t.width ∧
    (outT t true v).2 = (if lo ≤ v ∧ v ≤ hi then 0 else 0x20)

/-- What a scalar write leaves to be read (R69, R84): a value of a type of at most 32 bits is extended into its register; a 64-bit
value fills its pair, low half in the even register; a value written to `s0` is discarded; every other register keeps its value. -/
def Obligations.ScalarRegisterWrites : Prop :=
  ∀ (g : Gang) (t : Ty) (n : BitVec 9) (x m : Nat),
    (t.is64 = false → (g.wrScalar t (.s n) x).rawS m =
      if m = n.toNat ∧ n ≠ 0 then BitVec.ofNat 32 (extendTy t x) else g.rawS m) ∧
    (t.is64 = true → (g.wrScalar t (.s n) x).rawS m =
      if m = n.toNat + 1 then BitVec.ofNat 32 (x % 2 ^ 64 / 2 ^ 32)
      else if m = n.toNat ∧ n ≠ 0 then BitVec.ofNat 32 x else g.rawS m)

/-- What a vector form writes (R84, R128): in each active lane the destination element takes that lane's result, computed from the
registers as they stood before any lane was written; every other lane and register keeps its value; the sticky bits of all
active lanes are ORed in. -/
def Obligations.VectorLaneWrites : Prop :=
  ∀ (g : Gang) (lanes : Lanes) (f : LaneFn) (t : Ty) (n : BitVec 8) (m k : Nat), k < 128 → t.is64 = false →
    let h := g.eachLane lanes f (fun h k x => h.wrLane t (.v n) k x)
    h.rawV m k = (if m = n.toNat ∧ lanes.getLsbD k = true then BitVec.ofNat 32 (extendTy t (f g k).1) else g.rawV m k) ∧
    (∀ b, h.astatus.getLsbD b = true ↔ g.astatus.getLsbD b = true ∨ ∃ j, j < 128 ∧ lanes.getLsbD j = true ∧ (f g j).2.getLsbD b = true) ∧
    h.sregs = g.sregs ∧ h.masks = g.masks ∧ h.em = g.em ∧ h.groups = g.groups ∧ h.galley = g.galley

/-- Writing mask bits (R40, R111): only the lanes written change; in `em` an absent lane stays off and a lane held on a
reconvergence stack keeps its bit, whatever is written. -/
def Obligations.MaskWrites : Prop :=
  ∀ (g : Gang) (lanes x : Lanes) (n : BitVec 4) (m k : Nat), k < 128 →
    (g.wrM n.toNat lanes x).rawM m =
      (if m = n.toNat then (g.rawM m &&& ~~~ lanes) ||| (x &&& lanes) else g.rawM m) ∧
    (g.wrEm lanes x).em.getLsbD k =
      (if lanes.getLsbD k = true ∧ g.present.getLsbD k = true ∧ g.stacked.getLsbD k = false then x.getLsbD k else g.em.getLsbD k)

/-- The effective address of a lane (R152): base + sext32(voff) + sext16(imm) modulo 2^64, 0 for an absent vector offset;
its space code is its bits 63 to 57. -/
def Obligations.EffectiveAddress : Prop :=
  ∀ (g : Gang) (now lane : Nat) (base : BitVec 9) (v : BitVec 8) (imm : BitVec 16),
    ((g.effAddr now base (some v) imm.toInt lane).toNat : Int) =
      (((g.rdS64 now base.toNat).toNat : Int) + (g.rdV now v.toNat lane).toInt + imm.toInt) % 2 ^ 64 ∧
    ((g.effAddr now base none imm.toInt lane).toNat : Int) = (((g.rdS64 now base.toNat).toNat : Int) + imm.toInt) % 2 ^ 64 ∧
    ∀ ea : W64, spaceOf ea = (ea.extractLsb' 57 7).toNat

/-- `vfmin` and `vfmax` (R95): with one NaN the other operand, with two the canonical NaN, else the smaller or the greater of the numbers
with -0 below +0; a signalling NaN sets NV (bit 0); the memory-side MIN and MAX of `atomf` make the same choice and have no flag. -/
def Obligations.FloatMinMax : Prop :=
  ∀ (mx : Bool) (a b : FVal),
    (a.isNaN = true → b.isNaN = false → (minmaxV mx a b).1 = b) ∧ (a.isNaN = false → b.isNaN = true → (minmaxV mx a b).1 = a) ∧
    (a.isNaN = true → b.isNaN = true → (minmaxV mx a b).1 = .nan false) ∧
    (minmaxV mx a b).2 = (if a = .nan true ∨ b = .nan true then 1 else 0) ∧
    (∀ (n1 n2 : Bool) (m1 m2 : Nat) (e1 e2 : Int), a = .fin n1 m1 e1 → b = .fin n2 m2 e2 →
      let e := if e1 ≤ e2 then e1 else e2
      let x : Int := (if n1 then -(m1 : Int) else m1) * (2 : Int) ^ (e1 - e).toNat
      let y : Int := (if n2 then -(m2 : Int) else m2) * (2 : Int) ^ (e2 - e).toNat
      let less : Prop := x < y ∨ (x = 0 ∧ y = 0 ∧ n1 = true ∧ n2 = false)
      (less → (minmaxV false a b).1 = a ∧ (minmaxV true a b).1 = b ∧ (minmaxV false b a).1 = a ∧ (minmaxV true b a).1 = b)) ∧
    (a.isNaN = false → b.isNaN = false → (minmaxV mx a b).1 = a ∨ (minmaxV mx a b).1 = b) ∧
    (a = .inf true → b.isNaN = false → (minmaxV false a b).1 = a ∧ (minmaxV true a b).1 = b ∧ (minmaxV false b a).1 = a ∧
      (minmaxV true b a).1 = b) ∧
    (a = .inf false → b.isNaN = false → (minmaxV false a b).1 = b ∧ (minmaxV true a b).1 = a ∧ (minmaxV false b a).1 = b ∧
      (minmaxV true b a).1 = a) ∧
    ∀ (ty : Ty) (x y : Nat), atomMinmax ty mx x y =
      ((atomFmt ty).rne (minmaxV mx ((atomFmt ty).decode x) ((atomFmt ty).decode y)).1).1

/-! ## Scalar, mask and control words -/

/-- Scalar arithmetic (R107): exact on the operands read signed for `i` types and unsigned for `n` and `b` types, reduced modulo
2^w, written with the extension of R84; the group goes on behind the word. -/
def Obligations.ScalarArithmetic : Prop :=
  ∀ (s : State) (c : Ctx) (f : FmtS), Issues s c false false →
    let w := f.ty.width
    let num (x : Nat) : Int := if f.ty.isI = true ∧ 2 ^ (w - 1) ≤ x % 2 ^ w then (x % 2 ^ w : Nat) - (2 : Int) ^ w else (x % 2 ^ w : Nat)
    let x := num (c.gang.scalarVal s.now f.ty f.a)
    let y := num (c.gang.scalarVal s.now f.ty f.b)
    let writes (v : Int) : Answer := s.passes c (c.gang.wrScalar f.ty f.dst (v % (2 : Int) ^ w).toNat)
    exec (.sadd f) s = writes (x + y) ∧ exec (.ssub f) s = writes (x - y) ∧ exec (.smul f) s = writes (x * y) ∧
    exec (.smulh f) s = writes (x * y / (2 : Int) ^ w) ∧ exec (.smin f) s = writes (if x ≤ y then x else y) ∧
    exec (.smax f) s = writes (if x ≤ y then y else x)

/-- Scalar moves, logic and shifts (R107, R108): `sshr` is logical and `ssra` arithmetic whatever the type; a count of the width or
more gives 0, or the sign. -/
def Obligations.ScalarBitsShifts : Prop :=
  ∀ (s : State) (c : Ctx), Issues s c false false →
    (∀ f : FmtS,
      let w := f.ty.width
      let x := c.gang.scalarVal s.now f.ty f.a
      let y := c.gang.scalarVal s.now f.ty f.b
      let n := c.gang.scalar32 s.now f.b
      let sx : Int := if 2 ^ (w - 1) ≤ x % 2 ^ w then (x % 2 ^ w : Nat) - (2 : Int) ^ w else (x % 2 ^ w : Nat)
      let writes (v : Nat) : Answer := s.passes c (c.gang.wrScalar f.ty f.dst v)
      exec (.smov f) s = writes x ∧ exec (.sand f) s = writes (x &&& y) ∧ exec (.sor f) s = writes (x ||| y) ∧
      exec (.sxor f) s = writes (x ^^^ y) ∧ exec (.sshl f) s = writes (x * 2 ^ n % 2 ^ w) ∧
      exec (.sshr f) s = writes (x % 2 ^ w / 2 ^ n) ∧ exec (.ssra f) s = writes (sx / (2 : Int) ^ n % (2 : Int) ^ w).toNat) ∧
    ∀ f : FmtI, exec (.smovi f) s = s.passes c (c.gang.wrScalar f.ty f.dst
      (if f.ty = .i64 then (f.imm.toInt % (2 : Int) ^ 64).toNat else f.imm.toNat))

/-- Scalar compares, selection, counts and bit fields (R107, R109, R110). -/
def Obligations.ScalarSelectCountField : Prop :=
  ∀ (s : State) (c : Ctx) (f : FmtS), Issues s c false false →
    let w := f.ty.width
    let x := c.gang.scalarVal s.now f.ty f.a
    let y := c.gang.scalarVal s.now f.ty f.b
    let sel := f.sel.toNat
    let nx := numOf f.ty x
    let ny := numOf f.ty y
    let holds : Prop := (sel = 0 ∧ nx = ny) ∨ (sel = 1 ∧ nx ≠ ny) ∨ (sel = 2 ∧ nx < ny) ∨ (sel = 3 ∧ nx ≤ ny) ∨ (sel = 4 ∧ ny < nx) ∨
      (sel = 5 ∧ ny ≤ nx)
    let writes (v : Nat) : Answer := s.passes c (c.gang.wrScalar f.ty f.dst v)
    let writes32 (v : Nat) : Answer := s.passes c (c.gang.wrScalar32 f.dst v)
    (holds → exec (.scmp f) s = writes32 1) ∧ (¬ holds → exec (.scmp f) s = writes32 0) ∧
    exec (.ssel f) s = (if c.gang.scalar32 s.now f.c = 0 then writes y else writes x) ∧
    exec (.sclz f) s = writes32 (if x % 2 ^ w = 0 then w else w - 1 - Nat.log2 (x % 2 ^ w)) ∧
    exec (.spopc f) s = writes32 ((List.range w).map (fun j => x / 2 ^ j % 2)).sum ∧
    (∃ r, exec (.sbfe f) s = writes r ∧ ∀ j, j < w →
      let field := c.gang.scalar32 s.now f.b
      let wid := if field / 256 % 256 < w then field / 256 % 256 else w
      let bitOf (k : Nat) : Bool := if field % 256 + k < w then x.testBit (field % 256 + k) else f.ty.isI && x.testBit (w - 1)
      r.testBit j = if j < wid then bitOf j else f.ty.isI && decide (0 < wid) && bitOf (wid - 1)) ∧
    (∃ r, exec (.sbfi f) s = writes r ∧ ∀ j, j < w →
      let field := c.gang.scalar32 s.now f.c
      r.testBit j = if field % 256 ≤ j ∧ j < field % 256 + field / 256 % 256 then y.testBit (j - field % 256) else x.testBit j)

/-- The mask words (R111, R112): lane by lane over the lanes of the group that the word may write, whatever `em` holds; the counts
of a mask into a scalar, and `measure` (R123), where an active lane does not skip them (R120). -/
def Obligations.MaskForms : Prop :=
  ∀ (s : State) (c : Ctx) (f : FmtS),
    let lanes := c.lanes &&& ~~~ c.skip
    let a := c.gang.maskVal s.now f.a
    let b := c.gang.maskVal s.now f.b
    let writes (x : Lanes) : Answer := s.passes c (c.gang.wrMask f.dst lanes x)
    (Issues s c false true →
      exec (.mand f) s = writes (a &&& b) ∧ exec (.mor f) s = writes (a ||| b) ∧ exec (.mxor f) s = writes (a ^^^ b) ∧
      exec (.mnot f) s = writes (~~~ a) ∧ exec (.mmov f) s = writes a) ∧
    (Issues s c false false →
      exec (.mpopc f) s = s.passes c (c.gang.wrScalar32 f.dst
        ((List.range 128).filter (fun k => a.getLsbD k && lanes.getLsbD k)).length) ∧
      (a &&& lanes = 0 → exec (.mfirst f) s = s.passes c (c.gang.wrScalar32 f.dst 0xFFFFFFFF)) ∧
      ∀ k, k < 128 → (a &&& lanes).getLsbD k = true → (∀ j, j < k → (a &&& lanes).getLsbD j = false) →
        exec (.mfirst f) s = s.passes c (c.gang.wrScalar32 f.dst k)) ∧
    (Issues s c false false → exec (.measure f) s = s.passes c (c.gang.wrScalar32 f.dst (c.gang.measureOf c.grp.slices)))

/-- `srd` and `swr` (R99, R123, R124, R126): what each register reads as, and which of its bits a write takes; a register that is RO,
and the trap registers outside the handler, ignore the write; `%astatus` bits that another word sets in the same clock stay set. A read
into a mask counts the lanes of the group, not the active ones (R111). -/
def Obligations.SpecialRegisters : Prop :=
  ∀ (s : State) (c : Ctx) (f : FmtS),
    let g := c.gang
    let reads32 (r : SReg) (x : Nat) : Prop := f.a = .sr r → exec (.srd f) s = s.passes c (g.wrScalar32 f.dst x)
    let reads64 (r : SReg) (x : W64) : Prop := f.a = .sr r → exec (.srd f) s = s.passes c (g.wrScalar64 f.dst x)
    let takes (r : SReg) (h : Gang) : Prop := f.dst = .sr r → exec (.swr f) s = s.passes c h
    let handler := g.trap.isSome
    (Issues s c false (namesMask f.dst) →
    (f.a = .sr .laneid → exec (.srd f) s =
      s.passes c (g.eachLane c.activeAll (fun _ k => (k, 0)) (fun h k x => h.wrLane32 f.dst k x))) ∧
    (f.a = .sr .gangmask → exec (.srd f) s = s.passes c (g.wrMask f.dst (c.lanes &&& ~~~ c.skip) (g.gangMask c.grp.slices))) ∧
    (f.a = .sr .pendmask → exec (.srd f) s = s.passes c (g.wrMask f.dst (c.lanes &&& ~~~ c.skip) c.grp.pend)) ∧
    reads32 .gangid g.gangid ∧ reads32 .role g.role ∧ reads32 .measure (g.measureOf c.grp.slices) ∧ reads32 .launchw g.measure ∧
    reads32 .astatus g.astatus.toNat ∧ reads32 .tcause g.tcause.toNat ∧
    (∀ b, s.block? g.block = some b → reads32 .blockid b.blockid ∧ reads32 .crank b.crank) ∧
    reads32 .coreid (coreNum g.home.1) ∧ reads32 .dieid (dieOf g.home.1) ∧ reads32 .clusterid (clusterNum g.home.1) ∧
    reads64 .tvec g.tvec ∧ reads64 .tval g.tval ∧ reads64 .tret g.tret ∧
    (g.det s = false → reads64 .cycles (BitVec.ofNat 64 (s.clockOf g.coreKey))) ∧
    (g.det s = true → reads64 .cycles (BitVec.ofNat 64 (s.launchClock g)))) ∧
    (Issues s c false false →
    takes .astatus { g with astatus := (BitVec.ofNat 32 (g.scalar32 s.now f.a) &&& 0x1007F) ||| g.freshBits } ∧
    takes .tvec { g with tvec := g.scalar64 s.now f.a &&& ~~~ 0xFF } ∧
    takes .tcause (if handler then { g with tcause := BitVec.ofNat 32 (g.scalar32 s.now f.a) &&& 0x1FFF } else g) ∧
    takes .tval (if handler then { g with tval := g.scalar64 s.now f.a } else g) ∧
    takes .tret (if handler then { g with tret := g.scalar64 s.now f.a } else g) ∧
    ∀ r ∈ [SReg.laneid, .gangid, .blockid, .clusterid, .role, .measure, .gangmask, .launchw, .coreid, .dieid, .cycles, .pendmask, .crank],
      takes r g)

/-- Branches (R45, R74, R114 to R119): `bra`, `call`, `ret` and a taken `bru` set the next clause of the whole group and nothing else;
`brv` splits the group by the lanes that take it, and a push past the stack's limit of 64 faults at the word before any effect;
`brau` branches, falls through or faults UNIFORM_DIVERGED. Lanes that skip a `brv` or `brau` do not take it (R79, R120); where only
some lanes skip one of the others, the whole group branches (the model's choice, log 53). -/
def Obligations.Branches : Prop :=
  ∀ (s : State) (c : Ctx) (f : FmtB), Issues s c false false →
    let label := c.pc + BitVec.ofInt 64 (8 * f.target.toInt)
    let turn (g : Gang) (t : W64) : Answer := s.passes c (g.setGroup { c.grp with run := some { c.run with next := some t } })
    let through : Answer := .next (s.advance c.uid c.slice)
    let cond := c.gang.condLanes s.now f.a c.activeAll
    let take := if f.cond = .nz then cond else c.activeAll &&& ~~~ cond
    let v := c.gang.scalar32 s.now f.a
    exec (.bra f) s = turn c.gang label ∧
    ((v ≠ 0 ↔ f.cond = .nz) → exec (.bru f) s = turn c.gang label) ∧
    (¬ (v ≠ 0 ↔ f.cond = .nz) → exec (.bru f) s = through) ∧
    exec (.ret f) s = turn c.gang (c.gang.scalar64 s.now f.a) ∧
    (∀ k : FmtBL, exec (.call k) s =
      turn (c.gang.wrScalar64 k.dst (c.pc + 8)) (c.pc + BitVec.ofInt 64 (8 * k.target.toInt))) ∧
    (∀ g k, c.gang.branch c.grp c.run c.base take label = some (g, k) → exec (.brv f) s = .next ((s.setGang g).advance c.uid k)) ∧
    ((∀ st ∈ c.gang.reconv, st.length < 64) → ∃ g k, c.gang.branch c.grp c.run c.base take label = some (g, k)) ∧
    (c.gang.branch c.grp c.run c.base take label = none → exec (.brv f) s = .next (s.faults c .illegalConvergence c.pc)) ∧
    (take = 0 → exec (.brau f) s = through) ∧ (take ≠ 0 → take = c.activeAll → exec (.brau f) s = turn c.gang label) ∧
    (take ≠ 0 → take ≠ c.activeAll → exec (.brau f) s = .next (s.faults c .uniformDiverged c.pc))

/-- What a split does (R45, R116): lanes that took the branch in a slice that others of its active lanes did not leave `em` for a
PENDING entry with the target. Where every active lane takes it, the whole group goes to the target at the end of its clause; else the
slices whose active lanes all take it leave the group and stand ready at the target, outside a clause, and the others go on in it, the
lowest of them as the issuing one; every other group is as before. -/
def Obligations.BranchSplits : Prop :=
  ∀ (g h : Gang) (r : Group) (u : Run) (act take : Lanes) (t : W64) (j : Nat), g.branch r u act take t = some (h, j) →
    let all : Prop := take ≠ 0 ∧ act &&& ~~~ take = 0
    (all → h = g.setGroup { r with run := some { u with next := some t } } ∧ j = lowSlice r.slices) ∧
    (¬ all → ∃ taken : Slices,
      (∀ k, k < 16 → (taken.getLsbD k = true ↔ (r.slices &&& g.live).getLsbD k = true ∧ act &&& lanesOfSlice k ≠ 0 ∧
        act &&& lanesOfSlice k &&& ~~~ take = 0)) ∧
      (taken = 0 → h.groups = (g.setGroup r).groups ∧ j = lowSlice r.slices) ∧
      (taken ≠ 0 → ∃ fall new : Group, h.groups = g.groups.filter (fun q => q.slices &&& r.slices == 0) ++ [fall, new] ∧
        fall = { r with slices := r.slices &&& ~~~ taken, readyAt := none, keepOn := none } ∧ j = lowSlice fall.slices ∧
        new.slices = taken ∧ new.pc = t ∧ new.status = .ready ∧ new.run = none ∧ new.mid = none ∧ new.skips = [])) ∧
    let mixed (k : Nat) : Prop := (r.slices &&& g.live).getLsbD k = true ∧ take &&& lanesOfSlice k ≠ 0 ∧
      act &&& lanesOfSlice k &&& ~~~ take ≠ 0
    (∀ k, k < 16 → (mixed k → h.em &&& lanesOfSlice k = g.em &&& lanesOfSlice k &&& ~~~ take ∧
        ∀ st, g.reconv[k]? = some st → h.reconv[k]? = some ({ merge := false, lanes := take &&& lanesOfSlice k, addr := t } :: st)) ∧
      (¬ mixed k → h.em &&& lanesOfSlice k = g.em &&& lanesOfSlice k ∧ h.reconv[k]? = g.reconv[k]?)) ∧
    h.vregs = g.vregs ∧ h.sregs = g.sregs ∧ h.masks = g.masks ∧ h.astatus = g.astatus ∧ h.present = g.present ∧ h.galley = g.galley

/-- `skip`, `gang.all`, `yield`, `nop`, `prefetch`, `trap` and `rte` (R50, R79, R120 to R122, R166, R197, R199, R200): SOFTWARE_TRAP with its
number resumes at the word behind, and as the last word of a clause ends the clause with its pending allotment (R204); `rte` ends the debug
handler's handling, arrives in the gang's handler, and is illegal elsewhere. -/
def Obligations.PlainControl : Prop :=
  (∀ (s : State) (c : Ctx) (f : FmtK), Issues s c false false →
    let raise (mid : Option W64) (skips : List (Nat × Lanes × Bool)) (allot : Option (Nat × Nat)) : Raise :=
      { code := .softwareTrap, tval := BitVec.ofNat 64 f.imm.toNat, tret := c.pc + 8, word := c.run.idx + 1
        mid := mid, skips := skips, allot := allot }
    (c.run.idx + 1 < c.run.words.length →
      exec (.trap f) s = .next (s.takeFault c.uid c.slice (raise (some c.run.hdr) c.run.skips c.run.allot))) ∧
    (c.run.words.length ≤ c.run.idx + 1 → exec (.trap f) s =
      .next ((s.setGang (c.gang.takePending c.run.allot)).takeFault c.uid c.slice (raise none [] none))) ∧
    (∀ core, c.gang.place = .handler core →
      exec (.rte f) s = .next ((s.setGang (c.gang.leaveClause c.grp c.grp)).endHandling core c.uid)) ∧
    ((∀ core, c.gang.place ≠ .handler core) →
      (c.gang.inHandler c.grp = false → exec (.rte f) s = .next (s.faults c .illegalInstruction c.pc)) ∧
      (c.gang.inHandler c.grp = true → exec (.rte f) s = .next
        ((s.setGang (c.gang.leaveClause c.grp { c.grp with status := .heldRte, pc := c.pc })).settleTrap c.uid c.pc)))) ∧
  ∀ (s : State) (c : Ctx),
    (Issues s c false false →
      (∀ f : FmtK, exec (.nop f) s = .next (s.advance c.uid c.slice)) ∧
      (∀ f : FmtM, exec (.prefetch f) s = .next (s.advance c.uid c.slice)) ∧
      (∀ f : FmtK,
        let cond := f.imm.getLsbD 16
        let lanes := (if cond then c.gang.condLanes s.now f.a c.lanes else c.lanes) &&& ~~~ c.skip
        exec (.skip f) s = s.passes c (c.gang.setGroup { c.grp with run := some { c.run with
          skips := c.run.skips ++ (List.range (f.imm.toNat % 2 ^ 16)).map (fun k =>
            (c.run.idx + 1 + k, lanes, !(cond && f.a.isS) || c.gang.scalar32 s.now f.a != 0)) } })) ∧
      ∀ f : FmtB,
        exec (.yield f) s = s.passes c (c.gang.setGroup { c.grp with
          status := .sleepYield (c.gang.scalar32 s.now f.a)
          run := some { c.run with next := some (c.pc + BitVec.ofInt 64 (8 * f.target.toInt)) } })) ∧
    (Issues s c true false → ∀ f : FmtK, exec (.gangAll f) s = .next (s.advance c.uid c.slice))

/-- `join` and `exit` (R117, R121). A `join` completes where no live slice of its group has a MERGE entry with another address on top
of its stack, and faults ILLEGAL_CONVERGENCE where one has; an `exit` completes where no latched error waits (R209). Each slice of
the group, in ascending number, goes where the top entry of its stack says; the lanes that exit are absent from then on. -/
def Obligations.JoinAndExit : Prop :=
  ∀ (s : State) (c : Ctx), Issues s c false false →
    (∀ f : FmtB,
      let label := c.pc + BitVec.ofInt 64 (8 * f.target.toInt)
      let x := c.grp.slices &&& c.gang.live
      let other (k : Nat) : Prop := k < 16 ∧ x.getLsbD k = true ∧
        ∃ e rest, c.gang.reconv[k]? = some (e :: rest) ∧ e.merge = true ∧ e.addr ≠ label
      ((∃ k, other k) → exec (.join f) s = .next (s.faults c .illegalConvergence c.pc)) ∧
      ((¬ ∃ k, other k) →
        let r := (c.gang.leaveClause c.grp c.grp).moveSlices x (fun g k => let m := g.joinSlice label k; (m.1, some m.2))
        exec (.join f) s = .next (s.setGang (r.1.replaceGroups c.grp.slices (groupsOf r.2))))) ∧
    (∀ f : FmtK, c.gang.errs = [] ∨ c.lastExit = false →
      let g := c.gang.leaveClause c.grp c.grp
      ((∃ core part, c.gang.place = .press core part) ∨ (∃ core gslot part, c.gang.place = .guest core gslot part) →
        let r := g.moveSlices (c.grp.slices &&& g.live) (fun h k => h.exitSlice c c.run.after k)
        exec (.exit f) s = .next
          (((s.setGang (r.1.replaceGroups c.grp.slices (groupsOf r.2))).retestBars c.uid).settleTrap c.uid c.pc)) ∧
      (∀ core, c.gang.place = .handler core → exec (.exit f) s = .next ((s.setGang g).endHandling core c.uid)) ∧
      ∀ core, c.gang.place = .compositor core → exec (.exit f) s = .next ((s.setGang g).stopCompositor core)) ∧
    ∀ (g : Gang) (label : W64) (k : Nat) (e : StackEntry) (rest : List StackEntry), k < 16 → g.reconv[k]? = some (e :: rest) →
      let m := g.joinSlice label k
      (e.merge = true → m.2 = ⟨k, label, true⟩ ∧ m.1.reconv[k]? = some rest ∧
        m.1.em &&& lanesOfSlice k = (g.em ||| e.lanes) &&& lanesOfSlice k) ∧
      (e.merge = false → m.2 = ⟨k, e.addr, false⟩ ∧ m.1.em &&& lanesOfSlice k = e.lanes &&& lanesOfSlice k ∧
        m.1.reconv[k]? = some ({ merge := true, lanes := g.em &&& lanesOfSlice k, addr := label } :: rest))


/-! ## Vector words -/

/-- Integer vector arithmetic (R133): in each active lane the exact number from the operands read signed for `i` and unsigned for `n`
and `b` types, wrapped, or clamped with SAT (IntegerResults); `vmulh`, `vmin` and `vmax` never clamp; a left shift by the width or
more gives 0, or the clamp of a nonzero value. -/
def Obligations.VectorInteger : Prop :=
  ∀ (s : State) (c : Ctx),
    (∀ f : FmtA2, Issues s c f.gang false →
      let w := f.ty.width
      let num (o : Opd) (g : Gang) (k : Nat) : Int :=
        let x := g.laneVal s.now f.ty o k % 2 ^ w
        if f.ty.isI = true ∧ 2 ^ (w - 1) ≤ x then (x : Int) - (2 : Int) ^ w else x
      let n (g : Gang) (k : Nat) : Nat := g.lane32 s.now f.b k
      let lanes (sat : Bool) (v : Gang → Nat → Int) : Answer := s.passes c
        (c.gang.eachLane (c.active s.now f.mask) (fun g k => outT f.ty sat (v g k)) (fun h k x => h.wrLane f.ty f.dst k x))
      exec (.vadd f) s = lanes f.sat (fun g k => num f.a g k + num f.b g k) ∧
      exec (.vsub f) s = lanes f.sat (fun g k => num f.a g k - num f.b g k) ∧
      exec (.vmul f) s = lanes f.sat (fun g k => num f.a g k * num f.b g k) ∧
      exec (.vmulh f) s = lanes false (fun g k => num f.a g k * num f.b g k / (2 : Int) ^ w) ∧
      exec (.vabs f) s = lanes f.sat (fun g k => if num f.a g k < 0 then - num f.a g k else num f.a g k) ∧
      exec (.vmin f) s = lanes false (fun g k => if num f.a g k ≤ num f.b g k then num f.a g k else num f.b g k) ∧
      exec (.vmax f) s = lanes false (fun g k => if num f.a g k ≤ num f.b g k then num f.b g k else num f.a g k) ∧
      (f.ty.isInt = true → exec (.vshl f) s = lanes f.sat (fun g k => num f.a g k * (2 : Int) ^ n g k))) ∧
    ∀ f : FmtA3, Issues s c f.gang false →
      exec (.vmad f) s = s.passes c (c.gang.eachLane (c.active s.now f.mask)
        (fun g k => outT f.ty f.sat (numOf f.ty (g.laneVal s.now f.ty f.a k) * numOf f.ty (g.laneVal s.now f.ty f.b k) +
          numOf f.ty (g.laneVal s.now f.ty f.c k))) (fun h k x => h.wrLane f.ty f.dst k x))

/-- Logic, right shifts, counts, bit fields, selection and moves in each active lane (R133, R135, R110); a move or a selection copies
bits, so that its immediate is sign-extended whatever TYPE is. -/
def Obligations.VectorBits : Prop :=
  ∀ (s : State) (c : Ctx),
    let copied (t : Ty) (o : Opd) (g : Gang) (k : Nat) : Nat := match o with
      | .imm i => (immInt i % (2 : Int) ^ t.width).toNat
      | _ => g.laneVal s.now t o k
    (∀ f : FmtA2, Issues s c f.gang false →
      let w := f.ty.width
      let x (g : Gang) (k : Nat) : Nat := g.laneVal s.now f.ty f.a k
      let y (g : Gang) (k : Nat) : Nat := g.laneVal s.now f.ty f.b k
      let n (g : Gang) (k : Nat) : Nat := g.lane32 s.now f.b k
      let sx (g : Gang) (k : Nat) : Int :=
        if 2 ^ (w - 1) ≤ x g k % 2 ^ w then (x g k % 2 ^ w : Nat) - (2 : Int) ^ w else (x g k % 2 ^ w : Nat)
      let lanes (v : Gang → Nat → Nat) : Answer := s.passes c
        (c.gang.eachLane (c.active s.now f.mask) (fun g k => (v g k, 0)) (fun h k x => h.wrLane f.ty f.dst k x))
      let lanes32 (v : Gang → Nat → Nat) : Answer := s.passes c
        (c.gang.eachLane (c.active s.now f.mask) (fun g k => (v g k, 0)) (fun h k x => h.wrLane32 f.dst k x))
      exec (.vand f) s = lanes (fun g k => x g k &&& y g k) ∧ exec (.vor f) s = lanes (fun g k => x g k ||| y g k) ∧
      exec (.vxor f) s = lanes (fun g k => x g k ^^^ y g k) ∧ exec (.vnot f) s = lanes (fun g k => 2 ^ w - 1 - x g k % 2 ^ w) ∧
      exec (.vshr f) s = lanes (fun g k => x g k % 2 ^ w / 2 ^ n g k) ∧
      exec (.vsra f) s = lanes (fun g k => (sx g k / (2 : Int) ^ n g k % (2 : Int) ^ w).toNat) ∧
      exec (.vmov f) s = lanes (copied f.ty f.a) ∧
      exec (.vclz f) s = lanes32 (fun g k => if x g k % 2 ^ w = 0 then w else w - 1 - Nat.log2 (x g k % 2 ^ w)) ∧
      exec (.vpopc f) s = lanes32 (fun g k => ((List.range w).map (fun j => x g k / 2 ^ j % 2)).sum)) ∧
    (∀ f : FmtA3, Issues s c f.gang false →
      let lanes (v : Gang → Nat → Nat) : Answer := s.passes c
        (c.gang.eachLane (c.active s.now f.mask) (fun g k => (v g k, 0)) (fun h k x => h.wrLane f.ty f.dst k x))
      exec (.vbfe f) s = lanes (fun g k => bfe f.ty (g.laneVal s.now f.ty f.a k) (g.lane32 s.now f.b k)) ∧
      exec (.vbfi f) s = lanes (fun g k =>
        bfi f.ty.width (g.laneVal s.now f.ty f.a k) (g.laneVal s.now f.ty f.b k) (g.lane32 s.now f.c k)) ∧
      exec (.vsel f) s = lanes (fun g k => if g.condLanes s.now f.c (Lanes1 k) = 0 then copied f.ty f.b g k
        else copied f.ty f.a g k)) ∧
    ∀ f : FmtI, Issues s c f.gang false →
      exec (.vmovi f) s = s.passes c (c.gang.eachLane (c.active s.now f.mask) (fun _ _ => (vmoviVal f.ty f.imm, 0))
        (fun h k x => h.wrLane f.ty f.dst k x))

/-- Compares (R71, R96, R134, R141): into a vector register 1 or 0 in each active lane; into a mask or `em` the active lanes' bits and
no other; and `vfclass`. -/
def Obligations.VectorCompares : Prop :=
  ∀ (s : State) (c : Ctx),
    (∀ f : FmtA2S, Issues s c f.gang false →
      let act := c.active s.now f.mask
      let x (k : Nat) : Int := numOf f.ty (c.gang.laneVal s.now f.ty f.a k)
      let y (k : Nat) : Int := numOf f.ty (c.gang.laneVal s.now f.ty f.b k)
      let holds (k : Nat) : Bool := cmpInt f.sel.toNat (x k) (y k)
      let fl (k : Nat) : Bool × W32 := cmpV f.sel.toNat (c.gang.laneF s.now f.ty f.a k) (c.gang.laneF s.now f.ty f.b k)
      let sticky : W32 := (laneList act).foldl (fun a k => a ||| (fl k).2) 0
      let maskOf (b : Nat → Bool) : Lanes := lanesOfList ((laneList act).filter b)
      ((∀ n, f.dst ≠ .v n) → exec (.vcmp f) s = s.passes c (c.gang.wrMask f.dst act (maskOf holds)) ∧
        exec (.vfcmp f) s = s.passes c ((c.gang.wrMask f.dst act (maskOf (fun k => (fl k).1))).setSticky sticky)) ∧
      ((∃ n, f.dst = .v n) →
        exec (.vcmp f) s = s.passes c ((laneList act).foldl (fun h k => h.wrLane32 f.dst k (if holds k then 1 else 0)) c.gang) ∧
        exec (.vfcmp f) s = s.passes c
          (((laneList act).foldl (fun h k => h.wrLane32 f.dst k (if (fl k).1 then 1 else 0)) c.gang).setSticky sticky))) ∧
    ∀ f : FmtA2, Issues s c f.gang false →
      exec (.vfclass f) s = s.passes c (c.gang.eachLane (c.active s.now f.mask)
        (fun g k => ((Ty.ffmt f.ty).classOf (g.laneF s.now f.ty f.a k), 0)) (fun h k x => h.wrLane32 f.dst k x))

/-- Packed forms (R136 to R138): two 16-bit or four 8-bit elements of a 32-bit register, each wrapped or clamped by itself; dot products
accumulate exactly before the one clamp; packing narrows and unpacking widens the elements of one half. -/
def Obligations.PackedForms : Prop :=
  ∀ (s : State) (c : Ctx),
    (∀ f : FmtA2, Issues s c f.gang false →
      let sg := f.ty.isI
      let w := f.ty.width
      let lanes (v : Nat → Nat → Nat × W32) : Answer := s.passes c (c.gang.eachLane (c.active s.now f.mask)
        (fun g k => v (g.lane32 s.now f.a k) (g.lane32 s.now f.b k)) (fun h k x => h.wrLane32 f.dst k x))
      let two (v : Int → Int → Int) (x y : Nat) : Nat × W32 :=
        let lo := outW f.sat sg 16 (v (elem sg 16 x 0) (elem sg 16 y 0))
        let hi := outW f.sat sg 16 (v (elem sg 16 x 1) (elem sg 16 y 1))
        (lo.1 % 2 ^ 16 + hi.1 % 2 ^ 16 * 2 ^ 16, lo.2 ||| hi.2)
      let q (v : Int → Int → Int) (x y : Nat) : Nat × W32 := packElems w ((List.range (32 / w)).map (fun k =>
        outW true sg w (v (elem sg w x k) (elem sg w y k))))
      exec (.vadd2 f) s = lanes (two (· + ·)) ∧ exec (.vsub2 f) s = lanes (two (· - ·)) ∧
      exec (.vqadd f) s = lanes (q (· + ·)) ∧ exec (.vqsub f) s = lanes (q (· - ·)) ∧
      exec (.vshrr f) s = lanes (fun x n => packElems w ((List.range (32 / w)).map (fun k =>
        shrrElem f.sat sg w n (elem sg w x k)))) ∧
      (w = 16 → exec (.vpack f) s = lanes (fun x y =>
        let lo := outW f.sat sg 16 (elem true 32 x 0)
        let hi := outW f.sat sg 16 (elem true 32 y 0)
        (lo.1 % 2 ^ 16 + hi.1 % 2 ^ 16 * 2 ^ 16, lo.2 ||| hi.2))) ∧
      (w = 8 → exec (.vpack f) s = lanes (fun x y => packElems 8 [outW f.sat sg 8 (elem true 16 x 0), outW f.sat sg 8 (elem true 16 x 1),
        outW f.sat sg 8 (elem true 16 y 0), outW f.sat sg 8 (elem true 16 y 1)]))) ∧
    (∀ f : FmtA3, Issues s c f.gang false →
      let sg := f.ty.isI
      let lanes (v : Nat → Nat → Nat → Nat × W32) : Answer := s.passes c (c.gang.eachLane (c.active s.now f.mask)
        (fun g k => v (g.lane32 s.now f.a k) (g.lane32 s.now f.b k) (g.lane32 s.now f.c k)) (fun h k x => h.wrLane32 f.dst k x))
      exec (.vmac2 f) s = lanes (fun x y z => outW f.sat sg 32
        (elem sg 32 z 0 + elem sg 16 x 0 * elem sg 16 y 0 + elem sg 16 x 1 * elem sg 16 y 1)) ∧
      exec (.vdot4 f) s = lanes (fun x y z => outW f.sat sg 32
        (elem sg 32 z 0 + elem sg 8 x 0 * elem sg 8 y 0 + elem sg 8 x 1 * elem sg 8 y 1 + elem sg 8 x 2 * elem sg 8 y 2 +
          elem sg 8 x 3 * elem sg 8 y 3))) ∧
    ∀ f : FmtA2S, Issues s c f.gang false →
      let sg := f.ty.isI
      let part := f.sel.toNat
      let lanes (v : Nat → Nat) : Answer := s.passes c (c.gang.eachLane (c.active s.now f.mask)
        (fun g k => (v (g.lane32 s.now f.a k), 0)) (fun h k x => h.wrLane32 f.dst k x))
      (f.ty.width = 16 → exec (.vunpack f) s = lanes (fun x => (elem sg 16 x part % (2 : Int) ^ 32).toNat)) ∧
      (f.ty.width = 8 → exec (.vunpack f) s = lanes (fun x =>
        (elem sg 8 x (2 * part) % (2 : Int) ^ 16).toNat + (elem sg 8 x (2 * part + 1) % (2 : Int) ^ 16).toNat * 2 ^ 16))

/-- Float forms (R90 to R95, R130, R140): each active lane's operands give one exact value, rounded once into the type, with FTZ and the
sticky bits; `vfma` adds the exact product before its one rounding; the long forms read their sources at issue and land later under
flag B. -/
def Obligations.FloatForms : Prop :=
  ∀ (s : State) (c : Ctx),
    (∀ f : FmtA3, Issues s c f.gang false →
      exec (.vfma f) s = s.passes c (c.gang.eachLane (c.active s.now f.mask)
        (fun g k => finishTy f.ty f.rnd f.sat g.ftz
          (fmaV f.rnd (g.laneF s.now f.ty f.a k) (g.laneF s.now f.ty f.b k) (g.laneF s.now f.ty f.c k)))
        (fun h k x => h.wrLane f.ty f.dst k x))) ∧
    (∀ (rnd : Rnd) (n1 n2 n3 : Bool) (m1 m2 m3 : Nat) (e1 e2 e3 : Int),
      let num (n : Bool) (m : Nat) : Int := if n then -(m : Int) else m
      ∃ (n : Bool) (m : Nat) (e : Int), fmaV rnd (.fin n1 m1 e1) (.fin n2 m2 e2) (.fin n3 m3 e3) = (.fin n m e, 0) ∧
        e ≤ e1 + e2 ∧ e ≤ e3 ∧ num n m = num n1 m1 * num n2 m2 * (2 : Int) ^ (e1 + e2 - e).toNat + num n3 m3 * (2 : Int) ^ (e3 - e).toNat) ∧
    ∀ f : FmtF2, Issues s c f.gang false →
    let act := c.active s.now f.mask
    let a (g : Gang) (k : Nat) : FVal := g.laneF s.now f.ty f.a k
    let b (g : Gang) (k : Nat) : FVal := g.laneF s.now f.ty f.b k
    let one (g : Gang) (v : FVal × W32) : Nat × W32 := finishTy f.ty f.rnd f.sat g.ftz v
    let lanes (v : Gang → Nat → FVal × W32) : Answer := s.passes c
      (c.gang.eachLane act (fun g k => one g (v g k)) (fun h k x => h.wrLane f.ty f.dst k x))
    let later (v : FVal → FVal × W32) : Answer := .next ((s.addResult c
      ((laneList act).flatMap (fun k => laneWrites f.ty f.dst k (one c.gang (v (a c.gang k))).1))
      ((laneList act).foldl (fun m k => m ||| (one c.gang (v (a c.gang k))).2) 0)).advance c.uid c.slice)
    exec (.vfadd f) s = lanes (fun g k => addV f.rnd (a g k) (b g k)) ∧
    exec (.vfsub f) s = lanes (fun g k => addV f.rnd (a g k) (b g k).negate) ∧
    exec (.vfmul f) s = lanes (fun g k => mulV (a g k) (b g k)) ∧
    exec (.vfmin f) s = lanes (fun g k => minmaxV false (a g k) (b g k)) ∧
    exec (.vfmax f) s = lanes (fun g k => minmaxV true (a g k) (b g k)) ∧
    exec (.vfrcp f) s = later rcpV ∧ exec (.vfrsq f) s = later rsqrtV ∧ exec (.vfsqrt f) s = later sqrtV ∧
    exec (.vfexp2 f) s = later exp2V ∧ exec (.vflog2 f) s = later log2V

/-- Conversions (R142 to R144): the source slot of the source type, converted, into the destination slot; an integer to integer by the
SAT rule, a float by its format, an integer or float exactly before the one rounding; FTZ flushes an FP32 source but of a conversion
into another float format (R93; that it does so before a conversion to an integer is log 55's reading). -/
def Obligations.Conversions : Prop :=
  ∀ (s : State) (c : Ctx) (f : FmtCV), Issues s c f.gang false →
    let lanes (v : Gang → Nat → Nat × W32) : Answer := s.passes c (c.gang.eachLane (c.active s.now f.mask)
      (fun g k => v g (g.slotVal s.now f k)) (fun h k x => h.wrSlot f k x))
    exec (.vcvt f) s = lanes (fun _ x => outW f.sat (ctySigned f.dty) f.dty.width (intOf f.sty x)) ∧
    exec (.vfcvt f) s = lanes (fun g x => toFloat f.dty f.rnd f.sat g.ftz (floatOf f.sty (g.ftz && f.dty == .f32) x)) ∧
    exec (.vftoi f) s = lanes (fun g x => toInt f.dty f.rnd (floatOf f.sty g.ftz x)) ∧
    exec (.vitof f) s = lanes (fun g x => toFloat f.dty f.rnd f.sat g.ftz (intVal (intOf f.sty x)))

/-- Cross-lane forms (R145 to R151): every source is read at issue from a present lane of the group, or the fill is taken; the results
land later under flag B; reductions and scans take the active lanes in ascending number. -/
def Obligations.CrossLaneForms : Prop :=
  ∀ (s : State) (c : Ctx),
    (∀ f : FmtA3S, Issues s c f.gang false →
      let act := c.active s.now f.mask
      let b (k : Nat) : Nat := c.gang.lane32 s.now f.b k
      let fill (k : Nat) : Nat := c.gang.laneVal s.now f.ty f.c k
      let source (src : Int) (k : Nat) : Nat :=
        if 0 ≤ src ∧ src < 128 ∧ c.lanes.getLsbD src.toNat = true then c.gang.laneVal s.now f.ty f.a src.toNat else fill k
      let lands (t : Ty) (v : Nat → Nat) : Answer :=
        .next ((s.addResult c ((laneList act).flatMap (fun k => laneWrites t f.dst k (v k))) 0).advance c.uid c.slice)
      (f.sel.toNat % 4 = 0 → exec (.vshfl f) s = lands f.ty (fun k => source (b k) k)) ∧
      (f.sel.toNat % 4 = 1 → exec (.vshfl f) s = lands f.ty (fun k => source ((k : Int) - b k) k)) ∧
      (f.sel.toNat % 4 = 2 → exec (.vshfl f) s = lands f.ty (fun k => source ((k : Int) + b k) k)) ∧
      (f.sel.toNat % 4 = 3 → exec (.vshfl f) s = lands f.ty (fun k => source ((k ^^^ b k : Nat) : Int) k)) ∧
      exec (.vshflx f) s = lands f.ty (fun k =>
        let seg := 8 * 2 ^ (f.sel.toNat / 4)
        let q := shflPos f.sel.toNat (k % seg) (b k)
        if 0 ≤ q ∧ q < seg then source (((seg * (k / seg) : Nat) : Int) + q) k else fill k) ∧
      (f.sel = 0 → exec (.vbcast f) s = lands f.ty (fun k => source (c.gang.scalar32 s.now f.b) k)) ∧
      (f.sel ≠ 0 → exec (.vbcast f) s = lands f.ty (fun k => if c.gang.scalar32 s.now f.b < 8 then
        source ((8 * (k / 8) + c.gang.scalar32 s.now f.b : Nat) : Int) k else fill k)) ∧
      (f.ty.is64 = true → exec (.vslide f) s = lands .b64 (fun k => c.slideElem s.now f (c.gang.scalar32 s.now f.b) k 0)) ∧
      (f.ty.is64 = false → exec (.vslide f) s = lands .b32 (fun k => (List.range (32 / f.ty.width)).foldl (fun a j =>
        a + c.slideElem s.now f (c.gang.scalar32 s.now f.b) k j * 2 ^ (f.ty.width * j)) 0))) ∧
    ∀ f : FmtA2S, Issues s c f.gang false →
      let act := laneList (c.active s.now f.mask)
      let hold := c.gang.condLanes s.now f.a (c.active s.now f.mask)
      let vals := act.map (fun k => c.gang.laneVal s.now f.ty f.a k)
      let op := f.sel.toNat
      let red (n : Nat) (l : List Nat) : Nat × W32 := reduceVals n f.ty f.sat c.gang.ftz l
      let lands (w : List RegWrite) (x : W32) : Answer := .next ((s.addResult c w x).advance c.uid c.slice)
      let bool (b : Bool) : W32 := if b then 1 else 0
      (∀ n, f.dst = .m n → exec (.vvote f) s = lands [.m n.toNat c.lanes hold] 0) ∧
      (∀ n, f.dst = .s n →
        (op = 1 → exec (.vvote f) s = lands [.s n.toNat (bool (hold != 0))] 0) ∧
        (op = 2 → exec (.vvote f) s = lands [.s n.toNat (bool (hold == c.active s.now f.mask))] 0) ∧
        (op = 3 → exec (.vvote f) s = lands [.s n.toNat (bool (vals.all (fun v => v == vals.headD 0)))] 0) ∧
        (op ≠ 1 → op ≠ 2 → op ≠ 3 → exec (.vvote f) s = lands [.s n.toNat (BitVec.ofNat 32 (laneCount hold))] 0) ∧
        exec (.vreduce f) s = lands (scalarWrites f.ty f.dst (red op vals).1) (red op vals).2) ∧
      (∀ n, f.dst = .v n →
        exec (.vreduce f) s = lands (act.flatMap (fun k => laneWrites f.ty f.dst k (red op vals).1)) (red op vals).2 ∧
        exec (.vscan f) s =
          (let rs := (List.range act.length).map (fun j => red (op % 8) (vals.take (if op.testBit 3 then j else j + 1)))
          lands ((act.zip rs).flatMap (fun p => laneWrites f.ty f.dst p.1 p.2.1)) (rs.foldl (fun a r => a ||| r.2) 0)))

/-! ## Memory and synchronisation words -/

/-- Loads (R60, R152, R155, R164, R165, R206): an address that fails a check faults before any effect; else one operation on `ld` and
flag A holds every lane's access, its lines join the open read set, in a deterministic launch it resolves at once, and the group
goes on where no lane's page is without a translation. The word waits until every page is answered (log 57). Pending lanes that replay
join the operation they belong to, due at the later clock. `lds` loads once, for the group, without consulting `em`. -/
def Obligations.Loads : Prop :=
  ∀ (s : State) (c : Ctx) (f : FmtM),
    let w := f.ty.bytes
    let form (scalar : Bool) (l : List (Nat × W64)) (pend : List Miss → Lanes) (answer : Answer) : Prop :=
      s.heldRemote (l.map (·.2)) = false →
      let checked := s.checkAll (c.gang.party s) c.grp .plain true false w w l
      (∀ tval code, checked = .bad tval code → answer = .next (s.faults c code tval)) ∧
      (∀ miss, checked = .wait miss → answer = .next (s.awaitPages c (c.gang.party s).pasid false miss (pend miss))) ∧
      (∀ hits miss, checked = .go hits miss →
        let accs := hits.map (s.loadAcc c.gang w)
        let noted := s.setGang (c.gang.noteReads (hitLines hits))
        let ends (u : State) (id : Nat) : Prop :=
          ∀ t, (c.gang.det s = false → t = u) →
            (c.gang.det s = true → ∀ o, (u.gang? c.uid).bind (fun g => g.op? id) = some o → t = u.resolveOp c.uid (some c.slice) o) →
            (c.gang.det s = true → (u.gang? c.uid).bind (fun g => g.op? id) = none → t = u) →
            (miss = [] → answer = .next (t.advance c.uid c.slice)) ∧
            (miss ≠ [] → answer = .next (t.waitFor c (c.gang.party s).pasid false miss (pend miss) (some id)))
        (c.run.replay = none → ends (noted.addOp c.uid (fun id =>
          { Op.make id (.load f.ty scalar (regNum f.dst) accs) (some .ld) c.run.header.fa c.pc with
            done := hits.isEmpty, due := s.memDue c.gang hits })) s.nextOp) ∧
        ∀ id o ty b d old, c.run.replay = some id → c.gang.op? id = some o → o.kind = .load ty b d old →
          ends (State.updGang { noted with nextOp := noted.nextOp + 1 } c.uid (fun g => g.setOp { o with
            kind := .load ty b d (old ++ accs), done := o.done && hits.isEmpty, due := laterDue o.due (s.memDue c.gang hits) })) id)
    (Issues s c f.gang false → form false ((laneList (c.active s.now f.mask)).map (fun k =>
      (k, c.gang.effAddr s.now f.base f.voff f.imm.toInt k))) missLanes (exec (.ld f) s)) ∧
    (Issues s c false false → form true [(8 * lowSlice c.grp.slices, c.gang.effAddr s.now f.base none f.imm.toInt 0)]
      (fun _ => c.activeAll) (exec (.lds f) s))

/-- Stores (R152, R155, R159, R160, R164, R165, R206): checks first, then the galley's capacity; then the lanes' bytes enter the gang galley, or
their scratch, in ascending lane number, one operation on `st` and flag A is outstanding, and the group goes on where no lane's
page is without a translation. The word waits until every page is answered (log 57). Pending lanes that replay join the operation they
belong to, due at the later clock. -/
def Obligations.Stores : Prop :=
  ∀ (s : State) (c : Ctx) (f : FmtM),
    let w := f.ty.bytes
    let data := c.gang.dataVal s.now f.ty f.dst
    let form (l : List (Nat × W64)) (pend : List Miss → Lanes) (answer : Answer) : Prop :=
      s.heldRemote (l.map (·.2)) = false →
      let checked := s.checkAll (c.gang.party s) c.grp .plain false true w w l
      (∀ tval code, checked = .bad tval code → answer = .next (s.faults c code tval)) ∧
      (∀ miss, checked = .wait miss → answer = .next (s.awaitPages c (c.gang.party s).pasid true miss (pend miss))) ∧
      (∀ hits miss, checked = .go hits miss →
        (∀ ea, c.gang.storeOverflow hits = some ea → answer = .next (s.faults c .accessDenied ea)) ∧
        (c.gang.storeOverflow hits = none →
          let r := s.storeLanes c.uid w (hits.map (fun h => (h, data h.lane)))
          let ends (u : State) (id : Nat) : Prop :=
            let t := (u.watchSees c.uid (some c.slice) c.pc ((u.gang? c.uid).bind (fun g => g.op? id)) r.2).fireTriggers c.uid 1
              (fun g => (hits.flatMap (fun h => wholeWords h.ea w (data h.lane))).any (fun e => g.dataMatch e.1 e.2))
            (miss = [] → answer = .next (t.advance c.uid c.slice)) ∧
            (miss ≠ [] → answer = .next (t.waitFor c (c.gang.party s).pasid true miss (pend miss) (some id)))
          (c.run.replay = none → ends (r.1.addOp c.uid (fun id => { Op.make id .store (some .st) c.run.header.fa c.pc with
            done := true, due := s.memDue c.gang hits })) r.1.nextOp) ∧
          ∀ id o, c.run.replay = some id → c.gang.op? id = some o →
            ends (State.updGang { r.1 with nextOp := r.1.nextOp + 1 } c.uid (fun g => g.setOp { o with
              due := laterDue o.due (s.memDue c.gang hits) })) id))
    (Issues s c f.gang false → form ((laneList (c.active s.now f.mask)).map (fun k =>
      (k, c.gang.effAddr s.now f.base f.voff f.imm.toInt k))) missLanes (exec (.st f) s)) ∧
    (Issues s c false false → form [(8 * lowSlice c.grp.slices, c.gang.effAddr s.now f.base none f.imm.toInt 0)]
      (fun _ => c.activeAll) (exec (.sts f) s))

/-- Where a store goes (R157, R160): each lane's bytes stand, little-endian, in the gang galley at that lane's address, or in memory where
it is the lane's scratch; every other byte of the galley and of memory is as before. -/
def Obligations.StoredBytes : Prop :=
  ∀ (s : State) (uid : Nat) (g : Gang) (h : Hit) (n x : Nat), s.gang? uid = some g →
    let t := s.enterStore uid h n x
    let here (a : Nat) : Prop := h.addr ≤ a ∧ a < h.addr + n
    (h.inGalleys = true → t.mem = s.mem ∧ t.hostCopy = s.hostCopy ∧ ∃ g', t.gang? uid = some g' ∧
      (∀ a, here a → Store.get? g'.galley.bytes a = some (BitVec.ofNat 8 (x / 256 ^ (a - h.addr)))) ∧
      (∀ a, ¬ here a → Store.get? g'.galley.bytes a = Store.get? g.galley.bytes a) ∧
      g' = { g with galley := { g.galley with bytes := g'.galley.bytes } }) ∧
    (h.inGalleys = false → t.gangs = s.gangs ∧ ∀ a, ¬ here a → t.readByte a = s.readByte a)

/-- Atomics (R155, R174 to R178, R206): checks of both rights first; then one request for each distinct address, its lanes in ascending
number, in one operation on `ld` and flag A; the group goes on where no lane's page is without a translation. The word waits until
every page is answered (log 57). Pending lanes that replay join the operation they belong to, their requests behind its own. -/
def Obligations.Atomics : Prop :=
  ∀ (s : State) (c : Ctx) (f : FmtMA), Issues s c false false →
    let l := (laneList (c.active s.now f.mask)).map (fun k => (k, c.gang.effAddr s.now f.base f.voff 0 k))
    let checked := s.checkAll (c.gang.party s) c.grp (.atomic (f.scope == .domain)) true true f.ty.bytes f.ty.bytes l
    let val (o : Opd) (k : Nat) : W64 := BitVec.ofNat 64 (c.gang.laneVal s.now f.ty o k)
    let form (kind : Nat) (cmp : Nat → W64) (answer : Answer) : Prop := s.heldRemote (l.map (·.2)) = false →
      (∀ tval code, checked = .bad tval code → answer = .next (s.faults c code tval)) ∧
      (∀ miss, checked = .wait miss → answer = .next (s.awaitPages c (c.gang.party s).pasid true miss (missLanes miss))) ∧
      ∀ hits miss, checked = .go hits miss →
        let reqs := atomReqs s.nextOp hits (val f.b) cmp
        let ends (t : State) (id : Nat) : Prop :=
          (miss = [] → answer = .next (t.advance c.uid c.slice)) ∧
          (miss ≠ [] → answer = .next (t.waitFor c (c.gang.party s).pasid true miss (missLanes miss) (some id)))
        (c.run.replay = none → ends (s.addOp c.uid (fun id =>
          { Op.make id (.atom { kind := kind, op := f.sel.toNat, ty := f.ty, scope := f.scope
                                dst := (match f.dst with | .v n => some n.toNat | _ => none), reqs := reqs })
              (some .ld) c.run.header.fa c.pc with done := reqs.isEmpty, due := s.atomDue c.gang f.scope hits })) s.nextOp) ∧
        ∀ id o a, c.run.replay = some id → c.gang.op? id = some o → o.kind = .atom a →
          ends (State.updGang { s with nextOp := s.nextOp + 1 } c.uid (fun g => g.setOp { o with
            kind := .atom { a with reqs := a.reqs ++ reqs }, done := o.done && reqs.isEmpty
            due := laterDue o.due (s.atomDue c.gang f.scope hits) })) id
    form 0 (fun _ => 0) (exec (.atom f) s) ∧ form 1 (fun _ => 0) (exec (.atomf f) s) ∧ form 2 (val f.dst) (exec (.atomcas f) s)

/-- The combining of an atomic (R176): every lane of every access stands in exactly the request of its address, in ascending order; an
integer request gives each lane the value its predecessors leave, and leaves what the lanes leave one after another. -/
def Obligations.AtomicRequests : Prop :=
  ∀ (order : Nat) (hits : List Hit) (b cmp : Nat → W64),
    let reqs := atomReqs order hits b cmp
    (reqs.map (fun r => r.addr)).Nodup ∧
    (∀ r ∈ reqs, r.lanes = (hits.filter (fun h => h.addr == r.addr)).map (fun h => (h.lane, b h.lane, cmp h.lane)) ∧ r.lanes ≠ []) ∧
    (∀ h ∈ hits, ∃ r ∈ reqs, r.addr = h.addr) ∧
    ∀ (a : AtomOp) (m : Nat) (r : AReq), a.kind = 0 →
      let w := a.ty.width
      let num (x : Nat) : Int := if a.ty.isI = true ∧ 2 ^ (w - 1) ≤ x then (x : Int) - (2 : Int) ^ w else x
      let acc (k : Nat) : Nat := (r.lanes.take k).foldl (fun x l => atomCombine a.ty a.op x l.2.1.toNat) m
      (a.run m r).1 = acc r.lanes.length ∧
      (∀ d : BitVec 8, a.dst = some d.toNat → (a.run m r).2 = ((List.range r.lanes.length).zip r.lanes).flatMap (fun p =>
        laneWrites a.ty (.v d) p.2.1 (acc p.1))) ∧
      ∀ x y, x < 2 ^ w → y < 2 ^ w → atomCombine a.ty 0 x y = (x + y) % 2 ^ w ∧
        atomCombine a.ty 1 x y = (if num x ≤ num y then x else y) ∧ atomCombine a.ty 2 x y = (if num x ≤ num y then y else x) ∧
        atomCombine a.ty 3 x y = x &&& y ∧ atomCombine a.ty 4 x y = x ||| y ∧ atomCombine a.ty 5 x y = x ^^^ y ∧
        atomCombine a.ty 6 x y = y

/-- `commit`, `commitc`, `mark`, `abort` and `waitcnt` (R50, R167 to R173, R180): a commit detaches the gang galley behind its turn, a mark
pushes a save point and faults at the ninth, an abort of the gang level takes effect at once, `waitcnt` passes at n or below. -/
def Obligations.CommitsAndWaits : Prop :=
  ∀ (s : State) (c : Ctx) (f : FmtY),
    let lvl := f.lvl.rank
    let through : Answer := .next (s.advance c.uid c.slice)
    (Issues s c true false →
      (c.commitFaults s lvl = true → exec (.commit f) s = .next (s.faults c .detViolation c.pc)) ∧
      (c.commitFaults s lvl = false → (lvl = 3 → s.domainPending = none) →
        exec (.commit f) s = .next ((s.issueCommit c lvl none none).advance c.uid c.slice)) ∧
      exec (.commitc f) s = .next ((s.issueCommit c lvl (some (regNum f.dst)) none).advance c.uid c.slice) ∧
      (f.lvl = .gang → c.gang.dlist = [] →
        exec (.abort f) s = s.passes c { c.gang.closeReads with galley := c.gang.closeReads.galley.abort (f.sel == 1) }) ∧
      (f.lvl ≠ .gang → exec (.abort f) s = .next (s.holdAs c (.heldAbort lvl f.sel.toNat)))) ∧
    (Issues s c false false →
      (f.lvl = .gang → c.gang.dlist = [] →
        (8 ≤ c.gang.galley.marks.length → exec (.mark f) s = .next (s.faults c .illegalInstruction c.pc)) ∧
        (c.gang.galley.marks.length < 8 →
          exec (.mark f) s = s.passes c { c.gang.closeReads with galley := c.gang.closeReads.galley.mark (f.sel == 1) })) ∧
      (f.lvl = .block → ∀ b, s.block? c.gang.block = some b →
        (8 ≤ b.galley.marks.length → exec (.mark f) s = .next (s.faults c .illegalInstruction c.pc)) ∧
        (b.galley.marks.length < 8 →
          exec (.mark f) s = .next ((s.setBlock { b with galley := b.galley.mark false }).advance c.uid c.slice))) ∧
      (c.gang.count (ctrOf f.sel.toNat) ≤ c.gang.scalar32 s.now f.a → c.gang.errs = [] → exec (.waitcnt f) s = through) ∧
      (c.gang.scalar32 s.now f.a < c.gang.count (ctrOf f.sel.toNat) → exec (.waitcnt f) s = .next s))

/-- What a commit leaves behind at its issue (R168, step 1): the gang galley's bytes stand in a new entry of D(g) under the commit's number, the
galley holds no byte, its save points stay with their read sets closed, and no byte of memory has changed. -/
def Obligations.CommitDetaches : Prop :=
  ∀ (s : State) (c : Ctx) (lvl : Nat) (cond : Option Nat), s.ctx? = some c →
    let t := s.issueCommit c lvl cond none
    SameBytes s t ∧ ∃ g d, t.gang? c.uid = some g ∧ g.dlist = c.gang.dlist ++ [d] ∧ d.op = s.nextOp ∧
      d.bytes = c.gang.galley.bytes ∧ d.lvl = lvl ∧ d.arrive = none ∧ g.galley.bytes = [] ∧
      g.galley.marks = c.gang.galley.marks.map (fun p => { p with isOpen := false }) ∧ g.sregs = c.gang.sregs ∧ g.vregs = c.gang.vregs

/-- `bara`, `bars`, `barw` and `barx` (R181 to R185): misuse faults at the word; an arrival without commit is taken at once, one with commit
follows its grant; a waiter sleeps until the phase of the gang's last arrival is complete. An arrival that is still on its way counts
as made (the model's reading, log 54). -/
def Obligations.BarrierWords : Prop :=
  ∀ (s : State) (c : Ctx) (f : FmtY),
    let n := f.sel.toNat % 32
    let commit := f.sel.getLsbD 5
    let lvl := f.lvl.rank
    (Issues s c commit false → c.bar? s n = none →
      exec (.bara f) s = .next (s.faults c .barrierMisuse c.pc) ∧ exec (.bars f) s = .next (s.faults c .barrierMisuse c.pc)) ∧
    (Issues s c false false → c.bar? s n = none →
      exec (.barw f) s = .next (s.faults c .barrierMisuse c.pc) ∧ exec (.barx f) s = .next (s.faults c .barrierMisuse c.pc)) ∧
    (∀ blk b, c.bar? s n = some (blk, b) →
      let here := (b.gang c.uid).arrived ||| c.gang.arrivalPending n
      (Issues s c commit false →
        (here &&& c.grp.slices ≠ 0 →
          exec (.bara f) s = .next (s.faults c .barrierMisuse c.pc) ∧ exec (.bars f) s = .next (s.faults c .barrierMisuse c.pc)) ∧
        (here &&& c.grp.slices = 0 →
          let asleep := s.setGang (c.gang.setGroup { c.grp with status := .sleepBar n none })
          (commit = false →
            exec (.bara f) s = .next ((s.sendArrival c.uid n c.grp.slices c.pc).advance c.uid c.slice) ∧
            exec (.bars f) s = .next ((asleep.sendArrival c.uid n c.grp.slices c.pc).advance c.uid c.slice)) ∧
          (commit = true → c.commitFaults s lvl = false → (lvl = 3 → s.domainPending = none) →
            exec (.bara f) s = .next ((s.issueCommit c lvl none (some (n, c.grp.slices, false))).advance c.uid c.slice) ∧
            exec (.bars f) s = .next ((asleep.issueCommit c lvl none (some (n, c.grp.slices, true))).advance c.uid c.slice)))) ∧
      (Issues s c false false →
        (c.gang.arrivalPending n ≠ 0 → exec (.barw f) s = s.passes c (c.gang.setGroup { c.grp with status := .sleepBar n none })) ∧
        (c.gang.arrivalPending n = 0 → (b.gang c.uid).last = none → exec (.barw f) s = .next (s.advance c.uid c.slice)) ∧
        ∀ p, c.gang.arrivalPending n = 0 → (b.gang c.uid).last = some p →
          (p ≤ b.phase → exec (.barw f) s = .next (s.advance c.uid c.slice)) ∧
          (b.phase < p → exec (.barw f) s = s.passes c (c.gang.setGroup { c.grp with status := .sleepBar n (some p) })))) ∧
    (Issues s c false false → ∀ blk b, c.bar? s n = some (blk, b) →
      let x := b.bytes + (c.gang.scalar32 s.now f.a : Int)
      (-(2 : Int) ^ 47 < x ∧ x < (2 : Int) ^ 47 → exec (.barx f) s = .next ((s.setBar blk { b with bytes := x }).advance c.uid c.slice)) ∧
      (¬ (-(2 : Int) ^ 47 < x ∧ x < (2 : Int) ^ 47) → exec (.barx f) s = .next (s.faults c .barrierMisuse c.pc)))

/-- Barriers (R183, R185): a gang's arrival counts once all its live slices have arrived and only once in a phase; the phase is complete when
the arrivals equal the membership and no bytes are expected; then everything is cleared and the phase number grows; a gang that
retires after it has ever arrived takes its membership and its arrival with it. -/
def Obligations.BarrierPhases : Prop :=
  ∀ (b : Bar) (uid : Nat) (slices live : Slices),
    let b' := b.arrive uid slices live
    b'.members = b.members ∧ b'.phase = b.phase ∧ b'.bytes = b.bytes ∧
    b'.arrivals = (if (b.gang uid).counted = false ∧ (b.gang uid).arrived ||| slices ≠ 0 ∧ live ≠ 0 ∧
      live &&& ~~~ ((b.gang uid).arrived ||| slices) = 0 then b.arrivals + 1 else b.arrivals) ∧
    (b'.gang uid).arrived = (b.gang uid).arrived ||| slices ∧
    (b.complete = true ↔ b.members ≠ 0 ∧ b.arrivals = b.members ∧ b.bytes = 0) ∧
    b.flip.arrivals = 0 ∧ b.flip.phase = b.phase + 1 ∧ (b.flip.gang uid).arrived = 0 ∧ (b.flip.gang uid).counted = false ∧
    (b.withdraw uid).members = (if (b.gang uid).ever then b.members - 1 else b.members) ∧
    (b.withdraw uid).arrivals = (if (b.gang uid).ever && (b.gang uid).counted then b.arrivals - 1 else b.arrivals) ∧
    (b.withdraw uid).gang uid = { gang := uid, arrived := 0, counted := false, ever := false, last := none }

/-- `vralloc`, `launch` and `sigop` (R204, R216, R219). -/
def Obligations.AllotLaunchSignal : Prop :=
  ∀ (s : State) (c : Ctx) (f : FmtS), Issues s c false false →
    let a := c.gang.scalar32 s.now f.a
    let cur := c.allotNow.1
    let whole := c.gang.live &&& ~~~ c.grp.slices = 0
    let free := 131072 - s.partUsed c.gang.home.1 c.gang.home.2
    (¬ whole → exec (.vralloc f) s = .next (s.faults c .illegalConvergence c.pc)) ∧
    (whole → 1 ≤ a → a ≤ 32 →
      (f.sel = 0 → 8 * a ≤ cur → exec (.vralloc f) s = .next ((c.takeAllot s f.dst (8 * a) 0).advance c.uid c.slice)) ∧
      (f.sel = 0 → cur < 8 * a → exec (.vralloc f) s = .next (s.faults c .illegalInstruction c.pc)) ∧
      (f.sel ≠ 0 → 8 * a < cur → exec (.vralloc f) s = .next (s.faults c .illegalInstruction c.pc)) ∧
      (f.sel ≠ 0 → cur ≤ 8 * a → s.partUsed c.gang.home.1 c.gang.home.2 ≤ 131072 →
        ((8 * a - cur) * c.gang.measure * 4 ≤ free →
          exec (.vralloc f) s = .next ((c.takeAllot s f.dst (8 * a) (8 * a - cur)).advance c.uid c.slice)) ∧
        (free < (8 * a - cur) * c.gang.measure * 4 → exec (.vralloc f) s = s.passes c (c.gang.wrScalar32 f.dst 0)))) ∧
    (whole → (a = 0 ∨ 32 < a) → exec (.vralloc f) s = .next (s.faults c .illegalInstruction c.pc)) ∧
    (10 ≤ c.gang.depth s → exec (.launch f) s = .next (s.faults c .nestingOverflow c.pc)) ∧
    (c.gang.depth s < 10 → ∃ t, t = s.addOp c.uid (fun id =>
        { Op.make id (.launch (regNum f.dst) ((laneList c.activeAll).map (fun k => (k, c.gang.lane64 s.now f.a k))))
            none c.run.header.fa c.pc with due := behindDue (s.releaseDue c.gang) (s.dueAt c.gang s.flash.latLaunch) }) ∧
      exec (.launch f) s = .next ((t.releaseFor c s.nextOp).advance c.uid c.slice)) ∧
    (let ea := c.gang.scalar64 s.now f.a
      let checked := s.checkAll (c.gang.party s) c.grp .plain true (f.sel.toNat != 2) 8 8 [(8 * lowSlice c.grp.slices, ea)]
      (2 < ea.toNat / 2 ^ 57 → exec (.sigop f) s = .next (s.faults c .spaceInvalid ea)) ∧
      (ea.toNat / 2 ^ 57 ≤ 2 →
        (∀ tval code, checked = .bad tval code → exec (.sigop f) s = .next (s.faults c code tval)) ∧
        (∀ miss, checked = .wait miss → exec (.sigop f) s =
          .next (s.awaitPages c (c.gang.party s).pasid (f.sel.toNat != 2) miss c.activeAll)) ∧
        (∀ miss, checked = .go [] miss → exec (.sigop f) s =
          .next (s.waitFor c (c.gang.party s).pasid (f.sel.toNat != 2) miss c.activeAll none)) ∧
        ∀ h rest miss, checked = .go (h :: rest) miss → ∃ t, t = s.addOp c.uid (fun id =>
            { Op.make id (.sigop f.sel.toNat (regNum f.dst) h.addr ea (c.gang.scalar64 s.now f.b)) none c.run.header.fa c.pc with
              due := behindDue (if f.sel.toNat = 2 then none else s.releaseDue c.gang) (s.dueAt c.gang s.flash.latDevice)
              started := f.sel.toNat == 2 }) ∧
          exec (.sigop f) s = .next ((if f.sel.toNat = 2 then t else t.releaseFor c s.nextOp).advance c.uid c.slice)))

/-! ## Engine, compositor and debug words -/

/-- Matrix words (R233, R234, R238 to R244): a group that is not the whole gang with every present lane in `em` faults; operands are read at
issue, one operation on `mx` and flag B joins the partition's queue, and the group goes on. -/
def Obligations.MatrixWords : Prop :=
  ∀ (s : State) (c : Ctx), Issues s c false false →
    let queued (m : MatOp) (own : Cells) : Answer :=
      .next (((s.addOp c.uid (fun id => { Op.make id (.matrix { m with own := own }) (some .mx) c.run.header.fb c.pc with
        due := s.dueAt c.gang s.flash.latMatrix })).queueMatrix c.gang s.nextOp).advance c.uid c.slice)
    let ownOf (l : List (Nat × Nat)) : Cells :=
      (l.flatMap (fun r => c.gang.ownView (localAddr c.gang.block r.1) r.2)).foldl (fun (l : Cells) e => Store.put l e.1 e.2) []
    let bad (code : Code) : Answer := .next (s.faults c code c.pc)
    (∀ f : FmtMX,
      (c.wholeGang = false → exec (.mma f) s = bad .illegalConvergence ∧ exec (.mmas f) s = bad .illegalConvergence ∧
        exec (.mmac f) s = bad .illegalConvergence ∧ exec (.mmag f) s = bad .illegalConvergence) ∧
      (c.wholeGang = true → ∀ m l,
        (c.prepProd s (.mma f) .mma f = .go m l → exec (.mma f) s = queued m (ownOf l)) ∧
        (c.prepProd s (.mmas f) .mmas f = .go m l → exec (.mmas f) s = queued m (ownOf l)) ∧
        (c.prepProd s (.mmac f) .mmac f = .go m l → exec (.mmac f) s = queued m (ownOf l)) ∧
        (c.prepProd s (.mmag f) .mmag f = .go m l → exec (.mmag f) s = queued m (ownOf l)))) ∧
    (∀ f : FmtQ, c.wholeGang = false → exec (.qclr f) s = bad .illegalConvergence ∧ exec (.qhist f) s = bad .illegalConvergence ∧
      exec (.qscale f) s = bad .illegalConvergence ∧ exec (.qcvt f) s = bad .illegalConvergence) ∧
    ∀ f : FmtQ, c.wholeGang = true →
      let b := c.gang.scalar32 s.now f.b
      let off := c.gang.scalar32 s.now f.c
      let k := qcvtSel f
      exec (.qclr f) s = queued (MatOp.make (.qclr f)) [] ∧
      (b ≤ 32 → regNum f.a + b ≤ c.gang.allot → exec (.qhist f) s = queued { MatOp.make (.qhist f) with
        table := c.gang.binCounts f.sel.toNat (c.gang.tileWords s.now (regNum f.a) b) } []) ∧
      (32 < b → exec (.qhist f) s = bad .illegalInstruction) ∧ (b ≤ 32 → c.gang.allot < regNum f.a + b → exec (.qhist f) s = bad .regRange) ∧
      (b ≤ 1024 → (f.sel = 0x11 → s.feature 4 = true) →
        exec (.qscale f) s = queued { MatOp.make (.qscale f) with b := BitVec.ofNat 64 b } []) ∧
      (1024 < b → exec (.qscale f) s = bad .illegalInstruction) ∧
      (b % 256 ≠ 0xFF → (k.2.1 = 4 → s.feature 4 = true ∧ off % 2 = 0) → off < 2 ^ 19 →
        off + qcvtBytes c.gang.measure k.2.1 k.2.2 ≤ c.gang.localSize s →
        exec (.qcvt f) s = queued { MatOp.make (.qcvt f) with
          src := c.gang.tileWords s.now (regNum f.a) (qcvtSrcRegs c.gang.measure k.1 k.2.1)
          b := BitVec.ofNat 64 (b % 256), c := BitVec.ofNat 64 off } [])

/-- Request words (R250 to R253, R258, R259): a request that fails a check faults before any effect; else it joins the core's engine, its
operands read at issue, with a release first where REL is set; a list queues one operation for each of its blocks, each with its own due
clock behind that of the release, and sets the kick register, unless a word of a higher port has set it in the same clock. -/
def Obligations.RequestWords : Prop :=
  ∀ (s : State) (c : Ctx) (f : FmtRQ), Issues s c false false →
    let base (kind : Nat) : ReqOp := { ReqOp.make kind f.sel.toNat with
      dst := c.gang.scalar64 s.now f.dst, src := c.gang.scalar64 s.now f.a, count := c.gang.scalar32 s.now f.b
      bar := if f.bv then some f.bar.toNat else none }
    let form (rel : Bool) (r : ReqOp) (answer : Answer) : Prop :=
      (∀ code tval, s.checkReq (c.gang.party s) r = some (code, tval) → answer = .next (s.faults c code (tval.getD c.pc))) ∧
      (s.checkReq (c.gang.party s) r = none → c.badBar s r.bar = true → answer = .next (s.faults c .barrierMisuse c.pc)) ∧
      (s.checkReq (c.gang.party s) r = none → c.badBar s r.bar = false → s.domainPending = none →
        answer = .next ((if rel then (s.queueReq c { r with held := some s.nextOp }
            (behindDue (s.releaseDue c.gang) (s.reqDue c.gang r))).releaseFor c s.nextOp
          else s.queueReq c { r with held := none } (s.reqDue c.gang r)).advance c.uid c.slice))
    form f.rel (base 0) (exec (.rqcopy f) s) ∧
    form f.rel { base 1 with src := BitVec.ofNat 64 (c.gang.scalar32 s.now f.a) } (exec (.rqfill f) s) ∧
    form f.rel { base 2 with idx := c.gang.scalar32 s.now f.c } (exec (.rqgather f) s) ∧
    form f.rel { base 3 with idx := c.gang.scalar32 s.now f.c } (exec (.rqscatter f) s) ∧
    form f.rel { base 4 with sig := c.sigOf s.now f.c } (exec (.rqputs f) s) ∧
    form f.rel { base 5 with sig := c.sigOf s.now f.c } (exec (.rqred f) s) ∧ form false (base 7) (exec (.rqswap f) s) ∧
    (let off := c.gang.scalar32 s.now f.a
      let n := c.gang.scalar32 s.now f.b
      (n = 0 ∨ 64 < n → exec (.rqlist f) s = .next (s.faults c .illegalInstruction c.pc)) ∧
      (1 ≤ n → n ≤ 64 → s.checkReqEa (c.gang.party s) true (localEa off) 64 (64 * n) = none →
        let t := (List.range n).foldl (fun t k => t.queueReq c { ReqOp.make 6 0 with
          block := some (off + 64 * k), fetched := false, own := s.dueAt c.gang s.flash.latRequest
          held := if f.rel then some s.nextOp else none }
          (if f.rel then behindDue (s.releaseDue c.gang) (s.dueAt c.gang s.flash.latRequest)
            else s.dueAt c.gang s.flash.latRequest)) s
        let t := t.writeKick c (BitVec.ofNat 64 ((n - 1) * 2 ^ 40 + c.gang.slotIndex % 256 * 2 ^ 32 + off % 2 ^ 19))
        exec (.rqlist f) s = .next ((if f.rel then t.releaseFor c s.nextOp else t).advance c.uid c.slice))) ∧
    ∀ (t : State) (x : W64) (k : Core), t.core? c.gang.coreKey = some k →
      ∃ m, (t.writeKick c x).core? c.gang.coreKey = some { k with
        kick := if k.kickMark.1 = k.clock + 1 ∧ 2 * (t.schedAt c.gang).2 + c.run.port.getD 0 < k.kickMark.2 then k.kick else x
        kickMark := m }

/-- Compositor words (R281 to R285): the active lanes act one after another in ascending number, each in a transition of its own and on
the queue in its own slot, the first only where every lane could; the results land under flag A, those of `qarm` at issue; a lane
that may not act faults the word with no lane's effect. -/
def Obligations.CompositorWords : Prop :=
  ∀ (s : State) (c : Ctx) (f : FmtQ), Issues s c false false →
    let dst := regNum f.dst
    let core := c.gang.coreKey
    let form (lane : Nat → State → CRes (List RegWrite × State)) (atIssue : Bool) (answer : Answer) : Prop :=
      (∀ k rest w u ws t, laneList c.activeAll = k :: rest → (c.run.replaying = false → compFold lane (k :: rest) s = .ok (w, u)) →
        lane k s = .ok (ws, t) →
        let t := t.dropWaiter (ioWork 4 (c.slotOf k))
        let now := t.updGang c.uid (fun g => ws.foldl (fun g x => match x with
          | .v reg lane y => g.wrV reg lane y
          | _ => g) g)
        let later := t.joinOp c (fun id => Op.make id .result none c.run.header.fa c.pc)
          (fun o => { o with done := rest.isEmpty, writes := o.writes ++ ws })
        (rest = [] → answer = .next ((if atIssue then now else later.1).advance c.uid c.slice)) ∧
        (rest ≠ [] → answer = .next (if atIssue then now.keepLanes c rest none else later.1.keepLanes c rest (some later.2)))) ∧
      (laneList c.activeAll ≠ [] → c.run.replaying = false → compFold lane (laneList c.activeAll) s = .ill → answer = .next (State.faults
        ((laneList c.activeAll).foldl (fun (t : State) k => t.dropWaiter (ioWork 4 (c.slotOf k))) s) c .illegalInstruction c.pc))
    form (fun k t => (t.fetchPacket (c.slotOf k)).bind fun r => match r.1 with
      | none => .ok ([.m (match f.a with | .m n => n.toNat | _ => 0) (Lanes1 k) 0], r.2)
      | some p => .ok (p.words.mapIdx (fun j x => RegWrite.v (dst + j) k x) ++
          [.m (match f.a with | .m n => n.toNat | _ => 0) (Lanes1 k) (Lanes1 k)], r.2)) false (exec (.pktld f) s) ∧
    form (fun k t => (t.pktdone (c.slotOf k) f.sel.toNat (c.gang.lane32 t.now f.a k)).bind fun r => .ok ([.v dst k r.1], r.2))
      false (exec (.pktdone f) s) ∧
    form (fun k t => (t.sigrmw (c.slotOf k) (f.sel.toNat % 4) (f.sel.toNat / 4 % 4) (c.gang.lane64 t.now f.a k)
      (c.gang.lane64 t.now f.b k)).bind fun r => .ok ([.v dst k (loHalf r.1), .v (dst + 1) k (hiHalf r.1)], r.2))
      false (exec (.sigrmw f) s) ∧
    form (fun k t => (t.qsave (c.slotOf k) (c.gang.lane64 t.now f.a k)).bind fun u => .ok ([], u)) false (exec (.qsave f) s) ∧
    form (fun k t => (t.qload (c.slotOf k) (c.gang.lane64 t.now f.a k)).bind fun r => .ok ([.v dst k (BitVec.ofNat 32 r.1)], r.2))
      false (exec (.qload f) s) ∧
    form (fun k t => (t.dispatchPacket (c.slotOf k) f.sel.toNat (c.gang.lane32 t.now f.a k)).bind fun r =>
      .ok ([.v dst k (BitVec.ofNat 32 r.1)], r.2)) false (exec (.dispatch f) s) ∧
    form (fun k t => (t.qarm (c.slotOf k) (f.sel == 1)).bind fun r => .ok ([.v dst k (BitVec.ofNat 32 r.1)], r.2))
      true (exec (.qarm f) s) ∧
    ((∀ d ∈ s.dbgDomains, d.firmware = false) →
      (f.sel.getLsbD 0 = true → s.wakeMask core ≠ 0 →
        exec (.pendscan f) s = .next (((s.setGang (c.gang.wrScalar32 f.dst (s.wakeMask core).toNat)).clearWake core).advance c.uid c.slice)) ∧
      (f.sel.getLsbD 0 = false → ∀ q, s.firstPending (c.gang.scalar32 s.now f.a) = some q →
        exec (.pendscan f) s = .next ((State.setGang { s with pending := s.pending.filter (· != q) }
          (c.gang.wrScalar32 f.dst q)).advance c.uid c.slice)) ∧
      (f.sel.getLsbD 0 = false → f.sel.getLsbD 1 = false → s.pending = [] →
        exec (.pendscan f) s = s.passes c (c.gang.wrScalar32 f.dst 0xFFFFFFFF)) ∧
      (f.sel.getLsbD 0 = false → f.sel.getLsbD 1 = true → c.run.collected = false → s.pending = [] →
        exec (.pendscan f) s = .next (s.holdAs c .sleepScan)))

/-- Debug words (R297 to R300, R305, R307 to R309). In a debug handler with the right, and a guest of the handler's domain in the slot
named, each completes: `dbgrd` reads and `dbgwr` edits the guest, `dstep` and `dresume` let a halted one run, `dreturn` asks for its
return, and in a deterministic launch lets it run there (log 23), `wpset` sets a watch unit, `trctl` switches the trace, `vhrd` reads the
eight words of an entry of the value history, zero for one that nothing has written. Without the right they fault
ACCESS_DENIED, and outside a handler they are illegal clauses. -/
def Obligations.DebugWords : Prop :=
  ∀ (s : State) (c : Ctx) (f : FmtQ), Issues s c false false →
    let a := c.gang.scalar32 s.now f.a
    let x : W32 := BitVec.ofNat 32 (c.gang.scalar32 s.now f.b)
    let words := [Instr.dbgrd f, .dbgwr f, .dstep f, .dresume f, .dreturn f, .wpset f, .trctl f, .vhrd f]
    (∀ core p, c.gang.place = .handler core → s.proof? core = some p →
      let right (k : Nat) : Prop := (s.kernelRights p.domain).getLsbD k = true
      let guest (k : Nat) (g : Gang) (q : Guest) : Prop :=
        k < 4 ∧ s.guestAt core k = some g ∧ g.pasid s = p.domain ∧ g.guest = some q
      let item (k space n lane : Nat) : Nat := k * 2 ^ 29 + space * 2 ^ 25 + n * 2 ^ 16 + lane
      let denied (i : Instr) : Prop := exec i s = .next (s.faults c .accessDenied c.pc)
      (right 1 → ∀ k g q, guest k g q →
        (∀ n, n < 512 → a = item k 1 n 0 → exec (.dbgrd f) s = s.passes c (c.gang.wrScalar32 f.dst (g.rdS s.now n).toNat)) ∧
        (∀ n lane, n < g.allot → n < 256 → lane < g.measure → lane < 128 → a = item k 0 n lane →
          exec (.dbgrd f) s = s.passes c (c.gang.wrScalar32 f.dst (g.rdV s.now n lane).toNat)) ∧
        (∀ lane, lane < 4 → a = item k 2 16 lane →
          exec (.dbgrd f) s = s.passes c (c.gang.wrScalar32 f.dst (g.em.toNat / 2 ^ (32 * lane) % 2 ^ 32)))) ∧
      (right 1 → ∀ sel y, parseSelector a = some sel → s.dbgItem p sel = some y →
        exec (.dbgrd f) s = s.passes c (c.gang.wrScalar32 f.dst y)) ∧
      (right 1 → parseSelector a = none → exec (.dbgrd f) s = .next (s.faults c .illegalInstruction c.pc)) ∧
      (right 2 → ∀ k g q, guest k g q →
        let edited : Answer := .next ((s.setGang { g with guest := some { q with
          edits := q.edits ++ [(BitVec.ofNat 32 a, x)] } }).advance c.uid c.slice)
        (q.edits.length < 64 →
          (∀ n, n ≠ 0 → n < 512 → a = item k 1 n 0 → exec (.dbgwr f) s = edited) ∧
          (∀ n lane, n < g.allot → n < 256 → lane < g.measure → lane < 128 → a = item k 0 n lane → exec (.dbgwr f) s = edited) ∧
          (∀ n lane, n ≤ 16 → lane < 4 → a = item k 2 n lane → exec (.dbgwr f) s = edited) ∧
          (∀ sel, parseSelector a = some sel → sel.guest = k → g.writable sel = true → exec (.dbgwr f) s = edited)) ∧
        (64 ≤ q.edits.length → ∀ sel, parseSelector a = some sel → sel.guest = k →
          exec (.dbgwr f) s = .next (s.faults c .illegalInstruction c.pc))) ∧
      (∀ g q, guest a g q →
        (q.halted = true →
          (right 3 → exec (.dstep f) s = .next ((s.releaseGuest g.uid true).advance c.uid c.slice)) ∧
          exec (.dresume f) s = .next (((s.setGang g.applyShadow).releaseGuest g.uid false).advance c.uid c.slice) ∧
          exec (.dreturn f) s = .next ((s.setGang { g.applyShadow with
            guest := g.applyShadow.guest.map (fun q => { q with
              retReq := true, halted := q.halted && !g.applyShadow.det s }) }).advance c.uid c.slice)) ∧
        (q.halted = false →
          (right 3 → exec (.dstep f) s = .next (s.faults c .illegalInstruction c.pc)) ∧
          exec (.dresume f) s = .next (s.faults c .illegalInstruction c.pc) ∧
          exec (.dreturn f) s = .next ((s.setGang { g with guest := some { q with retReq := true } }).advance c.uid c.slice))) ∧
      (right 2 →
        let rd (k : Nat) : W32 := c.gang.rdS s.now (regNum f.b + k)
        let w : Watch := { kind := f.sel.toNat, lo := pair (rd 0) (rd 1), hi := pair (rd 2) (rd 3), val := rd 4, ctrl := rd 5
                           queue := rd 6, gangs := rd 7, dom := p.domain }
        let plain : Prop := (rd 5).toNat < 2 ^ 16 ∧ w.cond ≤ 5 ∧ (rd 6).toNat < 2 ^ 12
        let pc : Prop := w.cond = 0 ∧ w.hist = false ∧ w.halts = true ∧ (rd 5).extractLsb' 4 2 = 0 ∧ w.hi = 0 ∧ w.lo.toNat % 8 = 0
        (w.kind = 0 → a < 8 → plain → pc → exec (.wpset f) s =
          .next ((s.updProof core (fun p => { p with pcs := Store.put p.pcs a w })).advance c.uid c.slice)) ∧
        (w.kind = 1 → a < 16 → plain → w.lo.toNat < w.hi.toNat → (rd 5).extractLsb' 4 2 ≠ 0 → exec (.wpset f) s =
          .next ((s.updProof core (fun p => { p with mems := Store.put p.mems a w })).advance c.uid c.slice)) ∧
        ((¬ plain ∨ (w.kind = 0 ∧ (8 ≤ a ∨ ¬ pc)) ∨ 16 ≤ a) →
          exec (.wpset f) s = .next (s.faults c .illegalInstruction c.pc))) ∧
      (right 1 →
        (a % 16 = 0 → exec (.trctl f) s = .next (s.advance c.uid c.slice)) ∧
        (∀ g q, guest 0 g q → a % 16 = 1 →
          (f.sel = 1 → exec (.trctl f) s = .next ((s.updProof core (fun p => { p with traced := p.traced ||| 1 })).advance c.uid c.slice)) ∧
          (f.sel = 0 → exec (.trctl f) s = .next ((s.updProof core (fun p => { p with traced := p.traced &&& 0xE })).advance c.uid c.slice)) ∧
          (f.sel = 2 → exec (.trctl f) s = .next ((s.drainNow core).advance c.uid c.slice))) ∧
        (∀ k, k < 4 → a.testBit k = true → s.guestAt core k = none → exec (.trctl f) s = .next (s.faults c .illegalInstruction c.pc))) ∧
      (right 1 → (256 ≤ a → exec (.vhrd f) s = .next (s.faults c .illegalInstruction c.pc)) ∧
        (a < 256 → ∃ g, exec (.vhrd f) s = s.passes c g ∧
          (∀ h, p.hist[a]? = some h → ∀ k x, (k, x) ∈ [(0, h.seq), (1, h.info), (2, loHalf h.pc), (3, hiHalf h.pc), (4, loHalf h.addr),
            (5, hiHalf h.addr), (6, h.old), (7, h.new)] → regNum f.dst + k ≠ 0 → g.rawS (regNum f.dst + k) = x) ∧
          (p.hist[a]? = none → ∀ k, k < 8 → g.rawS (regNum f.dst + k) = 0) ∧
          ∀ m, m < regNum f.dst ∨ regNum f.dst + 8 ≤ m → g.rawS m = c.gang.rawS m)) ∧
      (¬ right 1 → denied (.dbgrd f) ∧ denied (.trctl f) ∧ denied (.vhrd f)) ∧ (¬ right 2 → denied (.dbgwr f) ∧ denied (.wpset f)) ∧
      (¬ right 3 → denied (.dstep f))) ∧
    ((∀ core, c.gang.place ≠ .handler core) → ∀ i ∈ words, exec i s = .next (s.faults c .illegalClause c.run.hdr))

/-! ## Transitions: scheduling and placement -/

/-- The start values of a gang (R98, R126, R220): the arguments in `s2:3`, every other register and mask zero, `em` the present lanes,
`%astatus` with the FTZ bit of its launch alone, `%tvec` from its descriptor, no flag set and nothing outstanding; a gang that is saved and
restored keeps its registers, masks, `em`, `%astatus` and operations (R211, R213), and of its flags those that the clause of a parked group
names (R17), or that of any group saved inside its clause (log 23 for a deterministic launch, R291 for a halted guest). -/
def Obligations.GangStart : Prop :=
  ∀ (s : State) (gr : Grid) (block core part : Nat) (x : GangShape),
    (∃ g, (s.startGang gr block core part x).gangs = s.gangs ++ [g] ∧
      g.rawS 2 = BitVec.ofNat 32 gr.desc.args.toNat ∧ g.rawS 3 = BitVec.ofNat 32 (gr.desc.args.toNat / 2 ^ 32) ∧
      (∀ m, m ≠ 2 → m ≠ 3 → g.rawS m = 0) ∧ (∀ m k, g.rawV m k = 0) ∧ (∀ m, g.rawM m = 0) ∧
      g.present = BitVec.ofNat 128 (2 ^ x.live - 1) ∧ g.em = g.present ∧ g.astatus = (if gr.desc.ftz then 0x10000 else 0) ∧
      g.flags = 0 ∧ (∀ c, g.count c = 0) ∧ g.ops = [] ∧ g.tvec = gr.desc.tvec ∧ g.trap = none) ∧
    ∀ (g : Gang) (det : Bool), s.gang? g.uid = some g → ∃ h, (s.restoreGang (g.saved det) core part).gang? g.uid = some h ∧ h.sregs = g.sregs ∧
      h.vregs = g.vregs ∧ h.masks = g.masks ∧ h.em = g.em ∧ h.astatus = g.astatus ∧ h.ops = g.ops ∧
      h.flags = g.flags &&& g.parkedFlags det

/-- The scheduler's transitions (R13, R48 to R50, R54 to R56): a clause starts behind the releases and merges of its partition; a held
`join` is released once it has met every other group of the test, one held at an `rte` counting as held (log 58, no rule of the spec);
the core that a refresh names takes the temperature. -/
def Obligations.SchedulerTransitions : Prop :=
  ∀ s : State,
    (∀ core part port, port < 2 → part < partsOf core → s.portFree core part port = true →
      let t := (s.mergePart core part).keepReady core part port
      ∀ cand hdr h words is, t.winner core part port = some cand → cand.grp.run = none → cand.start = .go hdr h words is →
        cand.gang.latchedErr h.wait none false = none →
        exec (.clauseStart core part port) s = .next (t.beginClause cand.gang cand.grp core part port
          (if cand.gang.det t then 0 else cand.cost) hdr h words (words.length - is.length))) ∧
    (∀ uid g pc, s.gang? uid = some g → s.mayStart g = true → g.mergeAddr = some pc →
      exec (.merge uid) s = .next (s.setGang (g.mergeAll (g.testGroups.filter (fun r => r.atHeader && r.pc == pc)) id))) ∧
    (∀ uid g j, s.gang? uid = some g → s.mayStart g = true →
      g.testGroups.find? (fun j => j.status == .heldJoin && g.testGroups.all (fun r => r.slices == j.slices || r.meets j.pc)) = some j →
      let m := g.mergeAll (g.testGroups.filter (fun r => r.pc == j.pc && (r.atHeader || r.status == .heldJoin)))
        (fun m => { m with status := .ready, readyAt := none })
      exec (.joinRelease uid) s = .next (s.setGang { m with groups := m.groups.map (fun r =>
        if r.status == .heldJoin && (m.trap.isNone || m.inHandler r) then { r with status := .ready, readyAt := none } else r) })) ∧
    (∀ uid g r rs, s.gang? uid = some g → s.mayStart g = true → g.testGroups = r :: rs →
      (∀ q ∈ g.testGroups, q.status = .heldColl ∧ q.at? = r.at?) →
      exec (.collectiveWaitEnd uid) s = .next (s.setGang (g.mergeAll g.testGroups (fun m =>
        { m with status := .ready, readyAt := none, run := m.run.map (fun u => { u with collected := true }) })))) ∧
    (∀ core part c, s.core? core = some c → exec (.budgetRefill core part) s = .next (s.setCore { c with
      parts := c.parts.mapIdx (fun k p => if k = part then { p with budget := p.refill } else p) })) ∧
    ∀ core temp, ∃ t, exec (.tempRefresh core temp) s = .next t ∧
      (∀ c, s.core? core = some c → t.core? core = some { c with temp := temp % 2 ^ 16 }) ∧
      (∀ k, k ≠ core → t.core? k = s.core? k) ∧
      t.host.tLayerMax = BitVec.ofNat 16 (t.cores.foldl (fun m c => max m c.temp) 0)

/-- The imposers' transitions, pre-emption and retirement (R41, R56 to R58, R162, R188, R210 to R214, R216). A context lost to an
uncorrectable error ends the launch with UNCORRECTABLE (R214); what its record holds beside the code is the model's reading (log 51).
That a suspended block of a deterministic launch is awaited by its launch clock is log 23. -/
def Obligations.PlacementTransitions : Prop :=
  ∀ s : State,
    (∀ die gr b n cores, die < 4 → s.gridOrder.find? (fun gr => s.afterBad gr die) = none →
      s.nextUnit die = some (gr, .fresh b n, cores) →
      exec (.blockPlace die) s = .next (((s.setGrid (gr.takeUnit b n)).meetClaim gr.uid cores).startCluster gr b cores)) ∧
    (∀ die, die < 4 → ∃ a, exec (.roomAdvertise die) s = .next { s with adverts := s.adverts.filter (fun x => x.die != die) ++ [a] } ∧
      a.die = die ∧ a.room.map (fun e => e.1) = dieCores die) ∧
    (∀ die gr b n, s.passUnit die = some (gr, .fresh b n) →
      let dest := s.bestDie gr.desc ([0, 1, 2, 3].filter (· != die))
      s.advertised dest gr.desc ≠ 0 → exec (.blockPass die) s = .next (s.setGrid { gr.takeUnit b n with
        passed := (gr.takeUnit b n).passed ++ [(b, dest)] })) ∧
    (∀ grid gr, s.grid? grid = some gr → (∀ b, s.slicing gr < s.unitsWaiting gr → s.victim gr = some b →
        exec (.quantumExpiry grid) s = .next (s.preemptCluster b.cluster true)) ∧
      (s.unitsWaiting gr ≤ s.slicing gr → exec (.quantumExpiry grid) s = .next s)) ∧
    (∀ pasid queue, ∃ t, exec (.preemptRequest pasid queue) s = .next t ∧ t.gangs = s.gangs ∧ t.mem = s.mem ∧
      ∀ b ∈ s.blocks, ∀ gr, s.grid? b.grid = some gr → b.stage = .resident → gr.pasid = pasid → gr.depth ≠ 0 →
        (∀ q, queue = some q → gr.queue = q) → { b with preempt := true } ∈ t.blocks) ∧
    (∀ uid b gr, s.block? uid = some b → s.grid? b.grid = some gr →
      let bs := (s.blocksOf b.cluster).filter (fun x => x.stage == .resident)
      bs ≠ [] → (∀ x ∈ bs, x.preempt = true ∧ ∀ g ∈ s.gangsOf x.uid,
        (g.place = .none ∧ g.groups = []) ∨ (g.live ≠ 0 ∧ s.drained g = true)) → (∀ g ∈ s.gangs, g.errs = []) →
      (BadDatum.context b.cluster ∈ s.bad → exec (.contextSave uid) s = .next (s.abortGrid gr.uid (some (lostContext gr b)))) ∧
      (BadDatum.context b.cluster ∉ s.bad → (∀ x ∈ bs, s.recordMisses gr x = []) →
        let t := bs.foldl (fun s x => s.writeRecord gr x) s
        exec (.contextSave uid) s = .next (t.suspend gr bs) ∧
        (t.lostFrames gr.pasid = [] →
          (t.suspend gr bs).gangs = t.gangs.map (fun g => if (bs.map (fun x => x.uid)).contains g.block then g.saved gr.desc.det else g) ∧
          (t.suspend gr bs).blocks = t.blocks.map (fun x => if (bs.map (fun x => x.uid)).contains x.uid then
            { x with stage := .suspended, preempt := false, sliced := false, awaited := gr.desc.det && !x.sliced
                     die := dieOf x.core, since := t.now } else x)))) ∧
    (∀ die gr cl core b, s.nextUnit die = some (gr, .saved cl, [core]) → (s.retranslate gr cl core).1 = true →
      let t := (s.retranslate gr cl core).2.meetClaim gr.uid [core]
      t.rankBlock cl 0 = some b → exec (.blockRestore die) s = .next (t.restoreBlock gr b core)) ∧
    (∀ uid g blk, s.gang? uid = some g → s.block? g.block = some blk → g.retired = false → g.live = 0 → blk.stage = .resident →
      g.dlist = [] → g.ops = [] → g.arriving = [] → s.recordWaits g = false →
      let carried := if s.discards blk then [] else g.galley.bytes
      s.grantOverflow blk carried 0 = none →
      let t := (s.applyGrant g.uid 0 blk carried 0).withdrawBars blk g.uid
      exec (.gangRetire uid) s = .next ((t.guestRecord g 5 0 (t.freeWord 1)).updGang g.uid (fun g =>
          { g with place := .none, groups := [], galley := Galley.empty, guest := none, pull := none }))) ∧
    (∀ uid blk cl, s.block? uid = some blk → blk.stage = .resident ∨ blk.stage = .suspended →
      (∀ g ∈ s.gangsOf uid, g.retired = true) → ((s.commitBlock blk).dropBlock blk).cluster? blk.cluster = some cl →
      exec (.blockRetire uid) s = .next (if cl.blocks.length ≤ 1 then ((s.commitBlock blk).dropBlock blk).commitCluster cl
        else (s.commitBlock blk).dropBlock blk)) ∧
    (∀ uid cl, s.cluster? uid = some cl → (∀ b ∈ s.blocksOf uid, b.stage = .exited ∨ b.stage = .done) →
      exec (.clusterRetire uid) s = .next (s.commitCluster cl)) ∧
    (∀ uid blk gr, s.block? uid = some blk → s.grid? blk.grid = some gr → blk.stage = .exited → blk.children = 0 →
      (∀ x ∈ s.grids, x.parent ≠ some uid) → s.clusterDone blk.cluster = true → gr.parent = none → gr.events = 0 →
      ∃ t, exec (.blockCompletionEvent uid) s = .next t ∧ t.blocks = s.blocks.filter (fun b => b.uid != uid) ∧
        t.grids = s.grids.map (fun x => if x.uid = gr.uid then { gr with retired := gr.retired + 1 } else x) ∧ t.mem = s.mem) ∧
    (∀ uid g id o blk gr q dst lane a rest, s.gang? uid = some g → g.op? id = some o → s.block? g.block = some blk →
      g.grid? s = some gr → s.queue? gr.queue = some q → o.kind = .launch dst ((lane, a) :: rest) → o.done = false →
      o.started = true → o.due = none → ∀ x t, s.answerChild id gr blk q a = .ok (x, t) →
        exec (.childLaunch uid id) s = .next ((t.dropWaiter (ioWork 7 id)).updOp uid id (fun o => { o with
          kind := .launch dst rest, done := rest.isEmpty, writes := o.writes ++ [.v dst lane (BitVec.ofNat 32 x)] })))

/-! ## Transitions: memory and engines -/

/-- What takes effect after issue (R60, R161, R168, R172, R175, R183, R188, R194): each transition, where it is enabled. A grant that carries
a line with an uncorrectable error is not made (R209); an item for a device that cannot be reached (R326) is discarded at its DELIVER,
which is the model's reading (log 34). -/
def Obligations.MemoryTransitions : Prop :=
  ∀ s : State,
    (∀ uid g id o ty sc dst accs, s.gang? uid = some g → g.op? id = some o → o.kind = .load ty sc dst accs → o.done = false →
      (∀ a ∈ accs, s.lost a.addr = false) → exec (.resolve uid id) s = .next (s.resolveOp uid none o)) ∧
    (∀ uid g blk d rest, s.gang? uid = some g → s.block? g.block = some blk → g.dlist = d :: rest → s.detTurn g d.op d.due = true →
      let carried := if s.discards blk then [] else s.grantBytes blk d.bytes d.lvl
      d.cond = false → (∀ ln, s.badLine g blk d = some ln →
        exec (.grant uid) s = .next (s.loseGrant g d rest .uncorrectable (128 * ln))) ∧
      (s.badLine g blk d = none → s.grantOverflow blk carried d.lvl = none → d.arrive = none →
      exec (.grant uid) s = .next ((((s.setGang (Gang.clearMarks { g with dlist := rest })).applyGrant g.uid d.op blk carried
        d.lvl)).afterGrant g.uid d.op ((g.condDst d.op).map (fun r => (r, 1)))))) ∧
    (∀ uid g blk d rest p ps, s.gang? uid = some g → s.block? g.block = some blk → g.dlist = d :: rest →
      s.detTurn g d.op d.due = true → d.cond = true → g.galley.marks = p :: ps → p.hasReads = true →
      p.failed (targetRank d.lvl) = true →
      exec (.grant uid) s = .next ((s.setGang (Gang.rollBack { g with dlist := rest } p)).afterGrant g.uid d.op
        ((g.condDst d.op).map (fun r => (r, 0))))) ∧
    (∀ uid g blk id o a r addr, s.gang? uid = some g → s.block? g.block = some blk → g.op? id = some o → o.kind = .atom a →
      a.reqs.find? (fun r => r.addr == addr && !r.taken) = some r → o.due = none → g.atomReady r a.ty.bytes = true →
      s.lost addr = false → exec (.atomic uid id addr) s = .next (s.atomRequest g blk o a r)) ∧
    (∀ (lvl : Lvl) uid n, (s.abortGangs lvl.rank uid) ≠ [] →
      (∀ g ∈ s.abortGangs lvl.rank uid, g.abortHold lvl.rank = some n ∧ g.dlist = []) →
      exec (.cabort lvl uid) s = .next ((s.abortGangs lvl.rank uid).foldl (fun s g => s.passAbort g)
        (if lvl.rank = 1 then s.updBlock uid (fun b => { b with galley := b.galley.abort (n == 1) })
          else s.updCluster uid (fun c => { c with galley := c.galley.abort (n == 1) })))) ∧
    (∀ uid g id o, s.gang? uid = some g → g.op? id = some o → s.duePassed g o.due = true → g.oldest o = true →
      (∀ op dst a ea x, o.kind ≠ .sigop op dst a ea x) → o.landable = true → exec (.land uid id) s = .next (s.landOp g o)) ∧
    (∀ owner n blk b, s.ownerBlock owner n = some blk → s.bar? blk n = some b → b.members ≠ 0 → b.arrivals = b.members → b.bytes = 0 →
      exec (.phase owner n) s = .next (s.takePhase blk b)) ∧
    (∀ src dst lane l it rest, s.lanes.find? (fun l => l.src == src && l.dst == dst && l.lane == lane) = some l →
      l.items = it :: rest →
      let t : State := { s with lanes := s.lanes.filter (fun x => !(x.src == src && x.dst == dst && x.lane == lane)) ++
        (if rest = [] then [] else [{ l with items := rest }]) }
      exec (.deliver src dst lane) s = .next (if s.unreachable.contains dst then t.discardItem it else t.deliverItem it)) ∧
    ∀ root r d, s.root? root = some r → s.firstDue root = some d → d.due ≤ r.clock → exec (.dueClock root) s = .next (s.takeDue d)

/-- The landing of an operation (R13, R14, R99): its results are written, its sticky bits set, the operation is gone, its flag is clear once no
other operation or clause holds it. -/
def Obligations.LandingEffect : Prop :=
  ∀ (s : State) (g : Gang) (o : Op), s.gang? g.uid = some g → g.isGuest = false → o.kind = .result → o.err = none →
    g.joined.contains o.id = false →
    ∃ h, (s.landOp g o).gang? g.uid = some h ∧ h.ops = g.ops.filter (fun p => p.id != o.id) ∧
      h.astatus = g.astatus ||| o.sticky ∧ h.sregs = (g.landWrites s.now o).sregs ∧ h.vregs = (g.landWrites s.now o).vregs ∧
      h.masks = (g.landWrites s.now o).masks ∧ h.em = g.em ∧
      (∀ k, k < 12 → o.flag = some k → (∀ p ∈ g.ops, p.id ≠ o.id → p.flag ≠ some k) →
        (∀ r ∈ g.groups, ∀ u, r.run = some u → u.header.fa ≠ some k ∧ u.header.fb ≠ some k) → h.flags.getLsbD k = false) ∧
      SameBytes s (s.landOp g o)

/-- The engines' transitions (R233, R246, R255, R256, R258). -/
def Obligations.EngineTransitions : Prop :=
  ∀ s : State,
    (∀ core part k e g o m, s.core? core = some k → (k.mq.filter (fun e => e.1 == part)).head? = some e → s.gang? e.2.1 = some g →
      g.op? e.2.2 = some o → o.kind = .matrix m → o.done = false → s.duePassed g o.due = true →
      (∀ off, s.matBad g m = some off → exec (.mstart core part) s =
        .next (s.setGang (g.setOp (Op.fail { o with done := true } .uncorrectable (localEa off))))) ∧
      let x := s.startMat g m
      (s.matBad g m = none → exec (.mstart core part) s = .next (s.setGang (g.setOp { o with
        done := true, writes := x.1, sticky := x.2.1, kind := .matrix { m with landBytes := x.2.2 } })))) ∧
    (∀ core req u uid g o r, core ≠ ioKey → s.reqEntry core req reqStarted = some (uid, g, o, r) → r.fetched = true → r.held = none →
      o.done = false → o.due = none → u < r.units → r.moved.contains u = false → r.flying.contains u = false →
      s.countOver g.block r.bar (r.unitBytes u) = false → ∀ t, s.moveUnit uid req u g r = .ok t →
      exec (.rqmove core req u) s = .next t) ∧
    (∀ core req uid g o r, s.reqEntry core req (fun _ _ => true) = some (uid, g, o, r) → o.due = none → r.signalDue = true →
      r.held = none → r.fetched = true → ∀ t, s.performSignal uid req g r = .ok t → exec (.rqsignal core req) s = .next t) ∧
    ∀ core uid g o r off q, s.reqHead core = some (uid, g, o, r) → r.block = some off → r.fetched = false → r.held = none →
      o.due = none → r.own = none → (∀ k, k < 64 → s.badSeen g.block (localAddr g.block (off + k)) = false) →
      parseBlock ((List.range 64).map (fun k => s.seenByte g.block (localAddr g.block (off + k)))) off none = some q →
      s.heldRemote (q.addrs.map (fun a => a.2.1)) = false → s.checkReq (g.party s) q = none → q.bar = none →
      exec (.rqlistBlockFetch core) s = .next (s.updGang uid (fun g => g.setOp { o with
        kind := .request q, due := none, done := q.units == 0 && q.sig.isNone }))

/-- Traps and translation (R197, R198, R205 to R208): entry of a latched fault; completions, responses and invalidations; a frame of this
device beyond its installed DRAM does not exist (R1) and is a fault of the model. -/
def Obligations.TranslationTransitions : Prop :=
  ∀ s : State,
    (∀ uid g l r, s.gang? uid = some g → g.trap = none → g.halted = false → s.preempting g = false →
      (∀ b, s.block? g.block = some b → b.stage = .resident) → g.nextLatched = some l → g.tvec.toNat / 256 ≠ 0 →
      (Gang.group? { g with latched := g.latched.erase l } (lowSlice l.slices)) = some r →
      exec (.trapEntry uid) s = .next (s.setGang (Gang.enterTrap { g with latched := g.latched.erase l } r
        ⟨l.code, l.tval, l.tret, l.word, l.mid, l.skips, l.allot⟩))) ∧
    (∀ pasid page wr a, s.ats.find? (fun a => a.asks pasid page wr && a.sent) = some a →
      let t : State := { s with ats := sendNextAts (s.ats.filter (fun x => !x.asks pasid page wr)) }
      exec (.atsCompletion pasid page (wr, .none)) s = .next ((t.noTranslation a).resumeWaiting pasid) ∧
      ∀ (log2 : Nat) (own : Bool) (frame : Nat) (r w : Bool), (log2 = 12 ∨ log2 = 21 ∨ log2 = 30) → frame % 2 ^ log2 = 0 →
        (own = true → dramBytes < frame + 2 ^ log2 → exec (.atsCompletion pasid page (wr, .page log2 own frame r w)) s =
          .fault (.outsideDram frame)) ∧
        ((own = true → frame + 2 ^ log2 ≤ dramBytes) → (r || w) = true →
          exec (.atsCompletion pasid page (wr, .page log2 own frame r w)) s = .next ((t.fillTlb a log2 own frame r w).resumeWaiting pasid))) ∧
    (∀ pasid page wr p, s.pri.find? (fun p => p.asks pasid page wr && p.sent) = some p → s.tornDown pasid = false →
      let t : State := { s with pri := sendNextPri s.tornDown (s.pri.filter (fun x => !x.asks pasid page wr)) }
      exec (.priResponse pasid page (wr, .success)) s = .next (t.resumeWaiting pasid) ∧
      ∀ ans, ans ≠ .success → exec (.priResponse pasid page (wr, ans)) s =
        .next ((t.pageFails pasid page wr p.waiters .accessDenied).resumeWaiting pasid)) ∧
    (∀ pasid lo hi, (∀ c ∈ s.clusters, ∀ b ∈ s.blocksOf c.uid, b.stage ≠ .suspended) →
      ∃ t i, exec (.invalidation pasid lo hi) s = .next t ∧ t.invals = s.invals ++ [i] ∧ i.pasid = pasid ∧ i.lo = lo ∧ i.hi = hi ∧
        t.tlb = s.tlb.filter (fun x => !(x.pasid == pasid && decide (x.page < hi) && decide (lo < x.page + 2 ^ x.log2))) ∧
        i.frames = (s.mapped.filter (fun x => x.pasid == pasid && decide (x.page < hi) && decide (lo < x.page + 2 ^ x.log2))).map
          Tlb.span) ∧
    ∀ pasid lo hi i, s.invals.find? (fun i => i.pasid == pasid && i.lo == lo && i.hi == hi) = some i → s.invalDone i = true →
      exec (.invalidationCompletion pasid lo hi) s = .next { s with invals := s.invals.erase i }

/-- The compositor's transitions (R263, R265, R267, R271, R272, R274, R280, R283). -/
def Obligations.CompositorTransitions : Prop :=
  ∀ s : State,
    (∀ n (x : BitVec 64) q, n < 4096 → s.ready = true → s.queue? n = some q → q.state = .mapped ∨ q.state = .unmapped →
      (∀ d ∈ s.dbgDomains, d.firmware = false) →
      let t : State := { s with
        doorbells := Store.putD 0 s.doorbells n (if s.doorbell n < x.toNat then x else BitVec.ofNat 64 (s.doorbell n)) }
      exec (.kick n x) s = .next ((if q.slot.isSome && q.armed then t.setQueue { q with wridx := t.doorbell n } else t).wakeQueue q)) ∧
    (∀ n idx q p gr, s.queue? n = some q → q.pkt? idx = some p → p.done = false → p.dispatched = true → p.ty = 1 →
      p.grid.bind s.grid? = some gr → gr.doomed = false → s.gridDone gr = true →
      ∀ t, s.completePacket q p gr.aborted gr.record? = .ok t → ∀ r, t.queue? q.qnum = some r →
      exec (.packetComplete n idx) s = .next { t.wakeQueue r with
        grids := (t.wakeQueue r).grids.filter (fun x => x.uid != gr.uid), roots := (t.wakeQueue r).roots.filter (fun r => r.grid != gr.uid) }) ∧
    (∀ comp, s.pending ≠ [] → exec (.pendscanWake comp) s = .next { s with gangs := s.gangs.map (fun g =>
      if g.place == .compositor (256 + comp % 2) then { g with groups := g.groups.map (fun r => if r.status == .sleepScan then
        { r with status := .ready, readyAt := none, run := r.run.map (fun u => { u with collected := true }) } else r) } else g) }) ∧
    (∀ comp q, s.queues.filter (fun q => match q.slot with
        | some k => slotCore k == comp % 2
        | none => true) = [q] → s.queue? q.qnum = some q → exec (.signalRecheck comp) s = .next (s.recheckQueue q)) ∧
    ∀ comp b, b = s.bankOf (256 + comp % 2) → b.switching = true →
      (∃ g ∈ s.gangs, g.place = .compositor (256 + comp % 2) ∧ g.liveGroups ≠ [] ∧ ∀ r ∈ g.liveGroups, r.status = .sleepScan) →
      (∀ q ∈ s.queues, ∀ k, q.slot = some k → slotCore k = comp % 2 → ∀ p ∈ q.window, p.started = true ∨ p.done = true) →
      exec (.bankSwitch comp) s = .next ((s.setBank (256 + comp % 2) { b with
        activeB := !b.activeB, switching := false, stopped := false }).startBank (256 + comp % 2))

/-- The proof cores' transitions (R288, R290 to R296, R298, R299, R305, R306). A gang of a deterministic launch moves between clauses
(log 23). The end of an unlock is stated for every status of its token, and the status of a token for either verdict of its signature. -/
def Obligations.ProofTransitions : Prop :=
  ∀ s : State,
    (∀ uid g q, s.gang? uid = some g → g.pull = some q → g.live ≠ 0 → g.trap = none → s.holdsCore g = true → s.preempting g = false →
      (g.det s = true → g.betweenClauses = true) →
      (q.place = none → s.guestPlace (dieOf g.home.1) q.core g = none → exec (.pull uid) s =
        .next ((s.reportTrigger q.at0 q.trig 2).setGang { g with pull := none })) ∧
      (∀ x, q.place = none → s.guestPlace (dieOf g.home.1) q.core g = some x → exec (.pull uid) s =
        .next (s.setGang { g with pull := some { q with place := some x } })) ∧
      (∀ core gslot part, q.place = some (core, gslot, part) → s.drained g = true → s.slotWaits core gslot = false → g.errs = [] →
        exec (.pull uid) s = .next (s.movePulled g q core gslot part))) ∧
    (∀ uid g q, s.gang? uid = some g → g.guest = some q → q.retReq = true →
      (if g.det s then g.betweenClauses else g.groups.all (s.groupHalted g)) = true →
      let t := s.setGang g.applyShadow
      (t.drained g.applyShadow = true → t.recordWaits g.applyShadow = false → g.errs = [] → exec (.guestReturn uid) s = .next (t.sendHome g.applyShadow)) ∧
      (t.drained g.applyShadow = false → exec (.guestReturn uid) s = .next t)) ∧
    (∀ uid g a rest, s.gang? uid = some g → g.arriving = a :: rest →
      exec (.arrivalMessage uid) s = .next ((s.setGang { g with arriving := rest }).arrive uid a.1 a.2.1)) ∧
    (∀ uid g, s.gang? uid = some g → g.isGuest = true → exec (.releaseMessage uid) s = .next (s.wakeGuest g)) ∧
    (∀ guest p uid g, s.gang? guest = some p → s.gang? uid = some g → p.isGuest = true → p.block = g.block →
      exec (.clauseCountMessage guest uid) s = .next (s.setGang { g with known := Store.put g.known guest p.clauseCount })) ∧
    (∀ core p e rest d g, s.proof? core = some p → p.current = none → p.events = e :: rest →
      (s.setProof { p with events := rest }).kernelDomain (s.eventDomain e) = some d →
      (s.setProof { p with events := rest }).handlerOf core (s.eventDomain e) = some g →
      exec (.debugHandlerEntry core) s = .next (((s.setProof { p with events := rest }).setGang (g.enterHandler d.handler e.halt)).updProof
        core (fun p => { p with current := some e, handler := some g.uid, domain := s.eventDomain e }))) ∧
    (∀ core, (∀ d ∈ s.dbgDomains, d.closing = false) →
      exec (.traceDrain core) s = .next (s.drainNow core)) ∧
    (∀ w d, s.kernelDomain (w.toNat % 2 ^ 20) = some d → ∃ e, exec (.dbgAttnWrite w) s =
      .next (s.addEvent (64 * (w.toNat / 2 ^ 22 % 4) + 40 + w.toNat / 2 ^ 20 % 4) e) ∧ e.kind = 5 ∧ e.gang = w.toNat % 2 ^ 20) ∧
    (∀ w, w.getLsbD 20 = true → exec (.dbgRevokeWrite w) s = .next s.revokeFirmware) ∧
    (∀ w, w.getLsbD 20 = false → exec (.dbgRevokeWrite w) s = .next (s.revokeKernel (w.toNat % 2 ^ 20))) ∧
    (∀ core trig reg w c, s.core? core = some c → isPressCore core = true → trig < 2 → reg < 4 → s.feature 2 = true →
      (s.kernelRights c.trigPasid.toNat).getLsbD 0 = true →
      let new (t : Trigger) : Trigger := if reg = 0 then { t with addr := w } else if reg = 1 then { t with val := w.extractLsb' 0 32 }
        else if reg = 2 then { t with ctl := (w &&& 0x1FFFFFFF3007) ||| (t.ctl &&& 0xC000 &&& ~~~ w) }
        else { t with gangs := w.extractLsb' 0 32 }
      exec (.triggerRegisterWrite core trig reg w) s =
        .next (s.setCore (if trig = 0 then { c with trig0 := new c.trig0 } else { c with trig1 := new c.trig1 }))) ∧
    (∀ v unchanged, s.unlockVerify = some v →
      let b := s.hostBytes v.addr 64
      (v.token = none → exec (.unlockVerifyDone unchanged) s =
        .next (s.endUnlock v (s.tokenStatus b (unchanged && s.tokenSigned v.addr)))) ∧
      (∀ st, st ≠ 0 → s.endUnlock v st = State.reportVerify { s with unlockVerify := none } v st) ∧
      (fieldOf b 1 1 = 0 → (∀ d ∈ s.dbgDomains, d.firmware = false → d.pasid ≠ fieldOf b 4 4) →
        s.endUnlock v 0 = State.reportVerify (State.installToken { s with
          unlockVerify := none, flash := { s.flash with nonceKernel := BitVec.ofNat 64 (fieldOf b 8 8) } } b) v 0) ∧
      (fieldOf b 1 1 = 1 → (∀ d ∈ s.dbgDomains, d.firmware = false) →
        s.endUnlock v 0 = State.reportVerify (State.installToken { s with
          unlockVerify := none, flash := { s.flash with nonceFirmware := BitVec.ofNat 64 (fieldOf b 8 8) } } b) v 0) ∧
      ∀ b, v.token = some b → (∀ d ∈ s.dbgDomains, d.firmware = false → d.closing = false ∨ d.pasid ≠ fieldOf b 4 4) →
        exec (.unlockVerifyDone unchanged) s = .next (State.reportVerify (State.installToken { s with unlockVerify := none } b) v 0)) ∧
    ∀ (b : List Byte) (good : Bool),
      let slot := s.flash.keySlot (fieldOf b 2 1)
      (s.tokenBad b = true → s.tokenStatus b good = 2) ∧
      (s.tokenBad b = false → slot = none ∨ good = false → s.tokenStatus b good = 3) ∧
      (s.tokenBad b = false → slot ≠ none → good = true → fieldOf b 1 1 = 1 →
        (fieldOf b 8 8 ≤ s.flash.nonceFirmware.toNat → s.tokenStatus b good = 4) ∧
        (s.flash.nonceFirmware.toNat < fieldOf b 8 8 → s.tokenStatus b good = 0))

/-! ## Transitions: host, ports, power -/

/-- Host commands (R321 to R324, R330, R334, R337): a write is accepted while DONE is 1, and starts the command; with DONE 0 it
only sets LOST; the end of a command sets DONE with its status and tag and raises vector 0. A firmware image (R280, R336) has the status of
the first check that fails, and its end is stated for every status; `unchanged` is the host's keeping of R321. -/
def Obligations.HostCommands : Prop :=
  ∀ (s : State) (tag : BitVec 8) (arg : BitVec 48),
    let starts (op : Nat) (i : Instr) (run : State → Cmd) : Prop :=
      (s.host.done = true → exec i s = .next ((run { s with host := { s.host with
        hcmd := BitVec.ofNat 64 (op * 2 ^ 56 + tag.toNat * 2 ^ 48 + arg.toNat), done := false, pending := none } }).settle tag)) ∧
      (s.host.done = false → exec i s = .next { s with host := { s.host with lost := true } })
    starts 1 (.registerQueue tag arg) (State.cmdRegisterQueue arg.toNat) ∧
    starts 2 (.teardownPasid tag arg) (State.cmdTeardown arg.toNat) ∧ starts 3 (.destroyCtx tag arg) (State.cmdDestroy arg.toNat) ∧
    starts 4 (.preempt tag arg) (State.cmdPreempt arg.toNat) ∧ starts 5 (.loadFw tag arg) (State.cmdLoadFw arg.toNat) ∧
    (∀ unchanged, starts 6 (.keyslotWrite tag arg unchanged) (State.cmdKeyslot arg.toNat unchanged)) ∧
    starts 7 (.unlock tag arg) (State.cmdUnlock arg.toNat) ∧ starts 8 (.domainSet tag arg) (State.cmdDomainSet arg.toNat) ∧
    starts 9 (.streamSet tag arg) (State.cmdStreamSet arg.toNat) ∧ starts 10 (.streamMap tag arg) (State.cmdStreamMap arg.toNat) ∧
    starts 11 (.startClear tag arg) State.cmdStartClear ∧
    (∀ op : BitVec 8, op.toNat = 0 ∨ 11 < op.toNat → starts op.toNat (.hcmdUnknownOp op tag arg) (fun t => .fin 2 t)) ∧
    (s.host.done = false → ∀ w, exec (.hcmdIgnored w) s = .next { s with host := { s.host with lost := true } }) ∧
    (s.host.done = false → ∀ st t, s.host.pending = some (st, t) → (st = 0 → s.host.hcmd.toNat / 2 ^ 56 ≠ 3 ∧
      s.host.hcmd.toNat / 2 ^ 56 ≠ 4) → exec .commandDone s = .next { s.dropWaiter cmdWork with
        host := HostLink.raise { s.host with done := true, status := st, tag := t, pending := none } 0 }) ∧
    (∀ v unchanged, s.fwVerify = some v →
      let i := s.imageAt v.addr
      exec (.fwVerifyDone unchanged) s = .next (s.endFwVerify v (s.flash.verify i 1 (unchanged && s.imageSigned v.addr))) ∧
      s.endFwVerify v 0 = ((maskCores v.mask).foldl
        (fun (t : State) c => t.fillBank c (s.hostBytes (v.addr + 64) i.length))
        { s with fwVerify := none, flash := { s.flash with minVersion := Store.putD 0 s.flash.minVersion 1 (BitVec.ofNat 64 i.version) } }).reportVerify
          v 0 ∧
      ∀ st, st ≠ 0 → s.endFwVerify v st =
        ((maskCores v.mask).foldl (fun (t : State) c => t.spoilBank c) { s with fwVerify := none }).reportVerify v st) ∧
    ∀ (i : Image) (kind : Nat) (good : Bool),
      let bad : Prop := i.magic ≠ 0x53564947 ∨ i.kind ≠ kind ∨ 3 < i.keyslot ∨ i.rsv ≠ 0 ∨ i.rsv2 ≠ 0 ∨ (kind ≠ 3 ∧ i.target ≠ 0) ∨
        (i.devid ≠ 0 ∧ i.devid ≠ s.flash.deviceId.toNat)
      (bad → s.flash.verify i kind good = 2) ∧
      (¬ bad → s.flash.keySlot i.keyslot = none ∨ good = false → s.flash.verify i kind good = 3) ∧
      (¬ bad → s.flash.keySlot i.keyslot ≠ none → good = true →
        (i.version < (Store.getD s.flash.minVersion kind (0 : W64)).toNat → s.flash.verify i kind good = 4) ∧
        ((Store.getD s.flash.minVersion kind (0 : W64)).toNat ≤ i.version → s.flash.verify i kind good = 0))

/-- What some commands do (R279, R318, R322, R324, R334): teardown moves every queue of the PASID that is not dead to TEARDOWN and drops the
address translations under way; that the Stop Marker goes out with it is the model's reading (log 56). A domain table waits for its
installation, and that DOMAIN_SET finishes with OK meanwhile is the model's too (log 33). START_CLEAR writes the record with no failure,
alternative or skip, where GEN can still grow. -/
def Obligations.CommandEffects : Prop :=
  ∀ (s : State) (arg : Nat) (b : List Byte),
    (s.argBlock arg 4 0 = some b → fieldOf b 0 4 < 2 ^ 20 → ∃ t, State.cmdTeardown arg s = .fin 0 t ∧
      (∀ q ∈ t.queues, q.pasid = fieldOf b 0 4 → q.state = .teardown ∨ q.state = .dead) ∧
      t.host.stopMarkers = s.host.stopMarkers ++ [fieldOf b 0 4] ∧ (∀ a ∈ t.ats, a.pasid ≠ fieldOf b 0 4) ∧
      ((∀ g ∈ s.gangs, ∀ r ∈ g.groups, r.status ≠ .waitAts) → t.gangs = s.gangs) ∧ t.mem = s.mem) ∧
    (s.argBlock arg 8 0 = some b → s.feature 7 = true → ∀ d, s.parseDomain (fieldOf b 0 8) = some d →
      State.cmdDomainSet arg s = .fin 0 { s with domainPending := some d }) ∧
    (∃ t, State.cmdStartClear s = .fin 0 t ∧ t.host = s.host ∧ t.mem = s.mem ∧ (s.flash.record.gen + 1 < 2 ^ 32 →
      t.flash.record = { s.flash.record with gen := s.flash.record.gen + 1, fails := 0, alt := 0, skip := 0 })) ∧
    ∀ r : StartRec, r.gen < 2 ^ 32 → r.step < 2 ^ 8 → r.outcome < 2 ^ 8 → parseStart r.copy = some r

/-- Registers, ports, start, errors and power (R315, R316, R318, R320, R326 to R328, R332, R334, R336, R338, R339). The model's own readings
among them: a masked vector stands pending (log 61); STEP 30 and OUTCOME 1 of the record that a start writes (log 30); the amounts to which
refills fall above CAP, and that launch clocks stop there (log 31); the memory of the host after a loss of supply (log 20); a FEATACC write
that the locking command has overtaken (log 59); a frame's length given without its FCS (log 29). -/
def Obligations.HostTransitions : Prop :=
  ∀ s : State,
    (∀ x, s.ready = true → s.host.locked = false → s.lockComes = false →
      exec (.featAccWrite x) s = .next { s with host := { s.host with featAcc := x &&& s.host.featOff } }) ∧
    (∀ x, s.host.locked = true ∨ s.lockComes = true → exec (.featAccWrite x) s = .next s) ∧
    (exec (.ptpsecRead 0) s = .next { s with eth0 := { s.eth0 with latched := BitVec.ofNat 32 s.eth0.ns } } ∧
      exec (.ptpsecRead 1) s = .next { s with eth1 := { s.eth1 with latched := BitVec.ofNat 32 s.eth1.ns } }) ∧
    (∀ w : BitVec 64, ∃ e, exec (.ptpadjWrite 0 w) s = .next { s with eth0 := e } ∧ e.adj = w ∧ e.ns < 1000000000 ∧
      ((e.sec.toNat : Int) * 1000000000 + e.ns) % (2 ^ 48 * 1000000000) =
        ((s.eth0.sec.toNat : Int) * 1000000000 + s.eth0.ns + w.toInt) % (2 ^ 48 * 1000000000)) ∧
    (∀ w : BitVec 64, (800 ≤ w.toNat % 2 ^ 12 → w.toNat % 2 ^ 12 ≤ 3200 →
        exec (.registerWrite 0x300 w) s = .next { s with host := { s.host with pwrCap := w.toNat % 2 ^ 12 } }) ∧
      (¬ (800 ≤ w.toNat % 2 ^ 12 ∧ w.toNat % 2 ^ 12 ≤ 3200) → exec (.registerWrite 0x300 w) s = .next s) ∧
      exec (.registerWrite 0x108 w) s = .next { s with host := { s.host with lost := s.host.lost && !w.getLsbD 9 } }) ∧
    (∀ l : List Byte, s.eth0.up = true → s.ready = true → s.feature 8 = true →
      exec (.frameArrival 0 l false) s = .next { s with eth0 := { s.eth0 with badFcs := s.eth0.badFcs + 1 } } ∧
      (l.length + 4 < 64 → exec (.frameArrival 0 l true) s = .next { s with eth0 := { s.eth0 with runt := s.eth0.runt + 1 } }) ∧
      (9216 < l.length + 4 → exec (.frameArrival 0 l true) s = .next { s with eth0 := { s.eth0 with long := s.eth0.long + 1 } }) ∧
      (64 ≤ l.length + 4 → l.length + 4 ≤ 9216 → exec (.frameArrival 0 l true) s = .next { s with eth0 := s.bufferFrame s.eth0 l })) ∧
    (∀ port f, port < 2 → (s.eth port).heads = [f] → exec (.framePublish port) s = .next (s.publishFrame port f)) ∧
    (∀ port, s.portsUp.getLsbD port = true → ∃ t, exec (.portDown port) s = .next t ∧ t.portsUp.getLsbD port = false ∧
      (∀ k, k ≠ port → t.portsUp.getLsbD k = s.portsUp.getLsbD k) ∧ t.host = s.host.raise 1) ∧
    (∀ (h : HostLink) v, (h.masked v = false → h.raise v = { h with msix := h.msix ++ [v] }) ∧
      (h.masked v = true → h.raise v = { h with msixPending := h.msixPending ||| (1 : BitVec 2048) <<< v })) ∧
    (∀ dev d, s.unreachable.contains dev = false → s.domain = some d → (∃ e ∈ d.devs, e.1 = dev) →
      exec (.linkRetryTimeout dev) s = .next { s with
        unreachable := s.unreachable ++ [dev], host := s.host.raise 1 }) ∧
    (∀ d, s.domainPending = some d → (∀ l ∈ s.lanes, l.src = s.selfDev → l.items = []) →
      exec .domainTableInstall s = .next { s with domain := some d, domainPending := none, unreachable := d.cutOff s.portsUp }) ∧
    (∀ fails, s.ready = false → exec (.powerOnStart fails) s = .next (s.startWith s.flash.cfgSigned fails)) ∧
    (∀ (good : Bool → Bool) (fails : List Nat),
      let t := s.startWith good fails
      t.queues = [] ∧ t.grids = [] ∧ t.dbgDomains = [] ∧
      (∀ r, (runStart good fails s.flash).2 = .ready r → t.ready = true ∧ t.host.startSkip = r.skip ∧
        ((runStart good fails s.flash).1.record.gen + 1 < 2 ^ 32 → t.flash.record.step = 30 ∧ t.flash.record.outcome = 1)) ∧
      ((∀ second, s.flash.verify (imageOf (s.flash.cfgBytes second)) 2 (good second) ≠ 0) →
        ∀ r, (runStart good fails s.flash).2 ≠ .ready r)) ∧
    ((∀ p ∈ s.pasids, (s.pasids.foldl (fun t p => (t.tearDown p).haltLaunches p) s).launchesHalted p = true) →
      (∀ q ∈ s.queues, q.state = .dead) → ∃ t, exec .functionLevelReset s = .next t ∧ t.queues = [] ∧ t.streams = [] ∧ t.domain = none ∧ t.host.featAcc = 0 ∧
        t.host.locked = false) ∧
    (∀ unit, ∃ t, exec (.correctedError unit) s = .next t ∧
      let u := s.turnWindow (unit / 2 ^ 20)
      (Store.getD u.errCounts unit 0 ≠ 3 → t = { u with errCounts := Store.put u.errCounts unit (Store.getD u.errCounts unit 0 + 1) }) ∧
      (Store.getD u.errCounts unit 0 = 3 → t.host = s.host.raise 3)) ∧
    (∀ owner, exec (.errorWindow owner) s = .next (s.turnWindow owner) ∧
      (∀ c, s.core? owner = some c → s.errWindow owner = s.clockOf owner / 2 ^ 32) ∧
      (Store.getD s.errWindows owner 0 = s.errWindow owner → s.turnWindow owner = s) ∧
      (Store.getD s.errWindows owner 0 ≠ s.errWindow owner →
        (s.turnWindow owner).errCounts = s.errCounts.filter (fun e => e.1 / 2 ^ 20 != owner) ∧
        Store.getD (s.turnWindow owner).errWindows owner 0 = s.errWindow owner)) ∧
    (∀ die c, c ∈ s.cores → dieOf c.key = die → 840 ≤ c.temp → ∃ t, exec (.thermalLimit die) s = .next t ∧
      (s.host.pwrStat ≠ 3 → t.host.pwrStat = 2) ∧ ∀ d ∈ t.cores, dieOf d.key = die → ∀ p ∈ d.parts, p.refill = 4096) ∧
    (∀ die c, c ∈ s.cores → dieOf c.key = die → 880 ≤ c.temp → s.ready = true → ∃ t, exec (.thermalStop die) s = .next t ∧
      t.host.pwrStat = 3 ∧ t.host.startStat = s.host.startStat ||| 3 ∧ (s.host.masked 4 = false → t.host.msix = s.host.msix ++ [4]) ∧
      ∀ b ∈ t.blocks, b.stage = .resident → b.preempt = true) ∧
    (∀ watts, ∃ t, exec (.powerAverageWindow watts) s = .next t ∧ t.host.pwrNow = watts % 4096 ∧
      (∀ r ∈ t.roots, r.stopped = decide (s.host.pwrCap < watts % 4096)) ∧
      (s.host.pwrCap < watts % 4096 → ∀ c ∈ t.cores, ∃ d ∈ s.cores, c.parts.length = d.parts.length ∧
        ∀ (k : Nat) (p : Part), c.parts[k]? = some p → ∃ q : Part, d.parts[k]? = some q ∧
          4096 ≤ p.refill ∧ (4096 ≤ q.refill → p.refill ≤ q.refill))) ∧
    (∀ torn, ∃ t, exec (.powerLoss torn) s = .next t ∧ t.gangs = [] ∧ t.blocks = [] ∧ t.queues = [] ∧ t.streams = [] ∧
      (torn = none → t.flash = s.flash) ∧ ∀ a, hostBase ≤ a → a < fwBase → s.hostCopy = [] →
        t.readByte a = s.readByte a)

/-! ## Frames and faults -/

/-- What passing a word changes (R13, R114, R204): the group's own progress, and at the end of its clause the flags and a pending allotment;
every register, mask, `em`, `%astatus`, special register, galley and operation of the gang, every other gang, and everything outside
the gangs is as before. -/
def Obligations.PassingFrame : Prop :=
  ∀ (s : State) (c : Ctx) (g : Gang), s.ctx? = some c → g.uid = c.gang.uid → g.groups = c.gang.groups → c.run.allot = none →
    let t := s.goesOn c g
    { t with gangs := s.gangs } = s ∧ (∀ u, u ≠ c.uid → t.gang? u = s.gang? u) ∧
    ∃ h, t.gang? c.uid = some h ∧ { h with groups := g.groups, flags := g.flags } = g

/-- The frame of the words that write registers at issue: none touches memory, a galley, another gang, an operation's place in its queue
or a special register but `%astatus` and the one that `swr` names; of the gang's registers only those of the destination change, a
vector form in its active lanes alone; sticky bits stay set but where `swr` writes `%astatus`. -/
def Obligations.RegisterWordsFrame : Prop :=
  ∀ (s : State) (c : Ctx) (i : Instr),
    let f := formOf i
    let scalarWord := i ∈ (match f with
      | .s f => [Instr.smov f, .sadd f, .ssub f, .smul f, .smulh f, .sand f, .sor f, .sxor f, .sshl f, .sshr f, .ssra f, .smin f,
          .smax f, .scmp f, .ssel f, .sclz f, .spopc f, .sbfe f, .sbfi f, .measure f, .mpopc f, .mfirst f, .srd f, .swr f]
      | .i f => [Instr.smovi f]
      | _ => [])
    let vectorWord := i ∈ (match f with
      | .a2 f => [Instr.vadd f, .vsub f, .vmul f, .vmulh f, .vand f, .vor f, .vxor f, .vnot f, .vshl f, .vshr f, .vsra f, .vmin f, .vmax f,
          .vabs f, .vclz f, .vpopc f, .vmov f, .vadd2 f, .vsub2 f, .vqadd f, .vqsub f, .vshrr f, .vpack f, .vfclass f]
      | .a3 f => [Instr.vmad f, .vbfe f, .vbfi f, .vsel f, .vmac2 f, .vdot4 f, .vfma f]
      | .f2 f => [Instr.vfadd f, .vfsub f, .vfmul f, .vfmin f, .vfmax f]
      | .a2s f => [Instr.vunpack f, .vcmp f, .vfcmp f]
      | .cv f => [Instr.vcvt f, .vfcvt f, .vftoi f, .vitof f]
      | .i f => [Instr.vmovi f]
      | _ => [])
    let maskWord := i ∈ (match f with
      | .s f => [Instr.mand f, .mor f, .mxor f, .mnot f, .mmov f]
      | _ => [])
    let coll := match f with
      | .a2 f => f.gang
      | .a3 f => f.gang
      | .f2 f => f.gang
      | .a2s f => f.gang
      | .cv f => f.gang
      | .i f => vectorWord ∧ f.gang = true
      | _ => false
    scalarWord ∨ vectorWord ∨ maskWord → Issues s c coll (masksLanes i) →
      ∃ g, exec i s = s.passes c g ∧
        g = { c.gang with
          sregs := g.sregs, fresh := g.fresh, vregs := g.vregs, masks := g.masks, em := g.em, astatus := g.astatus
          freshBits := g.freshBits, tvec := g.tvec, tcause := g.tcause, tval := g.tval, tret := g.tret, ops := g.ops } ∧
        g.ops.map (fun o => { o with rewritten := [] }) = c.gang.ops.map (fun o => { o with rewritten := [] }) ∧
        (∀ m, (∀ n : BitVec 9, f.dest = some (.s n) → m ≠ n.toNat ∧ (pairDest i = true → m ≠ n.toNat + 1)) → g.rawS m = c.gang.rawS m) ∧
        (∀ m k, k < 128 → (∀ n : BitVec 8, f.dest = some (.v n) → (c.active s.now f.mask).getLsbD k = true →
          m ≠ n.toNat ∧ (pairDest i = true → m ≠ n.toNat + 1)) → g.rawV m k = c.gang.rawV m k) ∧
        (∀ m, m < 16 → f.dest ≠ some (.m (BitVec.ofNat 4 m)) → g.rawM m = c.gang.rawM m) ∧ (f.dest ≠ some .em → g.em = c.gang.em) ∧
        (f.dest ≠ some (.sr .astatus) → (¬ vectorWord → g.astatus = c.gang.astatus) ∧
          ∀ b, c.gang.astatus.getLsbD b = true → g.astatus.getLsbD b = true) ∧
        (f.dest ≠ some (.sr .tvec) → g.tvec = c.gang.tvec) ∧ (f.dest ≠ some (.sr .tcause) → g.tcause = c.gang.tcause) ∧
        (f.dest ≠ some (.sr .tval) → g.tval = c.gang.tval) ∧ (f.dest ≠ some (.sr .tret) → g.tret = c.gang.tret)

/-- The frame of memory at an issue: no word but `st`, `sts` and those words of the compositor and the debug handler that write their own
records changes a byte of memory when it issues: stores wait in the galley, commits in D(g), engines in their queues (R157, R168,
R188, R255). Nor does a load's RESOLVE. -/
def Obligations.IssueMemoryFrame : Prop :=
  ∀ (s t : State) (i : Instr),
    (match i with
      | .st _ | .sts _ | .pktld _ | .pktdone _ | .sigrmw _ | .qsave _ | .qload _ | .dispatch _ | .pendscan _ | .qarm _ | .trctl _ => False
      | .resolve _ _ => True
      | _ => i.cls.isSome = true) →
    exec i s = .next t → SameBytes s t

/-- Entry to a gang's handler (R196, R197): the faulting group alone enters at the handler's entry clause, ready, outside a clause; `%tcause` holds
the word and the code, `%tval` the fault address, `%tret` the address to resume at; `%tvec` names the image; every register, `em` and
the reconvergence stacks are as they were; without a handler the grid ends with a fault record instead (R202). -/
def Obligations.TrapEntryFields : Prop :=
  ∀ (s : State) (c : Ctx) (code : Code) (tval : W64), s.ctx? = some c →
    (∃ core part, c.gang.place = .press core part) → c.gang.trap = none → c.gang.latched = [] → s.preempting c.gang = false →
    c.run.allot = none →
    (c.gang.tvec.toNat / 256 ≠ 0 → ∃ g r, (s.faults c code tval).gang? c.uid = some g ∧ g.group? c.slice = some r ∧
      r.slices = c.grp.slices ∧ r.pc = c.gang.tvec + 64 ∧ r.status = .ready ∧ r.run = none ∧ g.image = c.gang.tvec ∧
      g.tcause = BitVec.ofNat 32 ((c.run.idx + 1) * 256 + code.num) ∧ g.tval = tval ∧ g.tret = c.pc ∧ g.trap.isSome = true ∧
      g.sregs = c.gang.sregs ∧ g.vregs = c.gang.vregs ∧ g.masks = c.gang.masks ∧ g.em = c.gang.em ∧ g.reconv = c.gang.reconv ∧
      g.astatus = c.gang.astatus ∧ g.galley = c.gang.galley) ∧
    (c.gang.tvec.toNat / 256 = 0 → ∀ b gr, s.block? c.gang.block = some b → s.grid? b.grid = some gr → gr.fault = none →
      ∃ x, (s.faults c code tval).grid? b.grid = some x ∧ x.aborted = true ∧ x.fault = some
        { code := code, first := none, tval := tval, tret := c.pc, block := b.blockid, gang := c.gang.gangid }) ∧
    SameBytes s (s.faults c code tval)

end
end

