-- ==== Sys2Proof/Laws/Fields.lean ====
section
/-!
SUPPORT. The codes of a word's fields and back again: one lemma per field code, and what a field of a word built from a
number is.
-/
namespace Sys2Proof.Laws

theorem decTy_encTy (t : Ty) : decTy (encTy t) = t := by cases t <;> rfl

theorem decRnd_encRnd (r : Rnd) : decRnd (encRnd r) = r := by cases r <;> rfl

theorem decScope_encScope (s : Scope) : decScope (encScope s) = s := by cases s <;> rfl

theorem decCond_encCond (c : Cond) : decCond (encCond c) = some c := by cases c <;> rfl

theorem decLvl_encLvl (l : Lvl) : decLvl (encLvl l) = some l := by cases l <;> rfl

theorem decCTy_encCTy (t : CTy) : decCTy (encCTy t) = some t := by cases t <;> rfl

theorem decMask_encMask (m : MaskSel) : decMask (encMask m) = some m := by
  cases m with
  | em => rfl
  | m n => revert n; decide

theorem decVoff_encVoff (v : Option (BitVec 8)) : decVoff (encVoff v) = some v := by
  cases v with
  | none => rfl
  | some n => revert n; decide

set_option maxRecDepth 4000 in
theorem decOpd_encOpd (o : Opd) : decOpd (encOpd o) = some o := by
  cases o with
  | v n => revert n; decide
  | s n => revert n; decide
  | imm n => revert n; decide
  | em => rfl
  | m n => revert n; decide
  | sr r => cases r <;> rfl

/-- The part of a sum that stands at a place: what is above it and what is below it fall away. -/
theorem split_at (n hi x low lo len : Nat) (e : n = hi * 2 ^ (lo + len) + x * 2 ^ lo + low) (hx : x < 2 ^ len)
    (hl : low < 2 ^ lo) : n / 2 ^ lo % 2 ^ len = x := by
  have h : n = (hi * 2 ^ len + x) * 2 ^ lo + low := by rw [e, Nat.pow_add, Nat.add_mul, Nat.mul_assoc, Nat.mul_comm (2 ^ lo)]
  have p : 0 < 2 ^ lo := Nat.two_pow_pos lo
  rw [h, Nat.add_comm, Nat.add_mul_div_right _ _ p, Nat.div_eq_of_lt hl, Nat.zero_add, Nat.add_comm, Nat.add_mul_mod_self_right,
    Nat.mod_eq_of_lt hx]

/-- The part of a sum that stands lowest. -/
theorem split_last (n hi x lo len : Nat) (e : n = hi * 2 ^ (lo + len) + x * 2 ^ lo) (hx : x < 2 ^ len) :
    n / 2 ^ lo % 2 ^ len = x :=
  split_at n hi x 0 lo len (by rw [e, Nat.add_zero]) hx (Nat.two_pow_pos lo)

/-- Nothing stands at a place that no part of the sum reaches. -/
theorem split_gap (n hi low lo len : Nat) (e : n = hi * 2 ^ (lo + len) + low) (hl : low < 2 ^ lo) :
    n / 2 ^ lo % 2 ^ len = 0 :=
  split_at n hi 0 low lo len (by rw [e, Nat.zero_mul, Nat.add_assoc, Nat.zero_add]) (Nat.two_pow_pos len) hl

/-- The lowest part of a sum. -/
theorem split_low (n hi x len : Nat) (e : n = hi * 2 ^ len + x) (hx : x < 2 ^ len) : n / 2 ^ 0 % 2 ^ len = x := by
  rw [e, Nat.pow_zero, Nat.div_one, Nat.add_comm, Nat.add_mul_mod_self_right, Nat.mod_eq_of_lt hx]

theorem split_none (n hi len : Nat) (e : n = hi * 2 ^ len) : n / 2 ^ 0 % 2 ^ len = 0 := by
  rw [e, Nat.pow_zero, Nat.div_one, Nat.mul_mod_left]

/-- A field of the word of a number: the value found at its place. -/
theorem field_of (n lo len : Nat) (x : BitVec len) (h : lo + len ≤ 64) (e : n / 2 ^ lo % 2 ^ len = x.toNat) :
    (BitVec.ofNat 64 n).extractLsb' lo len = x := by
  apply BitVec.eq_of_toNat_eq
  rw [← e]
  simp only [BitVec.extractLsb'_toNat, BitVec.toNat_ofNat, Nat.shiftRight_eq_div_pow]
  have : 2 ^ 64 = 2 ^ lo * 2 ^ (64 - lo) := by rw [← Nat.pow_add]; congr 1; omega
  rw [this, Nat.mod_mul_right_div_self, Nat.mod_mod_of_dvd]
  exact Nat.pow_dvd_pow 2 (by omega)

/-- A bit of the word of a number. -/
theorem bit_of (n lo : Nat) (b : Bool) (h : lo < 64) (e : n / 2 ^ lo % 2 = (encBool b).toNat) :
    (BitVec.ofNat 64 n).getLsbD lo = b := by
  rw [BitVec.getLsbD_ofNat, Nat.testBit_eq_decide_div_mod_eq, e]
  cases b <;> simp [h, encBool]

/-- The bits of a word at a place. -/
def place (lo len : Nat) : BitVec 64 := (BitVec.allOnes len).setWidth 64 <<< lo

/-- Bits that read as zero are not seen by the mask of their place. -/
theorem and_place (n lo len : Nat) (h : lo + len ≤ 64) (e : n / 2 ^ lo % 2 ^ len = 0) :
    BitVec.ofNat 64 n &&& place lo len = 0 := by
  have z := field_of n lo len 0 h (by simpa using e)
  generalize BitVec.ofNat 64 n = w at *
  ext i hi
  have := congrArg (fun x : BitVec len => x.getLsbD (i - lo)) z
  simp only [BitVec.getLsbD_extractLsb'] at this
  by_cases h1 : lo ≤ i <;> by_cases h2 : i - lo < len <;> simp_all [place]

theorem and_two (w a b : BitVec 64) (ha : w &&& a = 0) (hb : w &&& b = 0) : w &&& (a ||| b) = 0 := by
  rw [BitVec.and_or_distrib_left, ha, hb]; rfl

end Sys2Proof.Laws
end

