-- ==== Sys2Proof/Laws/Formats.lean ====
section
/-!
SUPPORT. One lemma per instruction format: the decoder of the format reads back what the encoder of the format wrote, with
the opcode.
-/
set_option linter.unusedSimpArgs false

namespace Sys2Proof.Laws

/-- The places of a format A3 word. -/
theorem placesA3 (n x0 x1 x2 x3 x4 x5 x6 x7 x8 x9 x10 : Nat) (b0 : x0 < 2 ^ 10) (b1 : x1 < 2 ^ 10) (b2 : x2 < 2 ^ 10) (b3 : x3 < 2 ^ 10) (b4 : x4 < 2 ^ 10) (b5 : x5 < 2 ^ 4) (b6 : x6 < 2 ^ 2) (b7 : x7 < 2 ^ 1) (b8 : x8 < 2 ^ 5) (b9 : x9 < 2 ^ 1) (b10 : x10 < 2 ^ 1)
    (hn : n = x0 * 18014398509481984 + x1 * 17592186044416 + x2 * 17179869184 + x3 * 16777216 + x4 * 16384 + x5 * 1024 + x6 * 256 + x7 * 128 + x8 * 4 + x9 * 2 + x10 * 1) :
    n / 2 ^ 54 % 2 ^ 10 = x0 ∧ n / 2 ^ 44 % 2 ^ 10 = x1 ∧ n / 2 ^ 34 % 2 ^ 10 = x2 ∧ n / 2 ^ 24 % 2 ^ 10 = x3 ∧ n / 2 ^ 14 % 2 ^ 10 = x4 ∧ n / 2 ^ 10 % 2 ^ 4 = x5 ∧ n / 2 ^ 8 % 2 ^ 2 = x6 ∧ n / 2 ^ 7 % 2 ^ 1 = x7 ∧ n / 2 ^ 2 % 2 ^ 5 = x8 ∧ n / 2 ^ 1 % 2 ^ 1 = x9 ∧ n / 2 ^ 0 % 2 ^ 1 = x10 :=
  ⟨split_at n (0) x0 (x1 * 17592186044416 + x2 * 17179869184 + x3 * 16777216 + x4 * 16384 + x5 * 1024 + x6 * 256 + x7 * 128 + x8 * 4 + x9 * 2 + x10 * 1) 54 10 (hn.trans (by simp only [Nat.add_mul, Nat.mul_assoc, Nat.reducePow, Nat.reduceMul, Nat.reduceAdd, Nat.add_assoc, Nat.mul_one, Nat.zero_mul, Nat.zero_add])) b0 (by omega),
   split_at n (x0 * 1) x1 (x2 * 17179869184 + x3 * 16777216 + x4 * 16384 + x5 * 1024 + x6 * 256 + x7 * 128 + x8 * 4 + x9 * 2 + x10 * 1) 44 10 (hn.trans (by simp only [Nat.add_mul, Nat.mul_assoc, Nat.reducePow, Nat.reduceMul, Nat.reduceAdd, Nat.add_assoc, Nat.mul_one, Nat.zero_mul, Nat.zero_add])) b1 (by omega),
   split_at n (x0 * 1024 + x1 * 1) x2 (x3 * 16777216 + x4 * 16384 + x5 * 1024 + x6 * 256 + x7 * 128 + x8 * 4 + x9 * 2 + x10 * 1) 34 10 (hn.trans (by simp only [Nat.add_mul, Nat.mul_assoc, Nat.reducePow, Nat.reduceMul, Nat.reduceAdd, Nat.add_assoc, Nat.mul_one, Nat.zero_mul, Nat.zero_add])) b2 (by omega),
   split_at n (x0 * 1048576 + x1 * 1024 + x2 * 1) x3 (x4 * 16384 + x5 * 1024 + x6 * 256 + x7 * 128 + x8 * 4 + x9 * 2 + x10 * 1) 24 10 (hn.trans (by simp only [Nat.add_mul, Nat.mul_assoc, Nat.reducePow, Nat.reduceMul, Nat.reduceAdd, Nat.add_assoc, Nat.mul_one, Nat.zero_mul, Nat.zero_add])) b3 (by omega),
   split_at n (x0 * 1073741824 + x1 * 1048576 + x2 * 1024 + x3 * 1) x4 (x5 * 1024 + x6 * 256 + x7 * 128 + x8 * 4 + x9 * 2 + x10 * 1) 14 10 (hn.trans (by simp only [Nat.add_mul, Nat.mul_assoc, Nat.reducePow, Nat.reduceMul, Nat.reduceAdd, Nat.add_assoc, Nat.mul_one, Nat.zero_mul, Nat.zero_add])) b4 (by omega),
   split_at n (x0 * 1099511627776 + x1 * 1073741824 + x2 * 1048576 + x3 * 1024 + x4 * 1) x5 (x6 * 256 + x7 * 128 + x8 * 4 + x9 * 2 + x10 * 1) 10 4 (hn.trans (by simp only [Nat.add_mul, Nat.mul_assoc, Nat.reducePow, Nat.reduceMul, Nat.reduceAdd, Nat.add_assoc, Nat.mul_one, Nat.zero_mul, Nat.zero_add])) b5 (by omega),
   split_at n (x0 * 17592186044416 + x1 * 17179869184 + x2 * 16777216 + x3 * 16384 + x4 * 16 + x5 * 1) x6 (x7 * 128 + x8 * 4 + x9 * 2 + x10 * 1) 8 2 (hn.trans (by simp only [Nat.add_mul, Nat.mul_assoc, Nat.reducePow, Nat.reduceMul, Nat.reduceAdd, Nat.add_assoc, Nat.mul_one, Nat.zero_mul, Nat.zero_add])) b6 (by omega),
   split_at n (x0 * 70368744177664 + x1 * 68719476736 + x2 * 67108864 + x3 * 65536 + x4 * 64 + x5 * 4 + x6 * 1) x7 (x8 * 4 + x9 * 2 + x10 * 1) 7 1 (hn.trans (by simp only [Nat.add_mul, Nat.mul_assoc, Nat.reducePow, Nat.reduceMul, Nat.reduceAdd, Nat.add_assoc, Nat.mul_one, Nat.zero_mul, Nat.zero_add])) b7 (by omega),
   split_at n (x0 * 140737488355328 + x1 * 137438953472 + x2 * 134217728 + x3 * 131072 + x4 * 128 + x5 * 8 + x6 * 2 + x7 * 1) x8 (x9 * 2 + x10 * 1) 2 5 (hn.trans (by simp only [Nat.add_mul, Nat.mul_assoc, Nat.reducePow, Nat.reduceMul, Nat.reduceAdd, Nat.add_assoc, Nat.mul_one, Nat.zero_mul, Nat.zero_add])) b8 (by omega),
   split_at n (x0 * 4503599627370496 + x1 * 4398046511104 + x2 * 4294967296 + x3 * 4194304 + x4 * 4096 + x5 * 256 + x6 * 64 + x7 * 32 + x8 * 1) x9 (x10 * 1) 1 1 (hn.trans (by simp only [Nat.add_mul, Nat.mul_assoc, Nat.reducePow, Nat.reduceMul, Nat.reduceAdd, Nat.add_assoc, Nat.mul_one, Nat.zero_mul, Nat.zero_add])) b9 (by omega),
   split_low n (x0 * 9007199254740992 + x1 * 8796093022208 + x2 * 8589934592 + x3 * 8388608 + x4 * 8192 + x5 * 512 + x6 * 128 + x7 * 64 + x8 * 2 + x9 * 1) x10 1 (hn.trans (by simp only [Nat.add_mul, Nat.mul_assoc, Nat.reducePow, Nat.reduceMul, Nat.mul_one])) b10⟩

/-- The fields of a format A3 word are read back as they were put in, and no reserved bit is set. -/
theorem decA3_encA3 (op : BitVec 10) (f : FmtA3) :
    decA3 (encA3 op f) = .ok f ∧ (encA3 op f).extractLsb' 54 10 = op := by
  obtain ⟨n, hn⟩ : ∃ n, n = op.toNat * 18014398509481984 + (encOpd f.dst).toNat * 17592186044416 + (encOpd f.a).toNat * 17179869184 + (encOpd f.b).toNat * 16777216 + (encOpd f.c).toNat * 16384 + (encTy f.ty).toNat * 1024 + (encRnd f.rnd).toNat * 256 + (encBool f.sat).toNat * 128 + (encMask f.mask).toNat * 4 + (encBool f.gang).toNat * 2 + (encBool f.keep).toNat * 1 := ⟨_, rfl⟩
  have hw : encA3 op f = BitVec.ofNat 64 n := by rw [hn]; simp only [encA3, put, Nat.reducePow]
  obtain ⟨e0, e1, e2, e3, e4, e5, e6, e7, e8, e9, e10⟩ := placesA3 n _ _ _ _ _ _ _ _ _ _ _ op.isLt (encOpd f.dst).isLt (encOpd f.a).isLt (encOpd f.b).isLt (encOpd f.c).isLt (encTy f.ty).isLt (encRnd f.rnd).isLt (encBool f.sat).isLt (encMask f.mask).isLt (encBool f.gang).isLt (encBool f.keep).isLt hn
  rw [hw]
  replace e0 := field_of n 54 10 _ (by omega) e0
  replace e1 := field_of n 44 10 _ (by omega) e1
  replace e2 := field_of n 34 10 _ (by omega) e2
  replace e3 := field_of n 24 10 _ (by omega) e3
  replace e4 := field_of n 14 10 _ (by omega) e4
  replace e5 := field_of n 10 4 _ (by omega) e5
  replace e6 := field_of n 8 2 _ (by omega) e6
  replace e7 := bit_of n 7 _ (by omega) e7
  replace e8 := field_of n 2 5 _ (by omega) e8
  replace e9 := bit_of n 1 _ (by omega) e9
  replace e10 := bit_of n 0 _ (by omega) e10
  refine ⟨?_, e0⟩
  generalize BitVec.ofNat 64 _ = w at *
  simp only [decA3, e1, e2, e3, e4, e5, e6, e7, e8, e9, e10, decMask_encMask, decOpd_encOpd, decRnd_encRnd, decTy_encTy]

/-- The places of a format F2 word. -/
theorem placesF2 (n x0 x1 x2 x3 x4 x5 x6 x7 x8 x9 : Nat) (b0 : x0 < 2 ^ 10) (b1 : x1 < 2 ^ 10) (b2 : x2 < 2 ^ 10) (b3 : x3 < 2 ^ 10) (b4 : x4 < 2 ^ 4) (b5 : x5 < 2 ^ 2) (b6 : x6 < 2 ^ 1) (b7 : x7 < 2 ^ 5) (b8 : x8 < 2 ^ 1) (b9 : x9 < 2 ^ 1)
    (hn : n = x0 * 18014398509481984 + x1 * 17592186044416 + x2 * 17179869184 + x3 * 16777216 + x4 * 1024 + x5 * 256 + x6 * 128 + x7 * 4 + x8 * 2 + x9 * 1) :
    n / 2 ^ 54 % 2 ^ 10 = x0 ∧ n / 2 ^ 44 % 2 ^ 10 = x1 ∧ n / 2 ^ 34 % 2 ^ 10 = x2 ∧ n / 2 ^ 24 % 2 ^ 10 = x3 ∧ n / 2 ^ 10 % 2 ^ 4 = x4 ∧ n / 2 ^ 8 % 2 ^ 2 = x5 ∧ n / 2 ^ 7 % 2 ^ 1 = x6 ∧ n / 2 ^ 2 % 2 ^ 5 = x7 ∧ n / 2 ^ 1 % 2 ^ 1 = x8 ∧ n / 2 ^ 0 % 2 ^ 1 = x9 ∧ n / 2 ^ 14 % 2 ^ 10 = 0 :=
  ⟨split_at n (0) x0 (x1 * 17592186044416 + x2 * 17179869184 + x3 * 16777216 + x4 * 1024 + x5 * 256 + x6 * 128 + x7 * 4 + x8 * 2 + x9 * 1) 54 10 (hn.trans (by simp only [Nat.add_mul, Nat.mul_assoc, Nat.reducePow, Nat.reduceMul, Nat.reduceAdd, Nat.add_assoc, Nat.mul_one, Nat.zero_mul, Nat.zero_add])) b0 (by omega),
   split_at n (x0 * 1) x1 (x2 * 17179869184 + x3 * 16777216 + x4 * 1024 + x5 * 256 + x6 * 128 + x7 * 4 + x8 * 2 + x9 * 1) 44 10 (hn.trans (by simp only [Nat.add_mul, Nat.mul_assoc, Nat.reducePow, Nat.reduceMul, Nat.reduceAdd, Nat.add_assoc, Nat.mul_one, Nat.zero_mul, Nat.zero_add])) b1 (by omega),
   split_at n (x0 * 1024 + x1 * 1) x2 (x3 * 16777216 + x4 * 1024 + x5 * 256 + x6 * 128 + x7 * 4 + x8 * 2 + x9 * 1) 34 10 (hn.trans (by simp only [Nat.add_mul, Nat.mul_assoc, Nat.reducePow, Nat.reduceMul, Nat.reduceAdd, Nat.add_assoc, Nat.mul_one, Nat.zero_mul, Nat.zero_add])) b2 (by omega),
   split_at n (x0 * 1048576 + x1 * 1024 + x2 * 1) x3 (x4 * 1024 + x5 * 256 + x6 * 128 + x7 * 4 + x8 * 2 + x9 * 1) 24 10 (hn.trans (by simp only [Nat.add_mul, Nat.mul_assoc, Nat.reducePow, Nat.reduceMul, Nat.reduceAdd, Nat.add_assoc, Nat.mul_one, Nat.zero_mul, Nat.zero_add])) b3 (by omega),
   split_at n (x0 * 1099511627776 + x1 * 1073741824 + x2 * 1048576 + x3 * 1024) x4 (x5 * 256 + x6 * 128 + x7 * 4 + x8 * 2 + x9 * 1) 10 4 (hn.trans (by simp only [Nat.add_mul, Nat.mul_assoc, Nat.reducePow, Nat.reduceMul, Nat.reduceAdd, Nat.add_assoc, Nat.mul_one, Nat.zero_mul, Nat.zero_add])) b4 (by omega),
   split_at n (x0 * 17592186044416 + x1 * 17179869184 + x2 * 16777216 + x3 * 16384 + x4 * 1) x5 (x6 * 128 + x7 * 4 + x8 * 2 + x9 * 1) 8 2 (hn.trans (by simp only [Nat.add_mul, Nat.mul_assoc, Nat.reducePow, Nat.reduceMul, Nat.reduceAdd, Nat.add_assoc, Nat.mul_one, Nat.zero_mul, Nat.zero_add])) b5 (by omega),
   split_at n (x0 * 70368744177664 + x1 * 68719476736 + x2 * 67108864 + x3 * 65536 + x4 * 4 + x5 * 1) x6 (x7 * 4 + x8 * 2 + x9 * 1) 7 1 (hn.trans (by simp only [Nat.add_mul, Nat.mul_assoc, Nat.reducePow, Nat.reduceMul, Nat.reduceAdd, Nat.add_assoc, Nat.mul_one, Nat.zero_mul, Nat.zero_add])) b6 (by omega),
   split_at n (x0 * 140737488355328 + x1 * 137438953472 + x2 * 134217728 + x3 * 131072 + x4 * 8 + x5 * 2 + x6 * 1) x7 (x8 * 2 + x9 * 1) 2 5 (hn.trans (by simp only [Nat.add_mul, Nat.mul_assoc, Nat.reducePow, Nat.reduceMul, Nat.reduceAdd, Nat.add_assoc, Nat.mul_one, Nat.zero_mul, Nat.zero_add])) b7 (by omega),
   split_at n (x0 * 4503599627370496 + x1 * 4398046511104 + x2 * 4294967296 + x3 * 4194304 + x4 * 256 + x5 * 64 + x6 * 32 + x7 * 1) x8 (x9 * 1) 1 1 (hn.trans (by simp only [Nat.add_mul, Nat.mul_assoc, Nat.reducePow, Nat.reduceMul, Nat.reduceAdd, Nat.add_assoc, Nat.mul_one, Nat.zero_mul, Nat.zero_add])) b8 (by omega),
   split_low n (x0 * 9007199254740992 + x1 * 8796093022208 + x2 * 8589934592 + x3 * 8388608 + x4 * 512 + x5 * 128 + x6 * 64 + x7 * 2 + x8 * 1) x9 1 (hn.trans (by simp only [Nat.add_mul, Nat.mul_assoc, Nat.reducePow, Nat.reduceMul, Nat.mul_one])) b9,
   split_gap n (x0 * 1073741824 + x1 * 1048576 + x2 * 1024 + x3 * 1) (x4 * 1024 + x5 * 256 + x6 * 128 + x7 * 4 + x8 * 2 + x9 * 1) 14 10 (hn.trans (by simp only [Nat.add_mul, Nat.mul_assoc, Nat.reducePow, Nat.reduceMul, Nat.reduceAdd, Nat.add_assoc, Nat.mul_one, Nat.zero_mul, Nat.zero_add])) (by omega)⟩

/-- The fields of a format F2 word are read back as they were put in, and no reserved bit is set. -/
theorem decF2_encF2 (op : BitVec 10) (f : FmtF2) :
    decF2 (encF2 op f) = .ok f ∧ (encF2 op f).extractLsb' 54 10 = op := by
  obtain ⟨n, hn⟩ : ∃ n, n = op.toNat * 18014398509481984 + (encOpd f.dst).toNat * 17592186044416 + (encOpd f.a).toNat * 17179869184 + (encOpd f.b).toNat * 16777216 + (encTy f.ty).toNat * 1024 + (encRnd f.rnd).toNat * 256 + (encBool f.sat).toNat * 128 + (encMask f.mask).toNat * 4 + (encBool f.gang).toNat * 2 + (encBool f.keep).toNat * 1 := ⟨_, rfl⟩
  have hw : encF2 op f = BitVec.ofNat 64 n := by rw [hn]; simp only [encF2, put, Nat.reducePow]
  obtain ⟨e0, e1, e2, e3, e4, e5, e6, e7, e8, e9, g0⟩ := placesF2 n _ _ _ _ _ _ _ _ _ _ op.isLt (encOpd f.dst).isLt (encOpd f.a).isLt (encOpd f.b).isLt (encTy f.ty).isLt (encRnd f.rnd).isLt (encBool f.sat).isLt (encMask f.mask).isLt (encBool f.gang).isLt (encBool f.keep).isLt hn
  rw [hw]
  replace e0 := field_of n 54 10 _ (by omega) e0
  replace e1 := field_of n 44 10 _ (by omega) e1
  replace e2 := field_of n 34 10 _ (by omega) e2
  replace e3 := field_of n 24 10 _ (by omega) e3
  replace e4 := field_of n 10 4 _ (by omega) e4
  replace e5 := field_of n 8 2 _ (by omega) e5
  replace e6 := bit_of n 7 _ (by omega) e6
  replace e7 := field_of n 2 5 _ (by omega) e7
  replace e8 := bit_of n 1 _ (by omega) e8
  replace e9 := bit_of n 0 _ (by omega) e9
  replace g0 := and_place n 14 10 (by omega) g0
  have r := g0
  rw [show place 14 10 = (0x0000000000FFC000 : BitVec 64) by decide] at r
  refine ⟨?_, e0⟩
  generalize BitVec.ofNat 64 _ = w at *
  simp only [decF2, r, e1, e2, e3, e4, e5, e6, e7, e8, e9, decMask_encMask, decOpd_encOpd, decRnd_encRnd, decTy_encTy, bne_self_eq_false, Bool.false_eq_true, if_false]

/-- The places of a format A2 word. -/
theorem placesA2 (n x0 x1 x2 x3 x4 x5 x6 x7 : Nat) (b0 : x0 < 2 ^ 10) (b1 : x1 < 2 ^ 10) (b2 : x2 < 2 ^ 10) (b3 : x3 < 2 ^ 10) (b4 : x4 < 2 ^ 4) (b5 : x5 < 2 ^ 1) (b6 : x6 < 2 ^ 5) (b7 : x7 < 2 ^ 1)
    (hn : n = x0 * 18014398509481984 + x1 * 17592186044416 + x2 * 17179869184 + x3 * 16777216 + x4 * 1024 + x5 * 128 + x6 * 4 + x7 * 2) :
    n / 2 ^ 54 % 2 ^ 10 = x0 ∧ n / 2 ^ 44 % 2 ^ 10 = x1 ∧ n / 2 ^ 34 % 2 ^ 10 = x2 ∧ n / 2 ^ 24 % 2 ^ 10 = x3 ∧ n / 2 ^ 10 % 2 ^ 4 = x4 ∧ n / 2 ^ 7 % 2 ^ 1 = x5 ∧ n / 2 ^ 2 % 2 ^ 5 = x6 ∧ n / 2 ^ 1 % 2 ^ 1 = x7 ∧ n / 2 ^ 14 % 2 ^ 10 = 0 ∧ n / 2 ^ 8 % 2 ^ 2 = 0 ∧ n / 2 ^ 0 % 2 ^ 1 = 0 :=
  ⟨split_at n (0) x0 (x1 * 17592186044416 + x2 * 17179869184 + x3 * 16777216 + x4 * 1024 + x5 * 128 + x6 * 4 + x7 * 2) 54 10 (hn.trans (by simp only [Nat.add_mul, Nat.mul_assoc, Nat.reducePow, Nat.reduceMul, Nat.reduceAdd, Nat.add_assoc, Nat.mul_one, Nat.zero_mul, Nat.zero_add])) b0 (by omega),
   split_at n (x0 * 1) x1 (x2 * 17179869184 + x3 * 16777216 + x4 * 1024 + x5 * 128 + x6 * 4 + x7 * 2) 44 10 (hn.trans (by simp only [Nat.add_mul, Nat.mul_assoc, Nat.reducePow, Nat.reduceMul, Nat.reduceAdd, Nat.add_assoc, Nat.mul_one, Nat.zero_mul, Nat.zero_add])) b1 (by omega),
   split_at n (x0 * 1024 + x1 * 1) x2 (x3 * 16777216 + x4 * 1024 + x5 * 128 + x6 * 4 + x7 * 2) 34 10 (hn.trans (by simp only [Nat.add_mul, Nat.mul_assoc, Nat.reducePow, Nat.reduceMul, Nat.reduceAdd, Nat.add_assoc, Nat.mul_one, Nat.zero_mul, Nat.zero_add])) b2 (by omega),
   split_at n (x0 * 1048576 + x1 * 1024 + x2 * 1) x3 (x4 * 1024 + x5 * 128 + x6 * 4 + x7 * 2) 24 10 (hn.trans (by simp only [Nat.add_mul, Nat.mul_assoc, Nat.reducePow, Nat.reduceMul, Nat.reduceAdd, Nat.add_assoc, Nat.mul_one, Nat.zero_mul, Nat.zero_add])) b3 (by omega),
   split_at n (x0 * 1099511627776 + x1 * 1073741824 + x2 * 1048576 + x3 * 1024) x4 (x5 * 128 + x6 * 4 + x7 * 2) 10 4 (hn.trans (by simp only [Nat.add_mul, Nat.mul_assoc, Nat.reducePow, Nat.reduceMul, Nat.reduceAdd, Nat.add_assoc, Nat.mul_one, Nat.zero_mul, Nat.zero_add])) b4 (by omega),
   split_at n (x0 * 70368744177664 + x1 * 68719476736 + x2 * 67108864 + x3 * 65536 + x4 * 4) x5 (x6 * 4 + x7 * 2) 7 1 (hn.trans (by simp only [Nat.add_mul, Nat.mul_assoc, Nat.reducePow, Nat.reduceMul, Nat.reduceAdd, Nat.add_assoc, Nat.mul_one, Nat.zero_mul, Nat.zero_add])) b5 (by omega),
   split_at n (x0 * 140737488355328 + x1 * 137438953472 + x2 * 134217728 + x3 * 131072 + x4 * 8 + x5 * 1) x6 (x7 * 2) 2 5 (hn.trans (by simp only [Nat.add_mul, Nat.mul_assoc, Nat.reducePow, Nat.reduceMul, Nat.reduceAdd, Nat.add_assoc, Nat.mul_one, Nat.zero_mul, Nat.zero_add])) b6 (by omega),
   split_last n (x0 * 4503599627370496 + x1 * 4398046511104 + x2 * 4294967296 + x3 * 4194304 + x4 * 256 + x5 * 32 + x6 * 1) x7 1 1 (hn.trans (by simp only [Nat.add_mul, Nat.mul_assoc, Nat.reducePow, Nat.reduceMul, Nat.reduceAdd, Nat.add_assoc, Nat.mul_one, Nat.zero_mul, Nat.zero_add])) b7,
   split_gap n (x0 * 1073741824 + x1 * 1048576 + x2 * 1024 + x3 * 1) (x4 * 1024 + x5 * 128 + x6 * 4 + x7 * 2) 14 10 (hn.trans (by simp only [Nat.add_mul, Nat.mul_assoc, Nat.reducePow, Nat.reduceMul, Nat.reduceAdd, Nat.add_assoc, Nat.mul_one, Nat.zero_mul, Nat.zero_add])) (by omega),
   split_gap n (x0 * 17592186044416 + x1 * 17179869184 + x2 * 16777216 + x3 * 16384 + x4 * 1) (x5 * 128 + x6 * 4 + x7 * 2) 8 2 (hn.trans (by simp only [Nat.add_mul, Nat.mul_assoc, Nat.reducePow, Nat.reduceMul, Nat.reduceAdd, Nat.add_assoc, Nat.mul_one, Nat.zero_mul, Nat.zero_add])) (by omega),
   split_none n (x0 * 9007199254740992 + x1 * 8796093022208 + x2 * 8589934592 + x3 * 8388608 + x4 * 512 + x5 * 64 + x6 * 2 + x7 * 1) 1 (hn.trans (by simp only [Nat.add_mul, Nat.mul_assoc, Nat.reducePow, Nat.reduceMul, Nat.mul_one]))⟩

/-- The fields of a format A2 word are read back as they were put in, and no reserved bit is set. -/
theorem decA2_encA2 (op : BitVec 10) (f : FmtA2) :
    decA2 (encA2 op f) = .ok f ∧ (encA2 op f).extractLsb' 54 10 = op := by
  obtain ⟨n, hn⟩ : ∃ n, n = op.toNat * 18014398509481984 + (encOpd f.dst).toNat * 17592186044416 + (encOpd f.a).toNat * 17179869184 + (encOpd f.b).toNat * 16777216 + (encTy f.ty).toNat * 1024 + (encBool f.sat).toNat * 128 + (encMask f.mask).toNat * 4 + (encBool f.gang).toNat * 2 := ⟨_, rfl⟩
  have hw : encA2 op f = BitVec.ofNat 64 n := by rw [hn]; simp only [encA2, put, Nat.reducePow]
  obtain ⟨e0, e1, e2, e3, e4, e5, e6, e7, g0, g1, g2⟩ := placesA2 n _ _ _ _ _ _ _ _ op.isLt (encOpd f.dst).isLt (encOpd f.a).isLt (encOpd f.b).isLt (encTy f.ty).isLt (encBool f.sat).isLt (encMask f.mask).isLt (encBool f.gang).isLt hn
  rw [hw]
  replace e0 := field_of n 54 10 _ (by omega) e0
  replace e1 := field_of n 44 10 _ (by omega) e1
  replace e2 := field_of n 34 10 _ (by omega) e2
  replace e3 := field_of n 24 10 _ (by omega) e3
  replace e4 := field_of n 10 4 _ (by omega) e4
  replace e5 := bit_of n 7 _ (by omega) e5
  replace e6 := field_of n 2 5 _ (by omega) e6
  replace e7 := bit_of n 1 _ (by omega) e7
  replace g0 := and_place n 14 10 (by omega) g0
  replace g1 := and_place n 8 2 (by omega) g1
  replace g2 := and_place n 0 1 (by omega) g2
  have r := and_two _ _ _ g0 (and_two _ _ _ g1 g2)
  rw [show place 14 10 ||| (place 8 2 ||| place 0 1) = (0x0000000000FFC301 : BitVec 64) by decide] at r
  refine ⟨?_, e0⟩
  generalize BitVec.ofNat 64 _ = w at *
  simp only [decA2, r, e1, e2, e3, e4, e5, e6, e7, decMask_encMask, decOpd_encOpd, decTy_encTy, bne_self_eq_false, Bool.false_eq_true, if_false]

/-- The places of a format A2S word. -/
theorem placesA2S (n x0 x1 x2 x3 x4 x5 x6 x7 x8 : Nat) (b0 : x0 < 2 ^ 10) (b1 : x1 < 2 ^ 10) (b2 : x2 < 2 ^ 10) (b3 : x3 < 2 ^ 10) (b4 : x4 < 2 ^ 6) (b5 : x5 < 2 ^ 4) (b6 : x6 < 2 ^ 1) (b7 : x7 < 2 ^ 5) (b8 : x8 < 2 ^ 1)
    (hn : n = x0 * 18014398509481984 + x1 * 17592186044416 + x2 * 17179869184 + x3 * 16777216 + x4 * 262144 + x5 * 1024 + x6 * 128 + x7 * 4 + x8 * 2) :
    n / 2 ^ 54 % 2 ^ 10 = x0 ∧ n / 2 ^ 44 % 2 ^ 10 = x1 ∧ n / 2 ^ 34 % 2 ^ 10 = x2 ∧ n / 2 ^ 24 % 2 ^ 10 = x3 ∧ n / 2 ^ 18 % 2 ^ 6 = x4 ∧ n / 2 ^ 10 % 2 ^ 4 = x5 ∧ n / 2 ^ 7 % 2 ^ 1 = x6 ∧ n / 2 ^ 2 % 2 ^ 5 = x7 ∧ n / 2 ^ 1 % 2 ^ 1 = x8 ∧ n / 2 ^ 14 % 2 ^ 4 = 0 ∧ n / 2 ^ 8 % 2 ^ 2 = 0 ∧ n / 2 ^ 0 % 2 ^ 1 = 0 :=
  ⟨split_at n (0) x0 (x1 * 17592186044416 + x2 * 17179869184 + x3 * 16777216 + x4 * 262144 + x5 * 1024 + x6 * 128 + x7 * 4 + x8 * 2) 54 10 (hn.trans (by simp only [Nat.add_mul, Nat.mul_assoc, Nat.reducePow, Nat.reduceMul, Nat.reduceAdd, Nat.add_assoc, Nat.mul_one, Nat.zero_mul, Nat.zero_add])) b0 (by omega),
   split_at n (x0 * 1) x1 (x2 * 17179869184 + x3 * 16777216 + x4 * 262144 + x5 * 1024 + x6 * 128 + x7 * 4 + x8 * 2) 44 10 (hn.trans (by simp only [Nat.add_mul, Nat.mul_assoc, Nat.reducePow, Nat.reduceMul, Nat.reduceAdd, Nat.add_assoc, Nat.mul_one, Nat.zero_mul, Nat.zero_add])) b1 (by omega),
   split_at n (x0 * 1024 + x1 * 1) x2 (x3 * 16777216 + x4 * 262144 + x5 * 1024 + x6 * 128 + x7 * 4 + x8 * 2) 34 10 (hn.trans (by simp only [Nat.add_mul, Nat.mul_assoc, Nat.reducePow, Nat.reduceMul, Nat.reduceAdd, Nat.add_assoc, Nat.mul_one, Nat.zero_mul, Nat.zero_add])) b2 (by omega),
   split_at n (x0 * 1048576 + x1 * 1024 + x2 * 1) x3 (x4 * 262144 + x5 * 1024 + x6 * 128 + x7 * 4 + x8 * 2) 24 10 (hn.trans (by simp only [Nat.add_mul, Nat.mul_assoc, Nat.reducePow, Nat.reduceMul, Nat.reduceAdd, Nat.add_assoc, Nat.mul_one, Nat.zero_mul, Nat.zero_add])) b3 (by omega),
   split_at n (x0 * 1073741824 + x1 * 1048576 + x2 * 1024 + x3 * 1) x4 (x5 * 1024 + x6 * 128 + x7 * 4 + x8 * 2) 18 6 (hn.trans (by simp only [Nat.add_mul, Nat.mul_assoc, Nat.reducePow, Nat.reduceMul, Nat.reduceAdd, Nat.add_assoc, Nat.mul_one, Nat.zero_mul, Nat.zero_add])) b4 (by omega),
   split_at n (x0 * 1099511627776 + x1 * 1073741824 + x2 * 1048576 + x3 * 1024 + x4 * 16) x5 (x6 * 128 + x7 * 4 + x8 * 2) 10 4 (hn.trans (by simp only [Nat.add_mul, Nat.mul_assoc, Nat.reducePow, Nat.reduceMul, Nat.reduceAdd, Nat.add_assoc, Nat.mul_one, Nat.zero_mul, Nat.zero_add])) b5 (by omega),
   split_at n (x0 * 70368744177664 + x1 * 68719476736 + x2 * 67108864 + x3 * 65536 + x4 * 1024 + x5 * 4) x6 (x7 * 4 + x8 * 2) 7 1 (hn.trans (by simp only [Nat.add_mul, Nat.mul_assoc, Nat.reducePow, Nat.reduceMul, Nat.reduceAdd, Nat.add_assoc, Nat.mul_one, Nat.zero_mul, Nat.zero_add])) b6 (by omega),
   split_at n (x0 * 140737488355328 + x1 * 137438953472 + x2 * 134217728 + x3 * 131072 + x4 * 2048 + x5 * 8 + x6 * 1) x7 (x8 * 2) 2 5 (hn.trans (by simp only [Nat.add_mul, Nat.mul_assoc, Nat.reducePow, Nat.reduceMul, Nat.reduceAdd, Nat.add_assoc, Nat.mul_one, Nat.zero_mul, Nat.zero_add])) b7 (by omega),
   split_last n (x0 * 4503599627370496 + x1 * 4398046511104 + x2 * 4294967296 + x3 * 4194304 + x4 * 65536 + x5 * 256 + x6 * 32 + x7 * 1) x8 1 1 (hn.trans (by simp only [Nat.add_mul, Nat.mul_assoc, Nat.reducePow, Nat.reduceMul, Nat.reduceAdd, Nat.add_assoc, Nat.mul_one, Nat.zero_mul, Nat.zero_add])) b8,
   split_gap n (x0 * 68719476736 + x1 * 67108864 + x2 * 65536 + x3 * 64 + x4 * 1) (x5 * 1024 + x6 * 128 + x7 * 4 + x8 * 2) 14 4 (hn.trans (by simp only [Nat.add_mul, Nat.mul_assoc, Nat.reducePow, Nat.reduceMul, Nat.reduceAdd, Nat.add_assoc, Nat.mul_one, Nat.zero_mul, Nat.zero_add])) (by omega),
   split_gap n (x0 * 17592186044416 + x1 * 17179869184 + x2 * 16777216 + x3 * 16384 + x4 * 256 + x5 * 1) (x6 * 128 + x7 * 4 + x8 * 2) 8 2 (hn.trans (by simp only [Nat.add_mul, Nat.mul_assoc, Nat.reducePow, Nat.reduceMul, Nat.reduceAdd, Nat.add_assoc, Nat.mul_one, Nat.zero_mul, Nat.zero_add])) (by omega),
   split_none n (x0 * 9007199254740992 + x1 * 8796093022208 + x2 * 8589934592 + x3 * 8388608 + x4 * 131072 + x5 * 512 + x6 * 64 + x7 * 2 + x8 * 1) 1 (hn.trans (by simp only [Nat.add_mul, Nat.mul_assoc, Nat.reducePow, Nat.reduceMul, Nat.mul_one]))⟩

/-- The fields of a format A2S word are read back as they were put in, and no reserved bit is set. -/
theorem decA2S_encA2S (op : BitVec 10) (f : FmtA2S) :
    decA2S (encA2S op f) = .ok f ∧ (encA2S op f).extractLsb' 54 10 = op := by
  obtain ⟨n, hn⟩ : ∃ n, n = op.toNat * 18014398509481984 + (encOpd f.dst).toNat * 17592186044416 + (encOpd f.a).toNat * 17179869184 + (encOpd f.b).toNat * 16777216 + f.sel.toNat * 262144 + (encTy f.ty).toNat * 1024 + (encBool f.sat).toNat * 128 + (encMask f.mask).toNat * 4 + (encBool f.gang).toNat * 2 := ⟨_, rfl⟩
  have hw : encA2S op f = BitVec.ofNat 64 n := by rw [hn]; simp only [encA2S, put, Nat.reducePow]
  obtain ⟨e0, e1, e2, e3, e4, e5, e6, e7, e8, g0, g1, g2⟩ := placesA2S n _ _ _ _ _ _ _ _ _ op.isLt (encOpd f.dst).isLt (encOpd f.a).isLt (encOpd f.b).isLt f.sel.isLt (encTy f.ty).isLt (encBool f.sat).isLt (encMask f.mask).isLt (encBool f.gang).isLt hn
  rw [hw]
  replace e0 := field_of n 54 10 _ (by omega) e0
  replace e1 := field_of n 44 10 _ (by omega) e1
  replace e2 := field_of n 34 10 _ (by omega) e2
  replace e3 := field_of n 24 10 _ (by omega) e3
  replace e4 := field_of n 18 6 _ (by omega) e4
  replace e5 := field_of n 10 4 _ (by omega) e5
  replace e6 := bit_of n 7 _ (by omega) e6
  replace e7 := field_of n 2 5 _ (by omega) e7
  replace e8 := bit_of n 1 _ (by omega) e8
  replace g0 := and_place n 14 4 (by omega) g0
  replace g1 := and_place n 8 2 (by omega) g1
  replace g2 := and_place n 0 1 (by omega) g2
  have r := and_two _ _ _ g0 (and_two _ _ _ g1 g2)
  rw [show place 14 4 ||| (place 8 2 ||| place 0 1) = (0x000000000003C301 : BitVec 64) by decide] at r
  refine ⟨?_, e0⟩
  generalize BitVec.ofNat 64 _ = w at *
  simp only [decA2S, r, e1, e2, e3, e4, e5, e6, e7, e8, decMask_encMask, decOpd_encOpd, decTy_encTy, bne_self_eq_false, Bool.false_eq_true, if_false]

/-- The places of a format A3S word. -/
theorem placesA3S (n x0 x1 x2 x3 x4 x5 x6 x7 x8 : Nat) (b0 : x0 < 2 ^ 10) (b1 : x1 < 2 ^ 10) (b2 : x2 < 2 ^ 10) (b3 : x3 < 2 ^ 10) (b4 : x4 < 2 ^ 10) (b5 : x5 < 2 ^ 4) (b6 : x6 < 2 ^ 4) (b7 : x7 < 2 ^ 5) (b8 : x8 < 2 ^ 1)
    (hn : n = x0 * 18014398509481984 + x1 * 17592186044416 + x2 * 17179869184 + x3 * 16777216 + x4 * 16384 + x5 * 1024 + x6 * 64 + x7 * 2 + x8 * 1) :
    n / 2 ^ 54 % 2 ^ 10 = x0 ∧ n / 2 ^ 44 % 2 ^ 10 = x1 ∧ n / 2 ^ 34 % 2 ^ 10 = x2 ∧ n / 2 ^ 24 % 2 ^ 10 = x3 ∧ n / 2 ^ 14 % 2 ^ 10 = x4 ∧ n / 2 ^ 10 % 2 ^ 4 = x5 ∧ n / 2 ^ 6 % 2 ^ 4 = x6 ∧ n / 2 ^ 1 % 2 ^ 5 = x7 ∧ n / 2 ^ 0 % 2 ^ 1 = x8 :=
  ⟨split_at n (0) x0 (x1 * 17592186044416 + x2 * 17179869184 + x3 * 16777216 + x4 * 16384 + x5 * 1024 + x6 * 64 + x7 * 2 + x8 * 1) 54 10 (hn.trans (by simp only [Nat.add_mul, Nat.mul_assoc, Nat.reducePow, Nat.reduceMul, Nat.reduceAdd, Nat.add_assoc, Nat.mul_one, Nat.zero_mul, Nat.zero_add])) b0 (by omega),
   split_at n (x0 * 1) x1 (x2 * 17179869184 + x3 * 16777216 + x4 * 16384 + x5 * 1024 + x6 * 64 + x7 * 2 + x8 * 1) 44 10 (hn.trans (by simp only [Nat.add_mul, Nat.mul_assoc, Nat.reducePow, Nat.reduceMul, Nat.reduceAdd, Nat.add_assoc, Nat.mul_one, Nat.zero_mul, Nat.zero_add])) b1 (by omega),
   split_at n (x0 * 1024 + x1 * 1) x2 (x3 * 16777216 + x4 * 16384 + x5 * 1024 + x6 * 64 + x7 * 2 + x8 * 1) 34 10 (hn.trans (by simp only [Nat.add_mul, Nat.mul_assoc, Nat.reducePow, Nat.reduceMul, Nat.reduceAdd, Nat.add_assoc, Nat.mul_one, Nat.zero_mul, Nat.zero_add])) b2 (by omega),
   split_at n (x0 * 1048576 + x1 * 1024 + x2 * 1) x3 (x4 * 16384 + x5 * 1024 + x6 * 64 + x7 * 2 + x8 * 1) 24 10 (hn.trans (by simp only [Nat.add_mul, Nat.mul_assoc, Nat.reducePow, Nat.reduceMul, Nat.reduceAdd, Nat.add_assoc, Nat.mul_one, Nat.zero_mul, Nat.zero_add])) b3 (by omega),
   split_at n (x0 * 1073741824 + x1 * 1048576 + x2 * 1024 + x3 * 1) x4 (x5 * 1024 + x6 * 64 + x7 * 2 + x8 * 1) 14 10 (hn.trans (by simp only [Nat.add_mul, Nat.mul_assoc, Nat.reducePow, Nat.reduceMul, Nat.reduceAdd, Nat.add_assoc, Nat.mul_one, Nat.zero_mul, Nat.zero_add])) b4 (by omega),
   split_at n (x0 * 1099511627776 + x1 * 1073741824 + x2 * 1048576 + x3 * 1024 + x4 * 1) x5 (x6 * 64 + x7 * 2 + x8 * 1) 10 4 (hn.trans (by simp only [Nat.add_mul, Nat.mul_assoc, Nat.reducePow, Nat.reduceMul, Nat.reduceAdd, Nat.add_assoc, Nat.mul_one, Nat.zero_mul, Nat.zero_add])) b5 (by omega),
   split_at n (x0 * 17592186044416 + x1 * 17179869184 + x2 * 16777216 + x3 * 16384 + x4 * 16 + x5 * 1) x6 (x7 * 2 + x8 * 1) 6 4 (hn.trans (by simp only [Nat.add_mul, Nat.mul_assoc, Nat.reducePow, Nat.reduceMul, Nat.reduceAdd, Nat.add_assoc, Nat.mul_one, Nat.zero_mul, Nat.zero_add])) b6 (by omega),
   split_at n (x0 * 281474976710656 + x1 * 274877906944 + x2 * 268435456 + x3 * 262144 + x4 * 256 + x5 * 16 + x6 * 1) x7 (x8 * 1) 1 5 (hn.trans (by simp only [Nat.add_mul, Nat.mul_assoc, Nat.reducePow, Nat.reduceMul, Nat.reduceAdd, Nat.add_assoc, Nat.mul_one, Nat.zero_mul, Nat.zero_add])) b7 (by omega),
   split_low n (x0 * 9007199254740992 + x1 * 8796093022208 + x2 * 8589934592 + x3 * 8388608 + x4 * 8192 + x5 * 512 + x6 * 32 + x7 * 1) x8 1 (hn.trans (by simp only [Nat.add_mul, Nat.mul_assoc, Nat.reducePow, Nat.reduceMul, Nat.mul_one])) b8⟩

/-- The fields of a format A3S word are read back as they were put in, and no reserved bit is set. -/
theorem decA3S_encA3S (op : BitVec 10) (f : FmtA3S) :
    decA3S (encA3S op f) = .ok f ∧ (encA3S op f).extractLsb' 54 10 = op := by
  obtain ⟨n, hn⟩ : ∃ n, n = op.toNat * 18014398509481984 + (encOpd f.dst).toNat * 17592186044416 + (encOpd f.a).toNat * 17179869184 + (encOpd f.b).toNat * 16777216 + (encOpd f.c).toNat * 16384 + (encTy f.ty).toNat * 1024 + f.sel.toNat * 64 + (encMask f.mask).toNat * 2 + (encBool f.gang).toNat * 1 := ⟨_, rfl⟩
  have hw : encA3S op f = BitVec.ofNat 64 n := by rw [hn]; simp only [encA3S, put, Nat.reducePow]
  obtain ⟨e0, e1, e2, e3, e4, e5, e6, e7, e8⟩ := placesA3S n _ _ _ _ _ _ _ _ _ op.isLt (encOpd f.dst).isLt (encOpd f.a).isLt (encOpd f.b).isLt (encOpd f.c).isLt (encTy f.ty).isLt f.sel.isLt (encMask f.mask).isLt (encBool f.gang).isLt hn
  rw [hw]
  replace e0 := field_of n 54 10 _ (by omega) e0
  replace e1 := field_of n 44 10 _ (by omega) e1
  replace e2 := field_of n 34 10 _ (by omega) e2
  replace e3 := field_of n 24 10 _ (by omega) e3
  replace e4 := field_of n 14 10 _ (by omega) e4
  replace e5 := field_of n 10 4 _ (by omega) e5
  replace e6 := field_of n 6 4 _ (by omega) e6
  replace e7 := field_of n 1 5 _ (by omega) e7
  replace e8 := bit_of n 0 _ (by omega) e8
  refine ⟨?_, e0⟩
  generalize BitVec.ofNat 64 _ = w at *
  simp only [decA3S, e1, e2, e3, e4, e5, e6, e7, e8, decMask_encMask, decOpd_encOpd, decTy_encTy]

/-- The places of a format CV word. -/
theorem placesCV (n x0 x1 x2 x3 x4 x5 x6 x7 x8 x9 : Nat) (b0 : x0 < 2 ^ 10) (b1 : x1 < 2 ^ 10) (b2 : x2 < 2 ^ 10) (b3 : x3 < 2 ^ 10) (b4 : x4 < 2 ^ 5) (b5 : x5 < 2 ^ 5) (b6 : x6 < 2 ^ 2) (b7 : x7 < 2 ^ 1) (b8 : x8 < 2 ^ 5) (b9 : x9 < 2 ^ 1)
    (hn : n = x0 * 18014398509481984 + x1 * 17592186044416 + x2 * 17179869184 + x3 * 16777216 + x4 * 524288 + x5 * 16384 + x6 * 256 + x7 * 128 + x8 * 4 + x9 * 2) :
    n / 2 ^ 54 % 2 ^ 10 = x0 ∧ n / 2 ^ 44 % 2 ^ 10 = x1 ∧ n / 2 ^ 34 % 2 ^ 10 = x2 ∧ n / 2 ^ 24 % 2 ^ 10 = x3 ∧ n / 2 ^ 19 % 2 ^ 5 = x4 ∧ n / 2 ^ 14 % 2 ^ 5 = x5 ∧ n / 2 ^ 8 % 2 ^ 2 = x6 ∧ n / 2 ^ 7 % 2 ^ 1 = x7 ∧ n / 2 ^ 2 % 2 ^ 5 = x8 ∧ n / 2 ^ 1 % 2 ^ 1 = x9 ∧ n / 2 ^ 10 % 2 ^ 4 = 0 ∧ n / 2 ^ 0 % 2 ^ 1 = 0 :=
  ⟨split_at n (0) x0 (x1 * 17592186044416 + x2 * 17179869184 + x3 * 16777216 + x4 * 524288 + x5 * 16384 + x6 * 256 + x7 * 128 + x8 * 4 + x9 * 2) 54 10 (hn.trans (by simp only [Nat.add_mul, Nat.mul_assoc, Nat.reducePow, Nat.reduceMul, Nat.reduceAdd, Nat.add_assoc, Nat.mul_one, Nat.zero_mul, Nat.zero_add])) b0 (by omega),
   split_at n (x0 * 1) x1 (x2 * 17179869184 + x3 * 16777216 + x4 * 524288 + x5 * 16384 + x6 * 256 + x7 * 128 + x8 * 4 + x9 * 2) 44 10 (hn.trans (by simp only [Nat.add_mul, Nat.mul_assoc, Nat.reducePow, Nat.reduceMul, Nat.reduceAdd, Nat.add_assoc, Nat.mul_one, Nat.zero_mul, Nat.zero_add])) b1 (by omega),
   split_at n (x0 * 1024 + x1 * 1) x2 (x3 * 16777216 + x4 * 524288 + x5 * 16384 + x6 * 256 + x7 * 128 + x8 * 4 + x9 * 2) 34 10 (hn.trans (by simp only [Nat.add_mul, Nat.mul_assoc, Nat.reducePow, Nat.reduceMul, Nat.reduceAdd, Nat.add_assoc, Nat.mul_one, Nat.zero_mul, Nat.zero_add])) b2 (by omega),
   split_at n (x0 * 1048576 + x1 * 1024 + x2 * 1) x3 (x4 * 524288 + x5 * 16384 + x6 * 256 + x7 * 128 + x8 * 4 + x9 * 2) 24 10 (hn.trans (by simp only [Nat.add_mul, Nat.mul_assoc, Nat.reducePow, Nat.reduceMul, Nat.reduceAdd, Nat.add_assoc, Nat.mul_one, Nat.zero_mul, Nat.zero_add])) b3 (by omega),
   split_at n (x0 * 1073741824 + x1 * 1048576 + x2 * 1024 + x3 * 1) x4 (x5 * 16384 + x6 * 256 + x7 * 128 + x8 * 4 + x9 * 2) 19 5 (hn.trans (by simp only [Nat.add_mul, Nat.mul_assoc, Nat.reducePow, Nat.reduceMul, Nat.reduceAdd, Nat.add_assoc, Nat.mul_one, Nat.zero_mul, Nat.zero_add])) b4 (by omega),
   split_at n (x0 * 34359738368 + x1 * 33554432 + x2 * 32768 + x3 * 32 + x4 * 1) x5 (x6 * 256 + x7 * 128 + x8 * 4 + x9 * 2) 14 5 (hn.trans (by simp only [Nat.add_mul, Nat.mul_assoc, Nat.reducePow, Nat.reduceMul, Nat.reduceAdd, Nat.add_assoc, Nat.mul_one, Nat.zero_mul, Nat.zero_add])) b5 (by omega),
   split_at n (x0 * 17592186044416 + x1 * 17179869184 + x2 * 16777216 + x3 * 16384 + x4 * 512 + x5 * 16) x6 (x7 * 128 + x8 * 4 + x9 * 2) 8 2 (hn.trans (by simp only [Nat.add_mul, Nat.mul_assoc, Nat.reducePow, Nat.reduceMul, Nat.reduceAdd, Nat.add_assoc, Nat.mul_one, Nat.zero_mul, Nat.zero_add])) b6 (by omega),
   split_at n (x0 * 70368744177664 + x1 * 68719476736 + x2 * 67108864 + x3 * 65536 + x4 * 2048 + x5 * 64 + x6 * 1) x7 (x8 * 4 + x9 * 2) 7 1 (hn.trans (by simp only [Nat.add_mul, Nat.mul_assoc, Nat.reducePow, Nat.reduceMul, Nat.reduceAdd, Nat.add_assoc, Nat.mul_one, Nat.zero_mul, Nat.zero_add])) b7 (by omega),
   split_at n (x0 * 140737488355328 + x1 * 137438953472 + x2 * 134217728 + x3 * 131072 + x4 * 4096 + x5 * 128 + x6 * 2 + x7 * 1) x8 (x9 * 2) 2 5 (hn.trans (by simp only [Nat.add_mul, Nat.mul_assoc, Nat.reducePow, Nat.reduceMul, Nat.reduceAdd, Nat.add_assoc, Nat.mul_one, Nat.zero_mul, Nat.zero_add])) b8 (by omega),
   split_last n (x0 * 4503599627370496 + x1 * 4398046511104 + x2 * 4294967296 + x3 * 4194304 + x4 * 131072 + x5 * 4096 + x6 * 64 + x7 * 32 + x8 * 1) x9 1 1 (hn.trans (by simp only [Nat.add_mul, Nat.mul_assoc, Nat.reducePow, Nat.reduceMul, Nat.reduceAdd, Nat.add_assoc, Nat.mul_one, Nat.zero_mul, Nat.zero_add])) b9,
   split_gap n (x0 * 1099511627776 + x1 * 1073741824 + x2 * 1048576 + x3 * 1024 + x4 * 32 + x5 * 1) (x6 * 256 + x7 * 128 + x8 * 4 + x9 * 2) 10 4 (hn.trans (by simp only [Nat.add_mul, Nat.mul_assoc, Nat.reducePow, Nat.reduceMul, Nat.reduceAdd, Nat.add_assoc, Nat.mul_one, Nat.zero_mul, Nat.zero_add])) (by omega),
   split_none n (x0 * 9007199254740992 + x1 * 8796093022208 + x2 * 8589934592 + x3 * 8388608 + x4 * 262144 + x5 * 8192 + x6 * 128 + x7 * 64 + x8 * 2 + x9 * 1) 1 (hn.trans (by simp only [Nat.add_mul, Nat.mul_assoc, Nat.reducePow, Nat.reduceMul, Nat.mul_one]))⟩

/-- The fields of a format CV word are read back as they were put in, and no reserved bit is set. -/
theorem decCV_encCV (op : BitVec 10) (f : FmtCV) :
    decCV (encCV op f) = .ok f ∧ (encCV op f).extractLsb' 54 10 = op := by
  obtain ⟨n, hn⟩ : ∃ n, n = op.toNat * 18014398509481984 + (encOpd f.dst).toNat * 17592186044416 + (encOpd f.a).toNat * 17179869184 + (encOpd f.b).toNat * 16777216 + (encCTy f.dty).toNat * 524288 + (encCTy f.sty).toNat * 16384 + (encRnd f.rnd).toNat * 256 + (encBool f.sat).toNat * 128 + (encMask f.mask).toNat * 4 + (encBool f.gang).toNat * 2 := ⟨_, rfl⟩
  have hw : encCV op f = BitVec.ofNat 64 n := by rw [hn]; simp only [encCV, put, Nat.reducePow]
  obtain ⟨e0, e1, e2, e3, e4, e5, e6, e7, e8, e9, g0, g1⟩ := placesCV n _ _ _ _ _ _ _ _ _ _ op.isLt (encOpd f.dst).isLt (encOpd f.a).isLt (encOpd f.b).isLt (encCTy f.dty).isLt (encCTy f.sty).isLt (encRnd f.rnd).isLt (encBool f.sat).isLt (encMask f.mask).isLt (encBool f.gang).isLt hn
  rw [hw]
  replace e0 := field_of n 54 10 _ (by omega) e0
  replace e1 := field_of n 44 10 _ (by omega) e1
  replace e2 := field_of n 34 10 _ (by omega) e2
  replace e3 := field_of n 24 10 _ (by omega) e3
  replace e4 := field_of n 19 5 _ (by omega) e4
  replace e5 := field_of n 14 5 _ (by omega) e5
  replace e6 := field_of n 8 2 _ (by omega) e6
  replace e7 := bit_of n 7 _ (by omega) e7
  replace e8 := field_of n 2 5 _ (by omega) e8
  replace e9 := bit_of n 1 _ (by omega) e9
  replace g0 := and_place n 10 4 (by omega) g0
  replace g1 := and_place n 0 1 (by omega) g1
  have r := and_two _ _ _ g0 g1
  rw [show place 10 4 ||| place 0 1 = (0x0000000000003C01 : BitVec 64) by decide] at r
  refine ⟨?_, e0⟩
  generalize BitVec.ofNat 64 _ = w at *
  simp only [decCV, r, e1, e2, e3, e4, e5, e6, e7, e8, e9, decCTy_encCTy, decMask_encMask, decOpd_encOpd, decRnd_encRnd, bne_self_eq_false, Bool.false_eq_true, if_false]

/-- The places of a format S word. -/
theorem placesS (n x0 x1 x2 x3 x4 x5 x6 : Nat) (b0 : x0 < 2 ^ 10) (b1 : x1 < 2 ^ 10) (b2 : x2 < 2 ^ 10) (b3 : x3 < 2 ^ 10) (b4 : x4 < 2 ^ 10) (b5 : x5 < 2 ^ 4) (b6 : x6 < 2 ^ 6)
    (hn : n = x0 * 18014398509481984 + x1 * 17592186044416 + x2 * 17179869184 + x3 * 16777216 + x4 * 16384 + x5 * 1024 + x6 * 16) :
    n / 2 ^ 54 % 2 ^ 10 = x0 ∧ n / 2 ^ 44 % 2 ^ 10 = x1 ∧ n / 2 ^ 34 % 2 ^ 10 = x2 ∧ n / 2 ^ 24 % 2 ^ 10 = x3 ∧ n / 2 ^ 14 % 2 ^ 10 = x4 ∧ n / 2 ^ 10 % 2 ^ 4 = x5 ∧ n / 2 ^ 4 % 2 ^ 6 = x6 ∧ n / 2 ^ 0 % 2 ^ 4 = 0 :=
  ⟨split_at n (0) x0 (x1 * 17592186044416 + x2 * 17179869184 + x3 * 16777216 + x4 * 16384 + x5 * 1024 + x6 * 16) 54 10 (hn.trans (by simp only [Nat.add_mul, Nat.mul_assoc, Nat.reducePow, Nat.reduceMul, Nat.reduceAdd, Nat.add_assoc, Nat.mul_one, Nat.zero_mul, Nat.zero_add])) b0 (by omega),
   split_at n (x0 * 1) x1 (x2 * 17179869184 + x3 * 16777216 + x4 * 16384 + x5 * 1024 + x6 * 16) 44 10 (hn.trans (by simp only [Nat.add_mul, Nat.mul_assoc, Nat.reducePow, Nat.reduceMul, Nat.reduceAdd, Nat.add_assoc, Nat.mul_one, Nat.zero_mul, Nat.zero_add])) b1 (by omega),
   split_at n (x0 * 1024 + x1 * 1) x2 (x3 * 16777216 + x4 * 16384 + x5 * 1024 + x6 * 16) 34 10 (hn.trans (by simp only [Nat.add_mul, Nat.mul_assoc, Nat.reducePow, Nat.reduceMul, Nat.reduceAdd, Nat.add_assoc, Nat.mul_one, Nat.zero_mul, Nat.zero_add])) b2 (by omega),
   split_at n (x0 * 1048576 + x1 * 1024 + x2 * 1) x3 (x4 * 16384 + x5 * 1024 + x6 * 16) 24 10 (hn.trans (by simp only [Nat.add_mul, Nat.mul_assoc, Nat.reducePow, Nat.reduceMul, Nat.reduceAdd, Nat.add_assoc, Nat.mul_one, Nat.zero_mul, Nat.zero_add])) b3 (by omega),
   split_at n (x0 * 1073741824 + x1 * 1048576 + x2 * 1024 + x3 * 1) x4 (x5 * 1024 + x6 * 16) 14 10 (hn.trans (by simp only [Nat.add_mul, Nat.mul_assoc, Nat.reducePow, Nat.reduceMul, Nat.reduceAdd, Nat.add_assoc, Nat.mul_one, Nat.zero_mul, Nat.zero_add])) b4 (by omega),
   split_at n (x0 * 1099511627776 + x1 * 1073741824 + x2 * 1048576 + x3 * 1024 + x4 * 1) x5 (x6 * 16) 10 4 (hn.trans (by simp only [Nat.add_mul, Nat.mul_assoc, Nat.reducePow, Nat.reduceMul, Nat.reduceAdd, Nat.add_assoc, Nat.mul_one, Nat.zero_mul, Nat.zero_add])) b5 (by omega),
   split_last n (x0 * 17592186044416 + x1 * 17179869184 + x2 * 16777216 + x3 * 16384 + x4 * 16 + x5 * 1) x6 4 6 (hn.trans (by simp only [Nat.add_mul, Nat.mul_assoc, Nat.reducePow, Nat.reduceMul, Nat.reduceAdd, Nat.add_assoc, Nat.mul_one, Nat.zero_mul, Nat.zero_add])) b6,
   split_none n (x0 * 1125899906842624 + x1 * 1099511627776 + x2 * 1073741824 + x3 * 1048576 + x4 * 1024 + x5 * 64 + x6 * 1) 4 (hn.trans (by simp only [Nat.add_mul, Nat.mul_assoc, Nat.reducePow, Nat.reduceMul, Nat.mul_one]))⟩

/-- The fields of a format S word are read back as they were put in, and no reserved bit is set. -/
theorem decS_encS (op : BitVec 10) (f : FmtS) :
    decS (encS op f) = .ok f ∧ (encS op f).extractLsb' 54 10 = op := by
  obtain ⟨n, hn⟩ : ∃ n, n = op.toNat * 18014398509481984 + (encOpd f.dst).toNat * 17592186044416 + (encOpd f.a).toNat * 17179869184 + (encOpd f.b).toNat * 16777216 + (encOpd f.c).toNat * 16384 + (encTy f.ty).toNat * 1024 + f.sel.toNat * 16 := ⟨_, rfl⟩
  have hw : encS op f = BitVec.ofNat 64 n := by rw [hn]; simp only [encS, put, Nat.reducePow]
  obtain ⟨e0, e1, e2, e3, e4, e5, e6, g0⟩ := placesS n _ _ _ _ _ _ _ op.isLt (encOpd f.dst).isLt (encOpd f.a).isLt (encOpd f.b).isLt (encOpd f.c).isLt (encTy f.ty).isLt f.sel.isLt hn
  rw [hw]
  replace e0 := field_of n 54 10 _ (by omega) e0
  replace e1 := field_of n 44 10 _ (by omega) e1
  replace e2 := field_of n 34 10 _ (by omega) e2
  replace e3 := field_of n 24 10 _ (by omega) e3
  replace e4 := field_of n 14 10 _ (by omega) e4
  replace e5 := field_of n 10 4 _ (by omega) e5
  replace e6 := field_of n 4 6 _ (by omega) e6
  replace g0 := and_place n 0 4 (by omega) g0
  have r := g0
  rw [show place 0 4 = (0x000000000000000F : BitVec 64) by decide] at r
  refine ⟨?_, e0⟩
  generalize BitVec.ofNat 64 _ = w at *
  simp only [decS, r, e1, e2, e3, e4, e5, e6, decOpd_encOpd, decTy_encTy, bne_self_eq_false, Bool.false_eq_true, if_false]

/-- The places of a format I word. -/
theorem placesI (n x0 x1 x2 x3 x4 x5 : Nat) (b0 : x0 < 2 ^ 10) (b1 : x1 < 2 ^ 10) (b2 : x2 < 2 ^ 5) (b3 : x3 < 2 ^ 1) (b4 : x4 < 2 ^ 4) (b5 : x5 < 2 ^ 32)
    (hn : n = x0 * 18014398509481984 + x1 * 17592186044416 + x2 * 549755813888 + x3 * 274877906944 + x4 * 4294967296 + x5 * 1) :
    n / 2 ^ 54 % 2 ^ 10 = x0 ∧ n / 2 ^ 44 % 2 ^ 10 = x1 ∧ n / 2 ^ 39 % 2 ^ 5 = x2 ∧ n / 2 ^ 38 % 2 ^ 1 = x3 ∧ n / 2 ^ 32 % 2 ^ 4 = x4 ∧ n / 2 ^ 0 % 2 ^ 32 = x5 ∧ n / 2 ^ 36 % 2 ^ 2 = 0 :=
  ⟨split_at n (0) x0 (x1 * 17592186044416 + x2 * 549755813888 + x3 * 274877906944 + x4 * 4294967296 + x5 * 1) 54 10 (hn.trans (by simp only [Nat.add_mul, Nat.mul_assoc, Nat.reducePow, Nat.reduceMul, Nat.reduceAdd, Nat.add_assoc, Nat.mul_one, Nat.zero_mul, Nat.zero_add])) b0 (by omega),
   split_at n (x0 * 1) x1 (x2 * 549755813888 + x3 * 274877906944 + x4 * 4294967296 + x5 * 1) 44 10 (hn.trans (by simp only [Nat.add_mul, Nat.mul_assoc, Nat.reducePow, Nat.reduceMul, Nat.reduceAdd, Nat.add_assoc, Nat.mul_one, Nat.zero_mul, Nat.zero_add])) b1 (by omega),
   split_at n (x0 * 1024 + x1 * 1) x2 (x3 * 274877906944 + x4 * 4294967296 + x5 * 1) 39 5 (hn.trans (by simp only [Nat.add_mul, Nat.mul_assoc, Nat.reducePow, Nat.reduceMul, Nat.reduceAdd, Nat.add_assoc, Nat.mul_one, Nat.zero_mul, Nat.zero_add])) b2 (by omega),
   split_at n (x0 * 32768 + x1 * 32 + x2 * 1) x3 (x4 * 4294967296 + x5 * 1) 38 1 (hn.trans (by simp only [Nat.add_mul, Nat.mul_assoc, Nat.reducePow, Nat.reduceMul, Nat.reduceAdd, Nat.add_assoc, Nat.mul_one, Nat.zero_mul, Nat.zero_add])) b3 (by omega),
   split_at n (x0 * 262144 + x1 * 256 + x2 * 8 + x3 * 4) x4 (x5 * 1) 32 4 (hn.trans (by simp only [Nat.add_mul, Nat.mul_assoc, Nat.reducePow, Nat.reduceMul, Nat.reduceAdd, Nat.add_assoc, Nat.mul_one, Nat.zero_mul, Nat.zero_add])) b4 (by omega),
   split_low n (x0 * 4194304 + x1 * 4096 + x2 * 128 + x3 * 64 + x4 * 1) x5 32 (hn.trans (by simp only [Nat.add_mul, Nat.mul_assoc, Nat.reducePow, Nat.reduceMul, Nat.mul_one])) b5,
   split_gap n (x0 * 65536 + x1 * 64 + x2 * 2 + x3 * 1) (x4 * 4294967296 + x5 * 1) 36 2 (hn.trans (by simp only [Nat.add_mul, Nat.mul_assoc, Nat.reducePow, Nat.reduceMul, Nat.reduceAdd, Nat.add_assoc, Nat.mul_one, Nat.zero_mul, Nat.zero_add])) (by omega)⟩

/-- The fields of a format I word are read back as they were put in, and no reserved bit is set. -/
theorem decI_encI (op : BitVec 10) (f : FmtI) :
    decI (encI op f) = .ok f ∧ (encI op f).extractLsb' 54 10 = op := by
  obtain ⟨n, hn⟩ : ∃ n, n = op.toNat * 18014398509481984 + (encOpd f.dst).toNat * 17592186044416 + (encMask f.mask).toNat * 549755813888 + (encBool f.gang).toNat * 274877906944 + (encTy f.ty).toNat * 4294967296 + f.imm.toNat * 1 := ⟨_, rfl⟩
  have hw : encI op f = BitVec.ofNat 64 n := by rw [hn]; simp only [encI, put, Nat.reducePow]
  obtain ⟨e0, e1, e2, e3, e4, e5, g0⟩ := placesI n _ _ _ _ _ _ op.isLt (encOpd f.dst).isLt (encMask f.mask).isLt (encBool f.gang).isLt (encTy f.ty).isLt f.imm.isLt hn
  rw [hw]
  replace e0 := field_of n 54 10 _ (by omega) e0
  replace e1 := field_of n 44 10 _ (by omega) e1
  replace e2 := field_of n 39 5 _ (by omega) e2
  replace e3 := bit_of n 38 _ (by omega) e3
  replace e4 := field_of n 32 4 _ (by omega) e4
  replace e5 := field_of n 0 32 _ (by omega) e5
  replace g0 := and_place n 36 2 (by omega) g0
  have r := g0
  rw [show place 36 2 = (0x0000003000000000 : BitVec 64) by decide] at r
  refine ⟨?_, e0⟩
  generalize BitVec.ofNat 64 _ = w at *
  simp only [decI, r, e1, e2, e3, e4, e5, decMask_encMask, decOpd_encOpd, decTy_encTy, bne_self_eq_false, Bool.false_eq_true, if_false]

/-- The places of a format B word. -/
theorem placesB (n x0 x1 x2 x3 x4 : Nat) (b0 : x0 < 2 ^ 10) (b1 : x1 < 2 ^ 10) (b2 : x2 < 2 ^ 5) (b3 : x3 < 2 ^ 3) (b4 : x4 < 2 ^ 24)
    (hn : n = x0 * 18014398509481984 + x1 * 17179869184 + x2 * 536870912 + x3 * 67108864 + x4 * 1) :
    n / 2 ^ 54 % 2 ^ 10 = x0 ∧ n / 2 ^ 34 % 2 ^ 10 = x1 ∧ n / 2 ^ 29 % 2 ^ 5 = x2 ∧ n / 2 ^ 26 % 2 ^ 3 = x3 ∧ n / 2 ^ 0 % 2 ^ 24 = x4 ∧ n / 2 ^ 44 % 2 ^ 10 = 0 ∧ n / 2 ^ 24 % 2 ^ 2 = 0 :=
  ⟨split_at n (0) x0 (x1 * 17179869184 + x2 * 536870912 + x3 * 67108864 + x4 * 1) 54 10 (hn.trans (by simp only [Nat.add_mul, Nat.mul_assoc, Nat.reducePow, Nat.reduceMul, Nat.reduceAdd, Nat.add_assoc, Nat.mul_one, Nat.zero_mul, Nat.zero_add])) b0 (by omega),
   split_at n (x0 * 1024) x1 (x2 * 536870912 + x3 * 67108864 + x4 * 1) 34 10 (hn.trans (by simp only [Nat.add_mul, Nat.mul_assoc, Nat.reducePow, Nat.reduceMul, Nat.reduceAdd, Nat.add_assoc, Nat.mul_one, Nat.zero_mul, Nat.zero_add])) b1 (by omega),
   split_at n (x0 * 1048576 + x1 * 1) x2 (x3 * 67108864 + x4 * 1) 29 5 (hn.trans (by simp only [Nat.add_mul, Nat.mul_assoc, Nat.reducePow, Nat.reduceMul, Nat.reduceAdd, Nat.add_assoc, Nat.mul_one, Nat.zero_mul, Nat.zero_add])) b2 (by omega),
   split_at n (x0 * 33554432 + x1 * 32 + x2 * 1) x3 (x4 * 1) 26 3 (hn.trans (by simp only [Nat.add_mul, Nat.mul_assoc, Nat.reducePow, Nat.reduceMul, Nat.reduceAdd, Nat.add_assoc, Nat.mul_one, Nat.zero_mul, Nat.zero_add])) b3 (by omega),
   split_low n (x0 * 1073741824 + x1 * 1024 + x2 * 32 + x3 * 4) x4 24 (hn.trans (by simp only [Nat.add_mul, Nat.mul_assoc, Nat.reducePow, Nat.reduceMul, Nat.mul_one])) b4,
   split_gap n (x0 * 1) (x1 * 17179869184 + x2 * 536870912 + x3 * 67108864 + x4 * 1) 44 10 (hn.trans (by simp only [Nat.add_mul, Nat.mul_assoc, Nat.reducePow, Nat.reduceMul, Nat.reduceAdd, Nat.add_assoc, Nat.mul_one, Nat.zero_mul, Nat.zero_add])) (by omega),
   split_gap n (x0 * 268435456 + x1 * 256 + x2 * 8 + x3 * 1) (x4 * 1) 24 2 (hn.trans (by simp only [Nat.add_mul, Nat.mul_assoc, Nat.reducePow, Nat.reduceMul, Nat.reduceAdd, Nat.add_assoc, Nat.mul_one, Nat.zero_mul, Nat.zero_add])) (by omega)⟩

/-- The fields of a format B word are read back as they were put in, and no reserved bit is set. -/
theorem decB_encB (op : BitVec 10) (f : FmtB) :
    decB (encB op f) = .ok f ∧ (encB op f).extractLsb' 54 10 = op := by
  obtain ⟨n, hn⟩ : ∃ n, n = op.toNat * 18014398509481984 + (encOpd f.a).toNat * 17179869184 + (encMask f.mask).toNat * 536870912 + (encCond f.cond).toNat * 67108864 + f.target.toNat * 1 := ⟨_, rfl⟩
  have hw : encB op f = BitVec.ofNat 64 n := by rw [hn]; simp only [encB, put, Nat.reducePow]
  obtain ⟨e0, e1, e2, e3, e4, g0, g1⟩ := placesB n _ _ _ _ _ op.isLt (encOpd f.a).isLt (encMask f.mask).isLt (encCond f.cond).isLt f.target.isLt hn
  rw [hw]
  replace e0 := field_of n 54 10 _ (by omega) e0
  replace e1 := field_of n 34 10 _ (by omega) e1
  replace e2 := field_of n 29 5 _ (by omega) e2
  replace e3 := field_of n 26 3 _ (by omega) e3
  replace e4 := field_of n 0 24 _ (by omega) e4
  replace g0 := and_place n 44 10 (by omega) g0
  replace g1 := and_place n 24 2 (by omega) g1
  have r := and_two _ _ _ g0 g1
  rw [show place 44 10 ||| place 24 2 = (0x003FF00003000000 : BitVec 64) by decide] at r
  refine ⟨?_, e0⟩
  generalize BitVec.ofNat 64 _ = w at *
  simp only [decB, r, e1, e2, e3, e4, decCond_encCond, decMask_encMask, decOpd_encOpd, bne_self_eq_false, Bool.false_eq_true, if_false]

/-- The places of a format BL word. -/
theorem placesBL (n x0 x1 x2 : Nat) (b0 : x0 < 2 ^ 10) (b1 : x1 < 2 ^ 10) (b2 : x2 < 2 ^ 24)
    (hn : n = x0 * 18014398509481984 + x1 * 17592186044416 + x2 * 1) :
    n / 2 ^ 54 % 2 ^ 10 = x0 ∧ n / 2 ^ 44 % 2 ^ 10 = x1 ∧ n / 2 ^ 0 % 2 ^ 24 = x2 ∧ n / 2 ^ 24 % 2 ^ 20 = 0 :=
  ⟨split_at n (0) x0 (x1 * 17592186044416 + x2 * 1) 54 10 (hn.trans (by simp only [Nat.add_mul, Nat.mul_assoc, Nat.reducePow, Nat.reduceMul, Nat.reduceAdd, Nat.add_assoc, Nat.mul_one, Nat.zero_mul, Nat.zero_add])) b0 (by omega),
   split_at n (x0 * 1) x1 (x2 * 1) 44 10 (hn.trans (by simp only [Nat.add_mul, Nat.mul_assoc, Nat.reducePow, Nat.reduceMul, Nat.reduceAdd, Nat.add_assoc, Nat.mul_one, Nat.zero_mul, Nat.zero_add])) b1 (by omega),
   split_low n (x0 * 1073741824 + x1 * 1048576) x2 24 (hn.trans (by simp only [Nat.add_mul, Nat.mul_assoc, Nat.reducePow, Nat.reduceMul, Nat.mul_one])) b2,
   split_gap n (x0 * 1024 + x1 * 1) (x2 * 1) 24 20 (hn.trans (by simp only [Nat.add_mul, Nat.mul_assoc, Nat.reducePow, Nat.reduceMul, Nat.reduceAdd, Nat.add_assoc, Nat.mul_one, Nat.zero_mul, Nat.zero_add])) (by omega)⟩

/-- The fields of a format BL word are read back as they were put in, and no reserved bit is set. -/
theorem decBL_encBL (op : BitVec 10) (f : FmtBL) :
    decBL (encBL op f) = .ok f ∧ (encBL op f).extractLsb' 54 10 = op := by
  obtain ⟨n, hn⟩ : ∃ n, n = op.toNat * 18014398509481984 + (encOpd f.dst).toNat * 17592186044416 + f.target.toNat * 1 := ⟨_, rfl⟩
  have hw : encBL op f = BitVec.ofNat 64 n := by rw [hn]; simp only [encBL, put, Nat.reducePow]
  obtain ⟨e0, e1, e2, g0⟩ := placesBL n _ _ _ op.isLt (encOpd f.dst).isLt f.target.isLt hn
  rw [hw]
  replace e0 := field_of n 54 10 _ (by omega) e0
  replace e1 := field_of n 44 10 _ (by omega) e1
  replace e2 := field_of n 0 24 _ (by omega) e2
  replace g0 := and_place n 24 20 (by omega) g0
  have r := g0
  rw [show place 24 20 = (0x00000FFFFF000000 : BitVec 64) by decide] at r
  refine ⟨?_, e0⟩
  generalize BitVec.ofNat 64 _ = w at *
  simp only [decBL, r, e1, e2, decOpd_encOpd, bne_self_eq_false, Bool.false_eq_true, if_false]

/-- The places of a format K word. -/
theorem placesK (n x0 x1 x2 x3 : Nat) (b0 : x0 < 2 ^ 10) (b1 : x1 < 2 ^ 10) (b2 : x2 < 2 ^ 1) (b3 : x3 < 2 ^ 32)
    (hn : n = x0 * 18014398509481984 + x1 * 17179869184 + x2 * 4294967296 + x3 * 1) :
    n / 2 ^ 54 % 2 ^ 10 = x0 ∧ n / 2 ^ 34 % 2 ^ 10 = x1 ∧ n / 2 ^ 32 % 2 ^ 1 = x2 ∧ n / 2 ^ 0 % 2 ^ 32 = x3 ∧ n / 2 ^ 44 % 2 ^ 10 = 0 ∧ n / 2 ^ 33 % 2 ^ 1 = 0 :=
  ⟨split_at n (0) x0 (x1 * 17179869184 + x2 * 4294967296 + x3 * 1) 54 10 (hn.trans (by simp only [Nat.add_mul, Nat.mul_assoc, Nat.reducePow, Nat.reduceMul, Nat.reduceAdd, Nat.add_assoc, Nat.mul_one, Nat.zero_mul, Nat.zero_add])) b0 (by omega),
   split_at n (x0 * 1024) x1 (x2 * 4294967296 + x3 * 1) 34 10 (hn.trans (by simp only [Nat.add_mul, Nat.mul_assoc, Nat.reducePow, Nat.reduceMul, Nat.reduceAdd, Nat.add_assoc, Nat.mul_one, Nat.zero_mul, Nat.zero_add])) b1 (by omega),
   split_at n (x0 * 2097152 + x1 * 2) x2 (x3 * 1) 32 1 (hn.trans (by simp only [Nat.add_mul, Nat.mul_assoc, Nat.reducePow, Nat.reduceMul, Nat.reduceAdd, Nat.add_assoc, Nat.mul_one, Nat.zero_mul, Nat.zero_add])) b2 (by omega),
   split_low n (x0 * 4194304 + x1 * 4 + x2 * 1) x3 32 (hn.trans (by simp only [Nat.add_mul, Nat.mul_assoc, Nat.reducePow, Nat.reduceMul, Nat.mul_one])) b3,
   split_gap n (x0 * 1) (x1 * 17179869184 + x2 * 4294967296 + x3 * 1) 44 10 (hn.trans (by simp only [Nat.add_mul, Nat.mul_assoc, Nat.reducePow, Nat.reduceMul, Nat.reduceAdd, Nat.add_assoc, Nat.mul_one, Nat.zero_mul, Nat.zero_add])) (by omega),
   split_gap n (x0 * 1048576 + x1 * 1) (x2 * 4294967296 + x3 * 1) 33 1 (hn.trans (by simp only [Nat.add_mul, Nat.mul_assoc, Nat.reducePow, Nat.reduceMul, Nat.reduceAdd, Nat.add_assoc, Nat.mul_one, Nat.zero_mul, Nat.zero_add])) (by omega)⟩

/-- The fields of a format K word are read back as they were put in, and no reserved bit is set. -/
theorem decK_encK (op : BitVec 10) (f : FmtK) :
    decK (encK op f) = .ok f ∧ (encK op f).extractLsb' 54 10 = op := by
  obtain ⟨n, hn⟩ : ∃ n, n = op.toNat * 18014398509481984 + (encOpd f.a).toNat * 17179869184 + (encBool f.gang).toNat * 4294967296 + f.imm.toNat * 1 := ⟨_, rfl⟩
  have hw : encK op f = BitVec.ofNat 64 n := by rw [hn]; simp only [encK, put, Nat.reducePow]
  obtain ⟨e0, e1, e2, e3, g0, g1⟩ := placesK n _ _ _ _ op.isLt (encOpd f.a).isLt (encBool f.gang).isLt f.imm.isLt hn
  rw [hw]
  replace e0 := field_of n 54 10 _ (by omega) e0
  replace e1 := field_of n 34 10 _ (by omega) e1
  replace e2 := bit_of n 32 _ (by omega) e2
  replace e3 := field_of n 0 32 _ (by omega) e3
  replace g0 := and_place n 44 10 (by omega) g0
  replace g1 := and_place n 33 1 (by omega) g1
  have r := and_two _ _ _ g0 g1
  rw [show place 44 10 ||| place 33 1 = (0x003FF00200000000 : BitVec 64) by decide] at r
  refine ⟨?_, e0⟩
  generalize BitVec.ofNat 64 _ = w at *
  simp only [decK, r, e1, e2, e3, decOpd_encOpd, bne_self_eq_false, Bool.false_eq_true, if_false]

/-- The places of a format M word. -/
theorem placesM (n x0 x1 x2 x3 x4 x5 x6 x7 : Nat) (b0 : x0 < 2 ^ 10) (b1 : x1 < 2 ^ 10) (b2 : x2 < 2 ^ 9) (b3 : x3 < 2 ^ 9) (b4 : x4 < 2 ^ 4) (b5 : x5 < 2 ^ 5) (b6 : x6 < 2 ^ 1) (b7 : x7 < 2 ^ 16)
    (hn : n = x0 * 18014398509481984 + x1 * 17592186044416 + x2 * 34359738368 + x3 * 67108864 + x4 * 4194304 + x5 * 131072 + x6 * 65536 + x7 * 1) :
    n / 2 ^ 54 % 2 ^ 10 = x0 ∧ n / 2 ^ 44 % 2 ^ 10 = x1 ∧ n / 2 ^ 35 % 2 ^ 9 = x2 ∧ n / 2 ^ 26 % 2 ^ 9 = x3 ∧ n / 2 ^ 22 % 2 ^ 4 = x4 ∧ n / 2 ^ 17 % 2 ^ 5 = x5 ∧ n / 2 ^ 16 % 2 ^ 1 = x6 ∧ n / 2 ^ 0 % 2 ^ 16 = x7 :=
  ⟨split_at n (0) x0 (x1 * 17592186044416 + x2 * 34359738368 + x3 * 67108864 + x4 * 4194304 + x5 * 131072 + x6 * 65536 + x7 * 1) 54 10 (hn.trans (by simp only [Nat.add_mul, Nat.mul_assoc, Nat.reducePow, Nat.reduceMul, Nat.reduceAdd, Nat.add_assoc, Nat.mul_one, Nat.zero_mul, Nat.zero_add])) b0 (by omega),
   split_at n (x0 * 1) x1 (x2 * 34359738368 + x3 * 67108864 + x4 * 4194304 + x5 * 131072 + x6 * 65536 + x7 * 1) 44 10 (hn.trans (by simp only [Nat.add_mul, Nat.mul_assoc, Nat.reducePow, Nat.reduceMul, Nat.reduceAdd, Nat.add_assoc, Nat.mul_one, Nat.zero_mul, Nat.zero_add])) b1 (by omega),
   split_at n (x0 * 1024 + x1 * 1) x2 (x3 * 67108864 + x4 * 4194304 + x5 * 131072 + x6 * 65536 + x7 * 1) 35 9 (hn.trans (by simp only [Nat.add_mul, Nat.mul_assoc, Nat.reducePow, Nat.reduceMul, Nat.reduceAdd, Nat.add_assoc, Nat.mul_one, Nat.zero_mul, Nat.zero_add])) b2 (by omega),
   split_at n (x0 * 524288 + x1 * 512 + x2 * 1) x3 (x4 * 4194304 + x5 * 131072 + x6 * 65536 + x7 * 1) 26 9 (hn.trans (by simp only [Nat.add_mul, Nat.mul_assoc, Nat.reducePow, Nat.reduceMul, Nat.reduceAdd, Nat.add_assoc, Nat.mul_one, Nat.zero_mul, Nat.zero_add])) b3 (by omega),
   split_at n (x0 * 268435456 + x1 * 262144 + x2 * 512 + x3 * 1) x4 (x5 * 131072 + x6 * 65536 + x7 * 1) 22 4 (hn.trans (by simp only [Nat.add_mul, Nat.mul_assoc, Nat.reducePow, Nat.reduceMul, Nat.reduceAdd, Nat.add_assoc, Nat.mul_one, Nat.zero_mul, Nat.zero_add])) b4 (by omega),
   split_at n (x0 * 4294967296 + x1 * 4194304 + x2 * 8192 + x3 * 16 + x4 * 1) x5 (x6 * 65536 + x7 * 1) 17 5 (hn.trans (by simp only [Nat.add_mul, Nat.mul_assoc, Nat.reducePow, Nat.reduceMul, Nat.reduceAdd, Nat.add_assoc, Nat.mul_one, Nat.zero_mul, Nat.zero_add])) b5 (by omega),
   split_at n (x0 * 137438953472 + x1 * 134217728 + x2 * 262144 + x3 * 512 + x4 * 32 + x5 * 1) x6 (x7 * 1) 16 1 (hn.trans (by simp only [Nat.add_mul, Nat.mul_assoc, Nat.reducePow, Nat.reduceMul, Nat.reduceAdd, Nat.add_assoc, Nat.mul_one, Nat.zero_mul, Nat.zero_add])) b6 (by omega),
   split_low n (x0 * 274877906944 + x1 * 268435456 + x2 * 524288 + x3 * 1024 + x4 * 64 + x5 * 2 + x6 * 1) x7 16 (hn.trans (by simp only [Nat.add_mul, Nat.mul_assoc, Nat.reducePow, Nat.reduceMul, Nat.mul_one])) b7⟩

/-- The fields of a format M word are read back as they were put in, and no reserved bit is set. -/
theorem decM_encM (op : BitVec 10) (f : FmtM) :
    decM (encM op f) = .ok f ∧ (encM op f).extractLsb' 54 10 = op := by
  obtain ⟨n, hn⟩ : ∃ n, n = op.toNat * 18014398509481984 + (encOpd f.dst).toNat * 17592186044416 + f.base.toNat * 34359738368 + (encVoff f.voff).toNat * 67108864 + (encTy f.ty).toNat * 4194304 + (encMask f.mask).toNat * 131072 + (encBool f.gang).toNat * 65536 + f.imm.toNat * 1 := ⟨_, rfl⟩
  have hw : encM op f = BitVec.ofNat 64 n := by rw [hn]; simp only [encM, put, Nat.reducePow]
  obtain ⟨e0, e1, e2, e3, e4, e5, e6, e7⟩ := placesM n _ _ _ _ _ _ _ _ op.isLt (encOpd f.dst).isLt f.base.isLt (encVoff f.voff).isLt (encTy f.ty).isLt (encMask f.mask).isLt (encBool f.gang).isLt f.imm.isLt hn
  rw [hw]
  replace e0 := field_of n 54 10 _ (by omega) e0
  replace e1 := field_of n 44 10 _ (by omega) e1
  replace e2 := field_of n 35 9 _ (by omega) e2
  replace e3 := field_of n 26 9 _ (by omega) e3
  replace e4 := field_of n 22 4 _ (by omega) e4
  replace e5 := field_of n 17 5 _ (by omega) e5
  replace e6 := bit_of n 16 _ (by omega) e6
  replace e7 := field_of n 0 16 _ (by omega) e7
  refine ⟨?_, e0⟩
  generalize BitVec.ofNat 64 _ = w at *
  simp only [decM, e1, e2, e3, e4, e5, e6, e7, decMask_encMask, decOpd_encOpd, decTy_encTy, decVoff_encVoff]

/-- The places of a format MA word. -/
theorem placesMA (n x0 x1 x2 x3 x4 x5 x6 x7 x8 : Nat) (b0 : x0 < 2 ^ 10) (b1 : x1 < 2 ^ 10) (b2 : x2 < 2 ^ 9) (b3 : x3 < 2 ^ 9) (b4 : x4 < 2 ^ 10) (b5 : x5 < 2 ^ 4) (b6 : x6 < 2 ^ 4) (b7 : x7 < 2 ^ 2) (b8 : x8 < 2 ^ 5)
    (hn : n = x0 * 18014398509481984 + x1 * 17592186044416 + x2 * 34359738368 + x3 * 67108864 + x4 * 65536 + x5 * 4096 + x6 * 256 + x7 * 64 + x8 * 2) :
    n / 2 ^ 54 % 2 ^ 10 = x0 ∧ n / 2 ^ 44 % 2 ^ 10 = x1 ∧ n / 2 ^ 35 % 2 ^ 9 = x2 ∧ n / 2 ^ 26 % 2 ^ 9 = x3 ∧ n / 2 ^ 16 % 2 ^ 10 = x4 ∧ n / 2 ^ 12 % 2 ^ 4 = x5 ∧ n / 2 ^ 8 % 2 ^ 4 = x6 ∧ n / 2 ^ 6 % 2 ^ 2 = x7 ∧ n / 2 ^ 1 % 2 ^ 5 = x8 ∧ n / 2 ^ 0 % 2 ^ 1 = 0 :=
  ⟨split_at n (0) x0 (x1 * 17592186044416 + x2 * 34359738368 + x3 * 67108864 + x4 * 65536 + x5 * 4096 + x6 * 256 + x7 * 64 + x8 * 2) 54 10 (hn.trans (by simp only [Nat.add_mul, Nat.mul_assoc, Nat.reducePow, Nat.reduceMul, Nat.reduceAdd, Nat.add_assoc, Nat.mul_one, Nat.zero_mul, Nat.zero_add])) b0 (by omega),
   split_at n (x0 * 1) x1 (x2 * 34359738368 + x3 * 67108864 + x4 * 65536 + x5 * 4096 + x6 * 256 + x7 * 64 + x8 * 2) 44 10 (hn.trans (by simp only [Nat.add_mul, Nat.mul_assoc, Nat.reducePow, Nat.reduceMul, Nat.reduceAdd, Nat.add_assoc, Nat.mul_one, Nat.zero_mul, Nat.zero_add])) b1 (by omega),
   split_at n (x0 * 1024 + x1 * 1) x2 (x3 * 67108864 + x4 * 65536 + x5 * 4096 + x6 * 256 + x7 * 64 + x8 * 2) 35 9 (hn.trans (by simp only [Nat.add_mul, Nat.mul_assoc, Nat.reducePow, Nat.reduceMul, Nat.reduceAdd, Nat.add_assoc, Nat.mul_one, Nat.zero_mul, Nat.zero_add])) b2 (by omega),
   split_at n (x0 * 524288 + x1 * 512 + x2 * 1) x3 (x4 * 65536 + x5 * 4096 + x6 * 256 + x7 * 64 + x8 * 2) 26 9 (hn.trans (by simp only [Nat.add_mul, Nat.mul_assoc, Nat.reducePow, Nat.reduceMul, Nat.reduceAdd, Nat.add_assoc, Nat.mul_one, Nat.zero_mul, Nat.zero_add])) b3 (by omega),
   split_at n (x0 * 268435456 + x1 * 262144 + x2 * 512 + x3 * 1) x4 (x5 * 4096 + x6 * 256 + x7 * 64 + x8 * 2) 16 10 (hn.trans (by simp only [Nat.add_mul, Nat.mul_assoc, Nat.reducePow, Nat.reduceMul, Nat.reduceAdd, Nat.add_assoc, Nat.mul_one, Nat.zero_mul, Nat.zero_add])) b4 (by omega),
   split_at n (x0 * 274877906944 + x1 * 268435456 + x2 * 524288 + x3 * 1024 + x4 * 1) x5 (x6 * 256 + x7 * 64 + x8 * 2) 12 4 (hn.trans (by simp only [Nat.add_mul, Nat.mul_assoc, Nat.reducePow, Nat.reduceMul, Nat.reduceAdd, Nat.add_assoc, Nat.mul_one, Nat.zero_mul, Nat.zero_add])) b5 (by omega),
   split_at n (x0 * 4398046511104 + x1 * 4294967296 + x2 * 8388608 + x3 * 16384 + x4 * 16 + x5 * 1) x6 (x7 * 64 + x8 * 2) 8 4 (hn.trans (by simp only [Nat.add_mul, Nat.mul_assoc, Nat.reducePow, Nat.reduceMul, Nat.reduceAdd, Nat.add_assoc, Nat.mul_one, Nat.zero_mul, Nat.zero_add])) b6 (by omega),
   split_at n (x0 * 70368744177664 + x1 * 68719476736 + x2 * 134217728 + x3 * 262144 + x4 * 256 + x5 * 16 + x6 * 1) x7 (x8 * 2) 6 2 (hn.trans (by simp only [Nat.add_mul, Nat.mul_assoc, Nat.reducePow, Nat.reduceMul, Nat.reduceAdd, Nat.add_assoc, Nat.mul_one, Nat.zero_mul, Nat.zero_add])) b7 (by omega),
   split_last n (x0 * 281474976710656 + x1 * 274877906944 + x2 * 536870912 + x3 * 1048576 + x4 * 1024 + x5 * 64 + x6 * 4 + x7 * 1) x8 1 5 (hn.trans (by simp only [Nat.add_mul, Nat.mul_assoc, Nat.reducePow, Nat.reduceMul, Nat.reduceAdd, Nat.add_assoc, Nat.mul_one, Nat.zero_mul, Nat.zero_add])) b8,
   split_none n (x0 * 9007199254740992 + x1 * 8796093022208 + x2 * 17179869184 + x3 * 33554432 + x4 * 32768 + x5 * 2048 + x6 * 128 + x7 * 32 + x8 * 1) 1 (hn.trans (by simp only [Nat.add_mul, Nat.mul_assoc, Nat.reducePow, Nat.reduceMul, Nat.mul_one]))⟩

/-- The fields of a format MA word are read back as they were put in, and no reserved bit is set. -/
theorem decMA_encMA (op : BitVec 10) (f : FmtMA) :
    decMA (encMA op f) = .ok f ∧ (encMA op f).extractLsb' 54 10 = op := by
  obtain ⟨n, hn⟩ : ∃ n, n = op.toNat * 18014398509481984 + (encOpd f.dst).toNat * 17592186044416 + f.base.toNat * 34359738368 + (encVoff f.voff).toNat * 67108864 + (encOpd f.b).toNat * 65536 + (encTy f.ty).toNat * 4096 + f.sel.toNat * 256 + (encScope f.scope).toNat * 64 + (encMask f.mask).toNat * 2 := ⟨_, rfl⟩
  have hw : encMA op f = BitVec.ofNat 64 n := by rw [hn]; simp only [encMA, put, Nat.reducePow]
  obtain ⟨e0, e1, e2, e3, e4, e5, e6, e7, e8, g0⟩ := placesMA n _ _ _ _ _ _ _ _ _ op.isLt (encOpd f.dst).isLt f.base.isLt (encVoff f.voff).isLt (encOpd f.b).isLt (encTy f.ty).isLt f.sel.isLt (encScope f.scope).isLt (encMask f.mask).isLt hn
  rw [hw]
  replace e0 := field_of n 54 10 _ (by omega) e0
  replace e1 := field_of n 44 10 _ (by omega) e1
  replace e2 := field_of n 35 9 _ (by omega) e2
  replace e3 := field_of n 26 9 _ (by omega) e3
  replace e4 := field_of n 16 10 _ (by omega) e4
  replace e5 := field_of n 12 4 _ (by omega) e5
  replace e6 := field_of n 8 4 _ (by omega) e6
  replace e7 := field_of n 6 2 _ (by omega) e7
  replace e8 := field_of n 1 5 _ (by omega) e8
  replace g0 := and_place n 0 1 (by omega) g0
  have r := g0
  rw [show place 0 1 = (0x0000000000000001 : BitVec 64) by decide] at r
  refine ⟨?_, e0⟩
  generalize BitVec.ofNat 64 _ = w at *
  simp only [decMA, r, e1, e2, e3, e4, e5, e6, e7, e8, decMask_encMask, decOpd_encOpd, decScope_encScope, decTy_encTy, decVoff_encVoff, bne_self_eq_false, Bool.false_eq_true, if_false]

/-- The places of a format Y word. -/
theorem placesY (n x0 x1 x2 x3 x4 x5 : Nat) (b0 : x0 < 2 ^ 10) (b1 : x1 < 2 ^ 10) (b2 : x2 < 2 ^ 10) (b3 : x3 < 2 ^ 10) (b4 : x4 < 2 ^ 6) (b5 : x5 < 2 ^ 3)
    (hn : n = x0 * 18014398509481984 + x1 * 17592186044416 + x2 * 17179869184 + x3 * 16777216 + x4 * 262144 + x5 * 32768) :
    n / 2 ^ 54 % 2 ^ 10 = x0 ∧ n / 2 ^ 44 % 2 ^ 10 = x1 ∧ n / 2 ^ 34 % 2 ^ 10 = x2 ∧ n / 2 ^ 24 % 2 ^ 10 = x3 ∧ n / 2 ^ 18 % 2 ^ 6 = x4 ∧ n / 2 ^ 15 % 2 ^ 3 = x5 ∧ n / 2 ^ 0 % 2 ^ 15 = 0 :=
  ⟨split_at n (0) x0 (x1 * 17592186044416 + x2 * 17179869184 + x3 * 16777216 + x4 * 262144 + x5 * 32768) 54 10 (hn.trans (by simp only [Nat.add_mul, Nat.mul_assoc, Nat.reducePow, Nat.reduceMul, Nat.reduceAdd, Nat.add_assoc, Nat.mul_one, Nat.zero_mul, Nat.zero_add])) b0 (by omega),
   split_at n (x0 * 1) x1 (x2 * 17179869184 + x3 * 16777216 + x4 * 262144 + x5 * 32768) 44 10 (hn.trans (by simp only [Nat.add_mul, Nat.mul_assoc, Nat.reducePow, Nat.reduceMul, Nat.reduceAdd, Nat.add_assoc, Nat.mul_one, Nat.zero_mul, Nat.zero_add])) b1 (by omega),
   split_at n (x0 * 1024 + x1 * 1) x2 (x3 * 16777216 + x4 * 262144 + x5 * 32768) 34 10 (hn.trans (by simp only [Nat.add_mul, Nat.mul_assoc, Nat.reducePow, Nat.reduceMul, Nat.reduceAdd, Nat.add_assoc, Nat.mul_one, Nat.zero_mul, Nat.zero_add])) b2 (by omega),
   split_at n (x0 * 1048576 + x1 * 1024 + x2 * 1) x3 (x4 * 262144 + x5 * 32768) 24 10 (hn.trans (by simp only [Nat.add_mul, Nat.mul_assoc, Nat.reducePow, Nat.reduceMul, Nat.reduceAdd, Nat.add_assoc, Nat.mul_one, Nat.zero_mul, Nat.zero_add])) b3 (by omega),
   split_at n (x0 * 1073741824 + x1 * 1048576 + x2 * 1024 + x3 * 1) x4 (x5 * 32768) 18 6 (hn.trans (by simp only [Nat.add_mul, Nat.mul_assoc, Nat.reducePow, Nat.reduceMul, Nat.reduceAdd, Nat.add_assoc, Nat.mul_one, Nat.zero_mul, Nat.zero_add])) b4 (by omega),
   split_last n (x0 * 68719476736 + x1 * 67108864 + x2 * 65536 + x3 * 64 + x4 * 1) x5 15 3 (hn.trans (by simp only [Nat.add_mul, Nat.mul_assoc, Nat.reducePow, Nat.reduceMul, Nat.reduceAdd, Nat.add_assoc, Nat.mul_one, Nat.zero_mul, Nat.zero_add])) b5,
   split_none n (x0 * 549755813888 + x1 * 536870912 + x2 * 524288 + x3 * 512 + x4 * 8 + x5 * 1) 15 (hn.trans (by simp only [Nat.add_mul, Nat.mul_assoc, Nat.reducePow, Nat.reduceMul, Nat.mul_one]))⟩

/-- The fields of a format Y word are read back as they were put in, and no reserved bit is set. -/
theorem decY_encY (op : BitVec 10) (f : FmtY) :
    decY (encY op f) = .ok f ∧ (encY op f).extractLsb' 54 10 = op := by
  obtain ⟨n, hn⟩ : ∃ n, n = op.toNat * 18014398509481984 + (encOpd f.dst).toNat * 17592186044416 + (encOpd f.a).toNat * 17179869184 + (encOpd f.b).toNat * 16777216 + f.sel.toNat * 262144 + (encLvl f.lvl).toNat * 32768 := ⟨_, rfl⟩
  have hw : encY op f = BitVec.ofNat 64 n := by rw [hn]; simp only [encY, put, Nat.reducePow]
  obtain ⟨e0, e1, e2, e3, e4, e5, g0⟩ := placesY n _ _ _ _ _ _ op.isLt (encOpd f.dst).isLt (encOpd f.a).isLt (encOpd f.b).isLt f.sel.isLt (encLvl f.lvl).isLt hn
  rw [hw]
  replace e0 := field_of n 54 10 _ (by omega) e0
  replace e1 := field_of n 44 10 _ (by omega) e1
  replace e2 := field_of n 34 10 _ (by omega) e2
  replace e3 := field_of n 24 10 _ (by omega) e3
  replace e4 := field_of n 18 6 _ (by omega) e4
  replace e5 := field_of n 15 3 _ (by omega) e5
  replace g0 := and_place n 0 15 (by omega) g0
  have r := g0
  rw [show place 0 15 = (0x0000000000007FFF : BitVec 64) by decide] at r
  refine ⟨?_, e0⟩
  generalize BitVec.ofNat 64 _ = w at *
  simp only [decY, r, e1, e2, e3, e4, e5, decLvl_encLvl, decOpd_encOpd, bne_self_eq_false, Bool.false_eq_true, if_false]

/-- The places of a format MX word. -/
theorem placesMX (n x0 x1 x2 x3 x4 x5 x6 x7 : Nat) (b0 : x0 < 2 ^ 10) (b1 : x1 < 2 ^ 10) (b2 : x2 < 2 ^ 10) (b3 : x3 < 2 ^ 10) (b4 : x4 < 2 ^ 10) (b5 : x5 < 2 ^ 10) (b6 : x6 < 2 ^ 1) (b7 : x7 < 2 ^ 1)
    (hn : n = x0 * 18014398509481984 + x1 * 17592186044416 + x2 * 17179869184 + x3 * 16777216 + x4 * 16384 + x5 * 16 + x6 * 8 + x7 * 4) :
    n / 2 ^ 54 % 2 ^ 10 = x0 ∧ n / 2 ^ 44 % 2 ^ 10 = x1 ∧ n / 2 ^ 34 % 2 ^ 10 = x2 ∧ n / 2 ^ 24 % 2 ^ 10 = x3 ∧ n / 2 ^ 14 % 2 ^ 10 = x4 ∧ n / 2 ^ 4 % 2 ^ 10 = x5 ∧ n / 2 ^ 3 % 2 ^ 1 = x6 ∧ n / 2 ^ 2 % 2 ^ 1 = x7 ∧ n / 2 ^ 0 % 2 ^ 2 = 0 :=
  ⟨split_at n (0) x0 (x1 * 17592186044416 + x2 * 17179869184 + x3 * 16777216 + x4 * 16384 + x5 * 16 + x6 * 8 + x7 * 4) 54 10 (hn.trans (by simp only [Nat.add_mul, Nat.mul_assoc, Nat.reducePow, Nat.reduceMul, Nat.reduceAdd, Nat.add_assoc, Nat.mul_one, Nat.zero_mul, Nat.zero_add])) b0 (by omega),
   split_at n (x0 * 1) x1 (x2 * 17179869184 + x3 * 16777216 + x4 * 16384 + x5 * 16 + x6 * 8 + x7 * 4) 44 10 (hn.trans (by simp only [Nat.add_mul, Nat.mul_assoc, Nat.reducePow, Nat.reduceMul, Nat.reduceAdd, Nat.add_assoc, Nat.mul_one, Nat.zero_mul, Nat.zero_add])) b1 (by omega),
   split_at n (x0 * 1024 + x1 * 1) x2 (x3 * 16777216 + x4 * 16384 + x5 * 16 + x6 * 8 + x7 * 4) 34 10 (hn.trans (by simp only [Nat.add_mul, Nat.mul_assoc, Nat.reducePow, Nat.reduceMul, Nat.reduceAdd, Nat.add_assoc, Nat.mul_one, Nat.zero_mul, Nat.zero_add])) b2 (by omega),
   split_at n (x0 * 1048576 + x1 * 1024 + x2 * 1) x3 (x4 * 16384 + x5 * 16 + x6 * 8 + x7 * 4) 24 10 (hn.trans (by simp only [Nat.add_mul, Nat.mul_assoc, Nat.reducePow, Nat.reduceMul, Nat.reduceAdd, Nat.add_assoc, Nat.mul_one, Nat.zero_mul, Nat.zero_add])) b3 (by omega),
   split_at n (x0 * 1073741824 + x1 * 1048576 + x2 * 1024 + x3 * 1) x4 (x5 * 16 + x6 * 8 + x7 * 4) 14 10 (hn.trans (by simp only [Nat.add_mul, Nat.mul_assoc, Nat.reducePow, Nat.reduceMul, Nat.reduceAdd, Nat.add_assoc, Nat.mul_one, Nat.zero_mul, Nat.zero_add])) b4 (by omega),
   split_at n (x0 * 1099511627776 + x1 * 1073741824 + x2 * 1048576 + x3 * 1024 + x4 * 1) x5 (x6 * 8 + x7 * 4) 4 10 (hn.trans (by simp only [Nat.add_mul, Nat.mul_assoc, Nat.reducePow, Nat.reduceMul, Nat.reduceAdd, Nat.add_assoc, Nat.mul_one, Nat.zero_mul, Nat.zero_add])) b5 (by omega),
   split_at n (x0 * 1125899906842624 + x1 * 1099511627776 + x2 * 1073741824 + x3 * 1048576 + x4 * 1024 + x5 * 1) x6 (x7 * 4) 3 1 (hn.trans (by simp only [Nat.add_mul, Nat.mul_assoc, Nat.reducePow, Nat.reduceMul, Nat.reduceAdd, Nat.add_assoc, Nat.mul_one, Nat.zero_mul, Nat.zero_add])) b6 (by omega),
   split_last n (x0 * 2251799813685248 + x1 * 2199023255552 + x2 * 2147483648 + x3 * 2097152 + x4 * 2048 + x5 * 2 + x6 * 1) x7 2 1 (hn.trans (by simp only [Nat.add_mul, Nat.mul_assoc, Nat.reducePow, Nat.reduceMul, Nat.reduceAdd, Nat.add_assoc, Nat.mul_one, Nat.zero_mul, Nat.zero_add])) b7,
   split_none n (x0 * 4503599627370496 + x1 * 4398046511104 + x2 * 4294967296 + x3 * 4194304 + x4 * 4096 + x5 * 4 + x6 * 2 + x7 * 1) 2 (hn.trans (by simp only [Nat.add_mul, Nat.mul_assoc, Nat.reducePow, Nat.reduceMul, Nat.mul_one]))⟩

/-- The fields of a format MX word are read back as they were put in, and no reserved bit is set. -/
theorem decMX_encMX (op : BitVec 10) (f : FmtMX) :
    decMX (encMX op f) = .ok f ∧ (encMX op f).extractLsb' 54 10 = op := by
  obtain ⟨n, hn⟩ : ∃ n, n = op.toNat * 18014398509481984 + (encOpd f.dst).toNat * 17592186044416 + (encOpd f.a).toNat * 17179869184 + (encOpd f.b).toNat * 16777216 + (encOpd f.c).toNat * 16384 + (encOpd f.e).toNat * 16 + (encBool f.sat).toNat * 8 + (encBool f.reuse).toNat * 4 := ⟨_, rfl⟩
  have hw : encMX op f = BitVec.ofNat 64 n := by rw [hn]; simp only [encMX, put, Nat.reducePow]
  obtain ⟨e0, e1, e2, e3, e4, e5, e6, e7, g0⟩ := placesMX n _ _ _ _ _ _ _ _ op.isLt (encOpd f.dst).isLt (encOpd f.a).isLt (encOpd f.b).isLt (encOpd f.c).isLt (encOpd f.e).isLt (encBool f.sat).isLt (encBool f.reuse).isLt hn
  rw [hw]
  replace e0 := field_of n 54 10 _ (by omega) e0
  replace e1 := field_of n 44 10 _ (by omega) e1
  replace e2 := field_of n 34 10 _ (by omega) e2
  replace e3 := field_of n 24 10 _ (by omega) e3
  replace e4 := field_of n 14 10 _ (by omega) e4
  replace e5 := field_of n 4 10 _ (by omega) e5
  replace e6 := bit_of n 3 _ (by omega) e6
  replace e7 := bit_of n 2 _ (by omega) e7
  replace g0 := and_place n 0 2 (by omega) g0
  have r := g0
  rw [show place 0 2 = (0x0000000000000003 : BitVec 64) by decide] at r
  refine ⟨?_, e0⟩
  generalize BitVec.ofNat 64 _ = w at *
  simp only [decMX, r, e1, e2, e3, e4, e5, e6, e7, decOpd_encOpd, bne_self_eq_false, Bool.false_eq_true, if_false]

/-- The places of a format RQ word. -/
theorem placesRQ (n x0 x1 x2 x3 x4 x5 x6 x7 x8 : Nat) (b0 : x0 < 2 ^ 10) (b1 : x1 < 2 ^ 10) (b2 : x2 < 2 ^ 10) (b3 : x3 < 2 ^ 10) (b4 : x4 < 2 ^ 10) (b5 : x5 < 2 ^ 6) (b6 : x6 < 2 ^ 5) (b7 : x7 < 2 ^ 1) (b8 : x8 < 2 ^ 1)
    (hn : n = x0 * 18014398509481984 + x1 * 17592186044416 + x2 * 17179869184 + x3 * 16777216 + x4 * 16384 + x5 * 256 + x6 * 8 + x7 * 4 + x8 * 2) :
    n / 2 ^ 54 % 2 ^ 10 = x0 ∧ n / 2 ^ 44 % 2 ^ 10 = x1 ∧ n / 2 ^ 34 % 2 ^ 10 = x2 ∧ n / 2 ^ 24 % 2 ^ 10 = x3 ∧ n / 2 ^ 14 % 2 ^ 10 = x4 ∧ n / 2 ^ 8 % 2 ^ 6 = x5 ∧ n / 2 ^ 3 % 2 ^ 5 = x6 ∧ n / 2 ^ 2 % 2 ^ 1 = x7 ∧ n / 2 ^ 1 % 2 ^ 1 = x8 ∧ n / 2 ^ 0 % 2 ^ 1 = 0 :=
  ⟨split_at n (0) x0 (x1 * 17592186044416 + x2 * 17179869184 + x3 * 16777216 + x4 * 16384 + x5 * 256 + x6 * 8 + x7 * 4 + x8 * 2) 54 10 (hn.trans (by simp only [Nat.add_mul, Nat.mul_assoc, Nat.reducePow, Nat.reduceMul, Nat.reduceAdd, Nat.add_assoc, Nat.mul_one, Nat.zero_mul, Nat.zero_add])) b0 (by omega),
   split_at n (x0 * 1) x1 (x2 * 17179869184 + x3 * 16777216 + x4 * 16384 + x5 * 256 + x6 * 8 + x7 * 4 + x8 * 2) 44 10 (hn.trans (by simp only [Nat.add_mul, Nat.mul_assoc, Nat.reducePow, Nat.reduceMul, Nat.reduceAdd, Nat.add_assoc, Nat.mul_one, Nat.zero_mul, Nat.zero_add])) b1 (by omega),
   split_at n (x0 * 1024 + x1 * 1) x2 (x3 * 16777216 + x4 * 16384 + x5 * 256 + x6 * 8 + x7 * 4 + x8 * 2) 34 10 (hn.trans (by simp only [Nat.add_mul, Nat.mul_assoc, Nat.reducePow, Nat.reduceMul, Nat.reduceAdd, Nat.add_assoc, Nat.mul_one, Nat.zero_mul, Nat.zero_add])) b2 (by omega),
   split_at n (x0 * 1048576 + x1 * 1024 + x2 * 1) x3 (x4 * 16384 + x5 * 256 + x6 * 8 + x7 * 4 + x8 * 2) 24 10 (hn.trans (by simp only [Nat.add_mul, Nat.mul_assoc, Nat.reducePow, Nat.reduceMul, Nat.reduceAdd, Nat.add_assoc, Nat.mul_one, Nat.zero_mul, Nat.zero_add])) b3 (by omega),
   split_at n (x0 * 1073741824 + x1 * 1048576 + x2 * 1024 + x3 * 1) x4 (x5 * 256 + x6 * 8 + x7 * 4 + x8 * 2) 14 10 (hn.trans (by simp only [Nat.add_mul, Nat.mul_assoc, Nat.reducePow, Nat.reduceMul, Nat.reduceAdd, Nat.add_assoc, Nat.mul_one, Nat.zero_mul, Nat.zero_add])) b4 (by omega),
   split_at n (x0 * 1099511627776 + x1 * 1073741824 + x2 * 1048576 + x3 * 1024 + x4 * 1) x5 (x6 * 8 + x7 * 4 + x8 * 2) 8 6 (hn.trans (by simp only [Nat.add_mul, Nat.mul_assoc, Nat.reducePow, Nat.reduceMul, Nat.reduceAdd, Nat.add_assoc, Nat.mul_one, Nat.zero_mul, Nat.zero_add])) b5 (by omega),
   split_at n (x0 * 70368744177664 + x1 * 68719476736 + x2 * 67108864 + x3 * 65536 + x4 * 64 + x5 * 1) x6 (x7 * 4 + x8 * 2) 3 5 (hn.trans (by simp only [Nat.add_mul, Nat.mul_assoc, Nat.reducePow, Nat.reduceMul, Nat.reduceAdd, Nat.add_assoc, Nat.mul_one, Nat.zero_mul, Nat.zero_add])) b6 (by omega),
   split_at n (x0 * 2251799813685248 + x1 * 2199023255552 + x2 * 2147483648 + x3 * 2097152 + x4 * 2048 + x5 * 32 + x6 * 1) x7 (x8 * 2) 2 1 (hn.trans (by simp only [Nat.add_mul, Nat.mul_assoc, Nat.reducePow, Nat.reduceMul, Nat.reduceAdd, Nat.add_assoc, Nat.mul_one, Nat.zero_mul, Nat.zero_add])) b7 (by omega),
   split_last n (x0 * 4503599627370496 + x1 * 4398046511104 + x2 * 4294967296 + x3 * 4194304 + x4 * 4096 + x5 * 64 + x6 * 2 + x7 * 1) x8 1 1 (hn.trans (by simp only [Nat.add_mul, Nat.mul_assoc, Nat.reducePow, Nat.reduceMul, Nat.reduceAdd, Nat.add_assoc, Nat.mul_one, Nat.zero_mul, Nat.zero_add])) b8,
   split_none n (x0 * 9007199254740992 + x1 * 8796093022208 + x2 * 8589934592 + x3 * 8388608 + x4 * 8192 + x5 * 128 + x6 * 4 + x7 * 2 + x8 * 1) 1 (hn.trans (by simp only [Nat.add_mul, Nat.mul_assoc, Nat.reducePow, Nat.reduceMul, Nat.mul_one]))⟩

/-- The fields of a format RQ word are read back as they were put in, and no reserved bit is set. -/
theorem decRQ_encRQ (op : BitVec 10) (f : FmtRQ) :
    decRQ (encRQ op f) = .ok f ∧ (encRQ op f).extractLsb' 54 10 = op := by
  obtain ⟨n, hn⟩ : ∃ n, n = op.toNat * 18014398509481984 + (encOpd f.dst).toNat * 17592186044416 + (encOpd f.a).toNat * 17179869184 + (encOpd f.b).toNat * 16777216 + (encOpd f.c).toNat * 16384 + f.sel.toNat * 256 + f.bar.toNat * 8 + (encBool f.bv).toNat * 4 + (encBool f.rel).toNat * 2 := ⟨_, rfl⟩
  have hw : encRQ op f = BitVec.ofNat 64 n := by rw [hn]; simp only [encRQ, put, Nat.reducePow]
  obtain ⟨e0, e1, e2, e3, e4, e5, e6, e7, e8, g0⟩ := placesRQ n _ _ _ _ _ _ _ _ _ op.isLt (encOpd f.dst).isLt (encOpd f.a).isLt (encOpd f.b).isLt (encOpd f.c).isLt f.sel.isLt f.bar.isLt (encBool f.bv).isLt (encBool f.rel).isLt hn
  rw [hw]
  replace e0 := field_of n 54 10 _ (by omega) e0
  replace e1 := field_of n 44 10 _ (by omega) e1
  replace e2 := field_of n 34 10 _ (by omega) e2
  replace e3 := field_of n 24 10 _ (by omega) e3
  replace e4 := field_of n 14 10 _ (by omega) e4
  replace e5 := field_of n 8 6 _ (by omega) e5
  replace e6 := field_of n 3 5 _ (by omega) e6
  replace e7 := bit_of n 2 _ (by omega) e7
  replace e8 := bit_of n 1 _ (by omega) e8
  replace g0 := and_place n 0 1 (by omega) g0
  have r := g0
  rw [show place 0 1 = (0x0000000000000001 : BitVec 64) by decide] at r
  refine ⟨?_, e0⟩
  generalize BitVec.ofNat 64 _ = w at *
  simp only [decRQ, r, e1, e2, e3, e4, e5, e6, e7, e8, decOpd_encOpd, bne_self_eq_false, Bool.false_eq_true, if_false]

/-- The places of a format Q word. -/
theorem placesQ (n x0 x1 x2 x3 x4 x5 : Nat) (b0 : x0 < 2 ^ 10) (b1 : x1 < 2 ^ 10) (b2 : x2 < 2 ^ 10) (b3 : x3 < 2 ^ 10) (b4 : x4 < 2 ^ 10) (b5 : x5 < 2 ^ 6)
    (hn : n = x0 * 18014398509481984 + x1 * 17592186044416 + x2 * 17179869184 + x3 * 16777216 + x4 * 16384 + x5 * 256) :
    n / 2 ^ 54 % 2 ^ 10 = x0 ∧ n / 2 ^ 44 % 2 ^ 10 = x1 ∧ n / 2 ^ 34 % 2 ^ 10 = x2 ∧ n / 2 ^ 24 % 2 ^ 10 = x3 ∧ n / 2 ^ 14 % 2 ^ 10 = x4 ∧ n / 2 ^ 8 % 2 ^ 6 = x5 ∧ n / 2 ^ 0 % 2 ^ 8 = 0 :=
  ⟨split_at n (0) x0 (x1 * 17592186044416 + x2 * 17179869184 + x3 * 16777216 + x4 * 16384 + x5 * 256) 54 10 (hn.trans (by simp only [Nat.add_mul, Nat.mul_assoc, Nat.reducePow, Nat.reduceMul, Nat.reduceAdd, Nat.add_assoc, Nat.mul_one, Nat.zero_mul, Nat.zero_add])) b0 (by omega),
   split_at n (x0 * 1) x1 (x2 * 17179869184 + x3 * 16777216 + x4 * 16384 + x5 * 256) 44 10 (hn.trans (by simp only [Nat.add_mul, Nat.mul_assoc, Nat.reducePow, Nat.reduceMul, Nat.reduceAdd, Nat.add_assoc, Nat.mul_one, Nat.zero_mul, Nat.zero_add])) b1 (by omega),
   split_at n (x0 * 1024 + x1 * 1) x2 (x3 * 16777216 + x4 * 16384 + x5 * 256) 34 10 (hn.trans (by simp only [Nat.add_mul, Nat.mul_assoc, Nat.reducePow, Nat.reduceMul, Nat.reduceAdd, Nat.add_assoc, Nat.mul_one, Nat.zero_mul, Nat.zero_add])) b2 (by omega),
   split_at n (x0 * 1048576 + x1 * 1024 + x2 * 1) x3 (x4 * 16384 + x5 * 256) 24 10 (hn.trans (by simp only [Nat.add_mul, Nat.mul_assoc, Nat.reducePow, Nat.reduceMul, Nat.reduceAdd, Nat.add_assoc, Nat.mul_one, Nat.zero_mul, Nat.zero_add])) b3 (by omega),
   split_at n (x0 * 1073741824 + x1 * 1048576 + x2 * 1024 + x3 * 1) x4 (x5 * 256) 14 10 (hn.trans (by simp only [Nat.add_mul, Nat.mul_assoc, Nat.reducePow, Nat.reduceMul, Nat.reduceAdd, Nat.add_assoc, Nat.mul_one, Nat.zero_mul, Nat.zero_add])) b4 (by omega),
   split_last n (x0 * 1099511627776 + x1 * 1073741824 + x2 * 1048576 + x3 * 1024 + x4 * 1) x5 8 6 (hn.trans (by simp only [Nat.add_mul, Nat.mul_assoc, Nat.reducePow, Nat.reduceMul, Nat.reduceAdd, Nat.add_assoc, Nat.mul_one, Nat.zero_mul, Nat.zero_add])) b5,
   split_none n (x0 * 70368744177664 + x1 * 68719476736 + x2 * 67108864 + x3 * 65536 + x4 * 64 + x5 * 1) 8 (hn.trans (by simp only [Nat.add_mul, Nat.mul_assoc, Nat.reducePow, Nat.reduceMul, Nat.mul_one]))⟩

/-- The fields of a format Q word are read back as they were put in, and no reserved bit is set. -/
theorem decQ_encQ (op : BitVec 10) (f : FmtQ) :
    decQ (encQ op f) = .ok f ∧ (encQ op f).extractLsb' 54 10 = op := by
  obtain ⟨n, hn⟩ : ∃ n, n = op.toNat * 18014398509481984 + (encOpd f.dst).toNat * 17592186044416 + (encOpd f.a).toNat * 17179869184 + (encOpd f.b).toNat * 16777216 + (encOpd f.c).toNat * 16384 + f.sel.toNat * 256 := ⟨_, rfl⟩
  have hw : encQ op f = BitVec.ofNat 64 n := by rw [hn]; simp only [encQ, put, Nat.reducePow]
  obtain ⟨e0, e1, e2, e3, e4, e5, g0⟩ := placesQ n _ _ _ _ _ _ op.isLt (encOpd f.dst).isLt (encOpd f.a).isLt (encOpd f.b).isLt (encOpd f.c).isLt f.sel.isLt hn
  rw [hw]
  replace e0 := field_of n 54 10 _ (by omega) e0
  replace e1 := field_of n 44 10 _ (by omega) e1
  replace e2 := field_of n 34 10 _ (by omega) e2
  replace e3 := field_of n 24 10 _ (by omega) e3
  replace e4 := field_of n 14 10 _ (by omega) e4
  replace e5 := field_of n 8 6 _ (by omega) e5
  replace g0 := and_place n 0 8 (by omega) g0
  have r := g0
  rw [show place 0 8 = (0x00000000000000FF : BitVec 64) by decide] at r
  refine ⟨?_, e0⟩
  generalize BitVec.ofNat 64 _ = w at *
  simp only [decQ, r, e1, e2, e3, e4, e5, decOpd_encOpd, bne_self_eq_false, Bool.false_eq_true, if_false]

end Sys2Proof.Laws
end

