-- ==== Sys2Proof/Laws/Store.lean ====
section
/-!
SUPPORT. Laws of sorted tables: reading after putting and erasing, and that both keep the table sorted and canonical.
-/
namespace Sys2Proof.Machine.Store

variable {α : Type}

/-- Every key of a table is above a number. -/
def above (lo : Nat) (l : List (Nat × α)) : Prop := ∀ e ∈ l, lo < e.1

theorem sorted_cons (a : Nat) (x : α) (l : List (Nat × α)) : sorted ((a, x) :: l) = true ↔ above a l ∧ sorted l = true := by
  induction l generalizing a x with
  | nil => simp [sorted, above]
  | cons e t ih =>
    obtain ⟨b, y⟩ := e
    simp only [sorted, Bool.and_eq_true, decide_eq_true_eq]
    constructor
    · rintro ⟨h, hs⟩
      refine ⟨?_, hs⟩
      intro e he
      rcases List.mem_cons.mp he with rfl | he
      · exact h
      · exact Nat.lt_trans h (((ih b y).mp hs).1 e he)
    · rintro ⟨h, hs⟩
      exact ⟨h (b, y) (List.mem_cons_self ..), hs⟩

theorem mem_put (l : List (Nat × α)) (k : Nat) (v : α) (e : Nat × α) (h : e ∈ put l k v) : e = (k, v) ∨ e ∈ l := by
  induction l with
  | nil => simpa [put] using h
  | cons p t ih =>
    obtain ⟨a, x⟩ := p
    simp only [put] at h
    split at h
    · simpa using h
    · split at h
      · next hk => subst hk; rcases List.mem_cons.mp h with h | h <;> simp [h]
      · rcases List.mem_cons.mp h with h | h
        · simp [h]
        · rcases ih h with h | h <;> simp [h]

theorem mem_erase (l : List (Nat × α)) (k : Nat) (e : Nat × α) (h : e ∈ erase l k) : e ∈ l := by
  induction l with
  | nil => exact h
  | cons p t ih =>
    obtain ⟨a, x⟩ := p
    simp only [erase] at h
    split at h
    · exact List.mem_cons_of_mem _ (ih h)
    · rcases List.mem_cons.mp h with h | h
      · simp [h]
      · exact List.mem_cons_of_mem _ (ih h)

theorem sorted_put (l : List (Nat × α)) (k : Nat) (v : α) (h : sorted l = true) : sorted (put l k v) = true := by
  induction l with
  | nil => rfl
  | cons p t ih =>
    obtain ⟨a, x⟩ := p
    have ⟨ha, hs⟩ := (sorted_cons a x t).mp h
    simp only [put]
    split
    · next hk =>
      refine (sorted_cons k v _).mpr ⟨?_, h⟩
      intro e he
      rcases List.mem_cons.mp he with rfl | he
      · exact hk
      · exact Nat.lt_trans hk (ha e he)
    · split
      · exact (sorted_cons a v t).mpr ⟨ha, hs⟩
      · refine (sorted_cons a x _).mpr ⟨?_, ih hs⟩
        intro e he
        rcases mem_put t k v e he with rfl | he
        · show a < k; omega
        · exact ha e he

theorem sorted_erase (l : List (Nat × α)) (k : Nat) (h : sorted l = true) : sorted (erase l k) = true := by
  induction l with
  | nil => rfl
  | cons p t ih =>
    obtain ⟨a, x⟩ := p
    have ⟨ha, hs⟩ := (sorted_cons a x t).mp h
    simp only [erase]
    split
    · exact ih hs
    · exact (sorted_cons a x _).mpr ⟨fun e he => ha e (mem_erase t k e he), ih hs⟩

theorem get?_put (l : List (Nat × α)) (k j : Nat) (v : α) : get? (put l k v) j = if j = k then some v else get? l j := by
  induction l with
  | nil => simp only [put, get?, eq_comm]
  | cons p t ih =>
    obtain ⟨a, x⟩ := p
    simp only [put]
    split
    · by_cases h : j = k
      · simp [get?, h]
      · simp [get?, h, Ne.symm h]
    · split
      · next h2 =>
        subst h2
        by_cases h : j = a
        · simp [get?, h]
        · simp [get?, h, Ne.symm h]
      · next h2 =>
        simp only [get?, ih]
        by_cases h : a = j
        · simp [h, show ¬ j = k by omega]
        · simp [h]

theorem get?_erase (l : List (Nat × α)) (k j : Nat) : get? (erase l k) j = if j = k then none else get? l j := by
  induction l with
  | nil => simp [erase, get?]
  | cons p t ih =>
    obtain ⟨a, x⟩ := p
    simp only [erase]
    split
    · next h =>
      subst h
      rw [ih]
      by_cases h : j = a
      · simp [h]
      · simp [get?, h, Ne.symm h]
    · next h =>
      simp only [get?, ih]
      by_cases h2 : a = j
      · simp [h2, show ¬ j = k by omega]
      · simp [h2]

/-- Reading after putting, where the default is what an unlisted key reads as. -/
theorem getD_putD [DecidableEq α] (d : α) (l : List (Nat × α)) (k j : Nat) (v : α) :
    getD (putD d l k v) j d = if j = k then v else getD l j d := by
  unfold putD getD
  by_cases hv : v = d
  · simp only [hv, if_true, get?_erase l k j]
    split <;> rfl
  · simp only [hv, if_false, get?_put]
    split <;> rfl

theorem sorted_putD [DecidableEq α] (d : α) (l : List (Nat × α)) (k : Nat) (v : α) (h : sorted l = true) :
    sorted (putD d l k v) = true := by
  unfold putD
  split
  · exact sorted_erase l k h
  · exact sorted_put l k v h

/-- Putting keeps the canonical form. -/
theorem canon_putD [DecidableEq α] (d : α) (l : List (Nat × α)) (k : Nat) (v : α) (h : canon d l = true) :
    canon d (putD d l k v) = true := by
  unfold canon at h ⊢
  simp only [Bool.and_eq_true, List.all_eq_true, decide_eq_true_eq] at h ⊢
  refine ⟨sorted_putD d l k v h.1, fun e he => ?_⟩
  unfold putD at he
  split at he
  · exact h.2 e (mem_erase l k e he)
  · next hv =>
    rcases mem_put l k v e he with rfl | he
    · exact hv
    · exact h.2 e he

end Sys2Proof.Machine.Store
end

