-- ==== Sys2Proof/Laws/Memory.lean ====
section
/-!
SUPPORT. Laws of memory: a read after a write gives the value written at that address and the old value at every other, and
every memory operation keeps the canonical form `Memory.wf`.
-/
namespace Sys2Proof.Machine

theorem Memory.wf_nil : Memory.wf [] = true := rfl

theorem Memory.wf_write (m : Cells) (a : Nat) (b : Byte) (h : Memory.wf m = true) : Memory.wf (Memory.write m a b) = true :=
  Store.canon_putD unlisted m a b h

theorem Memory.wf_sorted (m : Cells) (h : Memory.wf m = true) : Store.sorted m = true := by
  unfold Memory.wf Store.canon at h
  exact (Bool.and_eq_true _ _ ▸ h).1

theorem Memory.read_write (m : Cells) (a j : Nat) (b : Byte) :
    Memory.read (Memory.write m a b) j = if j = a then b else Memory.read m j :=
  Store.getD_putD unlisted m a j b

/-- Any number of writes in a row. -/
theorem Memory.wf_foldl {β : Type} (l : List β) (f : Cells → β → Cells) (hf : ∀ m e, Memory.wf m = true → Memory.wf (f m e) = true)
    (m : Cells) (h : Memory.wf m = true) : Memory.wf (l.foldl f m) = true := by
  induction l generalizing m with
  | nil => exact h
  | cons e t ih => exact ih _ (hf m e h)

/-! ## One byte -/

theorem State.writeByte_wf (s : State) (a : Nat) (b : Byte) (h : Memory.wf s.mem = true) : Memory.wf (s.writeByte a b).mem = true := by
  unfold State.writeByte
  split
  · exact h
  · exact Memory.wf_write _ a b h

theorem State.writeBytes_wf (s : State) (l : List (Nat × Byte)) (h : Memory.wf s.mem = true) :
    Memory.wf (s.writeBytes l).mem = true := by
  unfold State.writeBytes
  induction l generalizing s with
  | nil => exact h
  | cons e t ih => exact ih _ (s.writeByte_wf e.1 e.2 h)

theorem State.hostWrite_wf (s : State) (a : Nat) (b : Byte) (h : Memory.wf s.mem = true) : Memory.wf (s.hostWrite a b).mem = true :=
  Memory.wf_write _ a b h

@[simp] theorem State.touchLine_mem (s : State) (line : Nat) : (s.touchLine line).mem = s.mem := by
  unfold State.touchLine
  split <;> rfl

theorem State.writeBack_wf (s : State) (sel : Nat → Bool) (h : Memory.wf s.mem = true) : Memory.wf (s.writeBack sel).mem = true :=
  Memory.wf_foldl _ _ (fun m e hm => by
    show Memory.wf (if sel e.1 && e.2.dirty then Memory.write m e.1 e.2.val else m) = true
    split
    · exact Memory.wf_write m _ _ hm
    · exact hm) _ h

theorem State.dropCopies_wf (s : State) (sel : Nat → Bool) (h : Memory.wf s.mem = true) : Memory.wf (s.dropCopies sel).mem = true :=
  s.writeBack_wf sel h

/-- Reading one byte after a write of one byte by this device. -/
theorem State.readByte_writeByte (s : State) (a j : Nat) (b : Byte) :
    (s.writeByte a b).readByte j = if j = a then b else s.readByte j := by
  unfold State.writeByte
  by_cases hj : j = a
  · subst hj
    cases hh : homeOf j <;> simp [State.readByte, hh, Store.get?_put, Memory.read_write]
  · cases hh : homeOf a <;> cases hk : homeOf j <;>
      simp [State.readByte, hk, hj, Store.get?_put, Memory.read_write]

/-- A byte that a list of writes does not name reads as before. -/
theorem State.readByte_writeBytes_other (s : State) (l : List (Nat × Byte)) (j : Nat)
    (hj : ∀ e ∈ l, e.1 ≠ j) : (s.writeBytes l).readByte j = s.readByte j := by
  unfold State.writeBytes
  induction l generalizing s with
  | nil => rfl
  | cons e t ih =>
    rw [List.foldl_cons, ih _ (fun x hx => hj x (List.mem_cons_of_mem _ hx)),
      State.readByte_writeByte s e.1 j e.2, if_neg (Ne.symm (hj e (List.mem_cons_self ..)))]

/-- What a host byte reads as through the device cache. -/
def seenHost (m : Cells) (c : List (Nat × HostByte)) (a : Nat) : Byte :=
  match Store.get? c a with
  | some x => x.val
  | none => Memory.read m a

theorem seenHost_touch (m : Cells) (base a : Nat) (l : List Nat) (c : List (Nat × HostByte)) :
    seenHost m (l.foldl (fun c k => match Store.get? c (base + k) with
      | some _ => c
      | none => Store.put c (base + k) ⟨Memory.read m (base + k), false⟩) c) a = seenHost m c a := by
  induction l generalizing c with
  | nil => rfl
  | cons k l ih =>
    rw [List.foldl_cons, ih]
    cases h : Store.get? c (base + k) with
    | some x => rfl
    | none =>
      simp only [seenHost, Store.get?_put]
      by_cases hk : a = base + k
      · subst hk; simp [h]
      · simp [hk]

/-- A line that enters the device cache reads as before (R341). -/
theorem State.readByte_touchLine (s : State) (line a : Nat) : (s.touchLine line).readByte a = s.readByte a := by
  unfold State.touchLine
  generalize line * 128 = base
  generalize List.range 128 = l
  cases hb : homeOf base with
  | host =>
    simp only [State.readByte]
    cases homeOf a <;> first | rfl | exact seenHost_touch s.mem base a l s.hostCopy
  | _ => rfl

/-- The memory of the reset state has the canonical form. -/
theorem State.reset_mem_wf : Memory.wf State.reset.mem = true := rfl

end Sys2Proof.Machine
end

