-- ==== Sys2Proof/Laws/State.lean ====
section
/-!
SUPPORT. One lemma per field per update of the state: replacing a record of one table leaves every other field; reading the
replaced record gives it back, and another record is unchanged.
-/
namespace Sys2Proof.Machine

@[simp] theorem State.setGang_now (s : State) (g : Gang) : (s.setGang g).now = s.now := rfl
@[simp] theorem State.setGang_agenda (s : State) (g : Gang) : (s.setGang g).agenda = s.agenda := rfl
@[simp] theorem State.setGang_cur (s : State) (g : Gang) : (s.setGang g).cur = s.cur := rfl
@[simp] theorem State.setGang_nextUid (s : State) (g : Gang) : (s.setGang g).nextUid = s.nextUid := rfl
@[simp] theorem State.setGang_nextOp (s : State) (g : Gang) : (s.setGang g).nextOp = s.nextOp := rfl
@[simp] theorem State.setGang_mem (s : State) (g : Gang) : (s.setGang g).mem = s.mem := rfl
@[simp] theorem State.setGang_oldLines (s : State) (g : Gang) : (s.setGang g).oldLines = s.oldLines := rfl
@[simp] theorem State.setGang_bad (s : State) (g : Gang) : (s.setGang g).bad = s.bad := rfl
@[simp] theorem State.setGang_hostCopy (s : State) (g : Gang) : (s.setGang g).hostCopy = s.hostCopy := rfl
@[simp] theorem State.setGang_mapped (s : State) (g : Gang) : (s.setGang g).mapped = s.mapped := rfl
@[simp] theorem State.setGang_blocks (s : State) (g : Gang) : (s.setGang g).blocks = s.blocks := rfl
@[simp] theorem State.setGang_clusters (s : State) (g : Gang) : (s.setGang g).clusters = s.clusters := rfl
@[simp] theorem State.setGang_grids (s : State) (g : Gang) : (s.setGang g).grids = s.grids := rfl
@[simp] theorem State.setGang_roots (s : State) (g : Gang) : (s.setGang g).roots = s.roots := rfl
@[simp] theorem State.setGang_cores (s : State) (g : Gang) : (s.setGang g).cores = s.cores := rfl
@[simp] theorem State.setGang_proofs (s : State) (g : Gang) : (s.setGang g).proofs = s.proofs := rfl
@[simp] theorem State.setGang_tlb (s : State) (g : Gang) : (s.setGang g).tlb = s.tlb := rfl
@[simp] theorem State.setGang_ats (s : State) (g : Gang) : (s.setGang g).ats = s.ats := rfl
@[simp] theorem State.setGang_pri (s : State) (g : Gang) : (s.setGang g).pri = s.pri := rfl
@[simp] theorem State.setGang_queues (s : State) (g : Gang) : (s.setGang g).queues = s.queues := rfl
@[simp] theorem State.setGang_host (s : State) (g : Gang) : (s.setGang g).host = s.host := rfl
@[simp] theorem State.setGang_flash (s : State) (g : Gang) : (s.setGang g).flash = s.flash := rfl
@[simp] theorem State.setGang_domain (s : State) (g : Gang) : (s.setGang g).domain = s.domain := rfl
@[simp] theorem State.setGang_lanes (s : State) (g : Gang) : (s.setGang g).lanes = s.lanes := rfl
@[simp] theorem State.setGang_dbgDomains (s : State) (g : Gang) : (s.setGang g).dbgDomains = s.dbgDomains := rfl

@[simp] theorem State.updGang_now (s : State) (uid : Nat) (f : Gang → Gang) : (s.updGang uid f).now = s.now := by
  unfold State.updGang; split <;> rfl
@[simp] theorem State.updGang_agenda (s : State) (uid : Nat) (f : Gang → Gang) : (s.updGang uid f).agenda = s.agenda := by
  unfold State.updGang; split <;> rfl
@[simp] theorem State.updGang_cur (s : State) (uid : Nat) (f : Gang → Gang) : (s.updGang uid f).cur = s.cur := by
  unfold State.updGang; split <;> rfl
@[simp] theorem State.updGang_nextUid (s : State) (uid : Nat) (f : Gang → Gang) : (s.updGang uid f).nextUid = s.nextUid := by
  unfold State.updGang; split <;> rfl
@[simp] theorem State.updGang_nextOp (s : State) (uid : Nat) (f : Gang → Gang) : (s.updGang uid f).nextOp = s.nextOp := by
  unfold State.updGang; split <;> rfl
@[simp] theorem State.updGang_mem (s : State) (uid : Nat) (f : Gang → Gang) : (s.updGang uid f).mem = s.mem := by
  unfold State.updGang; split <;> rfl
@[simp] theorem State.updGang_oldLines (s : State) (uid : Nat) (f : Gang → Gang) : (s.updGang uid f).oldLines = s.oldLines := by
  unfold State.updGang; split <;> rfl
@[simp] theorem State.updGang_bad (s : State) (uid : Nat) (f : Gang → Gang) : (s.updGang uid f).bad = s.bad := by
  unfold State.updGang; split <;> rfl
@[simp] theorem State.updGang_hostCopy (s : State) (uid : Nat) (f : Gang → Gang) : (s.updGang uid f).hostCopy = s.hostCopy := by
  unfold State.updGang; split <;> rfl
@[simp] theorem State.updGang_mapped (s : State) (uid : Nat) (f : Gang → Gang) : (s.updGang uid f).mapped = s.mapped := by
  unfold State.updGang; split <;> rfl
@[simp] theorem State.updGang_blocks (s : State) (uid : Nat) (f : Gang → Gang) : (s.updGang uid f).blocks = s.blocks := by
  unfold State.updGang; split <;> rfl
@[simp] theorem State.updGang_clusters (s : State) (uid : Nat) (f : Gang → Gang) : (s.updGang uid f).clusters = s.clusters := by
  unfold State.updGang; split <;> rfl
@[simp] theorem State.updGang_grids (s : State) (uid : Nat) (f : Gang → Gang) : (s.updGang uid f).grids = s.grids := by
  unfold State.updGang; split <;> rfl
@[simp] theorem State.updGang_roots (s : State) (uid : Nat) (f : Gang → Gang) : (s.updGang uid f).roots = s.roots := by
  unfold State.updGang; split <;> rfl
@[simp] theorem State.updGang_cores (s : State) (uid : Nat) (f : Gang → Gang) : (s.updGang uid f).cores = s.cores := by
  unfold State.updGang; split <;> rfl
@[simp] theorem State.updGang_proofs (s : State) (uid : Nat) (f : Gang → Gang) : (s.updGang uid f).proofs = s.proofs := by
  unfold State.updGang; split <;> rfl
@[simp] theorem State.updGang_tlb (s : State) (uid : Nat) (f : Gang → Gang) : (s.updGang uid f).tlb = s.tlb := by
  unfold State.updGang; split <;> rfl
@[simp] theorem State.updGang_ats (s : State) (uid : Nat) (f : Gang → Gang) : (s.updGang uid f).ats = s.ats := by
  unfold State.updGang; split <;> rfl
@[simp] theorem State.updGang_pri (s : State) (uid : Nat) (f : Gang → Gang) : (s.updGang uid f).pri = s.pri := by
  unfold State.updGang; split <;> rfl
@[simp] theorem State.updGang_queues (s : State) (uid : Nat) (f : Gang → Gang) : (s.updGang uid f).queues = s.queues := by
  unfold State.updGang; split <;> rfl
@[simp] theorem State.updGang_host (s : State) (uid : Nat) (f : Gang → Gang) : (s.updGang uid f).host = s.host := by
  unfold State.updGang; split <;> rfl
@[simp] theorem State.updGang_flash (s : State) (uid : Nat) (f : Gang → Gang) : (s.updGang uid f).flash = s.flash := by
  unfold State.updGang; split <;> rfl
@[simp] theorem State.updGang_domain (s : State) (uid : Nat) (f : Gang → Gang) : (s.updGang uid f).domain = s.domain := by
  unfold State.updGang; split <;> rfl
@[simp] theorem State.updGang_lanes (s : State) (uid : Nat) (f : Gang → Gang) : (s.updGang uid f).lanes = s.lanes := by
  unfold State.updGang; split <;> rfl
@[simp] theorem State.updGang_dbgDomains (s : State) (uid : Nat) (f : Gang → Gang) : (s.updGang uid f).dbgDomains = s.dbgDomains := by
  unfold State.updGang; split <;> rfl

@[simp] theorem State.setBlock_now (s : State) (b : Block) : (s.setBlock b).now = s.now := rfl
@[simp] theorem State.setBlock_agenda (s : State) (b : Block) : (s.setBlock b).agenda = s.agenda := rfl
@[simp] theorem State.setBlock_cur (s : State) (b : Block) : (s.setBlock b).cur = s.cur := rfl
@[simp] theorem State.setBlock_nextUid (s : State) (b : Block) : (s.setBlock b).nextUid = s.nextUid := rfl
@[simp] theorem State.setBlock_nextOp (s : State) (b : Block) : (s.setBlock b).nextOp = s.nextOp := rfl
@[simp] theorem State.setBlock_mem (s : State) (b : Block) : (s.setBlock b).mem = s.mem := rfl
@[simp] theorem State.setBlock_oldLines (s : State) (b : Block) : (s.setBlock b).oldLines = s.oldLines := rfl
@[simp] theorem State.setBlock_bad (s : State) (b : Block) : (s.setBlock b).bad = s.bad := rfl
@[simp] theorem State.setBlock_hostCopy (s : State) (b : Block) : (s.setBlock b).hostCopy = s.hostCopy := rfl
@[simp] theorem State.setBlock_mapped (s : State) (b : Block) : (s.setBlock b).mapped = s.mapped := rfl
@[simp] theorem State.setBlock_gangs (s : State) (b : Block) : (s.setBlock b).gangs = s.gangs := rfl
@[simp] theorem State.setBlock_clusters (s : State) (b : Block) : (s.setBlock b).clusters = s.clusters := rfl
@[simp] theorem State.setBlock_grids (s : State) (b : Block) : (s.setBlock b).grids = s.grids := rfl
@[simp] theorem State.setBlock_roots (s : State) (b : Block) : (s.setBlock b).roots = s.roots := rfl
@[simp] theorem State.setBlock_cores (s : State) (b : Block) : (s.setBlock b).cores = s.cores := rfl
@[simp] theorem State.setBlock_proofs (s : State) (b : Block) : (s.setBlock b).proofs = s.proofs := rfl
@[simp] theorem State.setBlock_tlb (s : State) (b : Block) : (s.setBlock b).tlb = s.tlb := rfl
@[simp] theorem State.setBlock_ats (s : State) (b : Block) : (s.setBlock b).ats = s.ats := rfl
@[simp] theorem State.setBlock_pri (s : State) (b : Block) : (s.setBlock b).pri = s.pri := rfl
@[simp] theorem State.setBlock_queues (s : State) (b : Block) : (s.setBlock b).queues = s.queues := rfl
@[simp] theorem State.setBlock_host (s : State) (b : Block) : (s.setBlock b).host = s.host := rfl
@[simp] theorem State.setBlock_flash (s : State) (b : Block) : (s.setBlock b).flash = s.flash := rfl
@[simp] theorem State.setBlock_domain (s : State) (b : Block) : (s.setBlock b).domain = s.domain := rfl
@[simp] theorem State.setBlock_lanes (s : State) (b : Block) : (s.setBlock b).lanes = s.lanes := rfl
@[simp] theorem State.setBlock_dbgDomains (s : State) (b : Block) : (s.setBlock b).dbgDomains = s.dbgDomains := rfl

@[simp] theorem State.updBlock_now (s : State) (uid : Nat) (f : Block → Block) : (s.updBlock uid f).now = s.now := by
  unfold State.updBlock; split <;> rfl
@[simp] theorem State.updBlock_agenda (s : State) (uid : Nat) (f : Block → Block) : (s.updBlock uid f).agenda = s.agenda := by
  unfold State.updBlock; split <;> rfl
@[simp] theorem State.updBlock_cur (s : State) (uid : Nat) (f : Block → Block) : (s.updBlock uid f).cur = s.cur := by
  unfold State.updBlock; split <;> rfl
@[simp] theorem State.updBlock_nextUid (s : State) (uid : Nat) (f : Block → Block) : (s.updBlock uid f).nextUid = s.nextUid := by
  unfold State.updBlock; split <;> rfl
@[simp] theorem State.updBlock_nextOp (s : State) (uid : Nat) (f : Block → Block) : (s.updBlock uid f).nextOp = s.nextOp := by
  unfold State.updBlock; split <;> rfl
@[simp] theorem State.updBlock_mem (s : State) (uid : Nat) (f : Block → Block) : (s.updBlock uid f).mem = s.mem := by
  unfold State.updBlock; split <;> rfl
@[simp] theorem State.updBlock_oldLines (s : State) (uid : Nat) (f : Block → Block) : (s.updBlock uid f).oldLines = s.oldLines := by
  unfold State.updBlock; split <;> rfl
@[simp] theorem State.updBlock_bad (s : State) (uid : Nat) (f : Block → Block) : (s.updBlock uid f).bad = s.bad := by
  unfold State.updBlock; split <;> rfl
@[simp] theorem State.updBlock_hostCopy (s : State) (uid : Nat) (f : Block → Block) : (s.updBlock uid f).hostCopy = s.hostCopy := by
  unfold State.updBlock; split <;> rfl
@[simp] theorem State.updBlock_mapped (s : State) (uid : Nat) (f : Block → Block) : (s.updBlock uid f).mapped = s.mapped := by
  unfold State.updBlock; split <;> rfl
@[simp] theorem State.updBlock_gangs (s : State) (uid : Nat) (f : Block → Block) : (s.updBlock uid f).gangs = s.gangs := by
  unfold State.updBlock; split <;> rfl
@[simp] theorem State.updBlock_clusters (s : State) (uid : Nat) (f : Block → Block) : (s.updBlock uid f).clusters = s.clusters := by
  unfold State.updBlock; split <;> rfl
@[simp] theorem State.updBlock_grids (s : State) (uid : Nat) (f : Block → Block) : (s.updBlock uid f).grids = s.grids := by
  unfold State.updBlock; split <;> rfl
@[simp] theorem State.updBlock_roots (s : State) (uid : Nat) (f : Block → Block) : (s.updBlock uid f).roots = s.roots := by
  unfold State.updBlock; split <;> rfl
@[simp] theorem State.updBlock_cores (s : State) (uid : Nat) (f : Block → Block) : (s.updBlock uid f).cores = s.cores := by
  unfold State.updBlock; split <;> rfl
@[simp] theorem State.updBlock_proofs (s : State) (uid : Nat) (f : Block → Block) : (s.updBlock uid f).proofs = s.proofs := by
  unfold State.updBlock; split <;> rfl
@[simp] theorem State.updBlock_tlb (s : State) (uid : Nat) (f : Block → Block) : (s.updBlock uid f).tlb = s.tlb := by
  unfold State.updBlock; split <;> rfl
@[simp] theorem State.updBlock_ats (s : State) (uid : Nat) (f : Block → Block) : (s.updBlock uid f).ats = s.ats := by
  unfold State.updBlock; split <;> rfl
@[simp] theorem State.updBlock_pri (s : State) (uid : Nat) (f : Block → Block) : (s.updBlock uid f).pri = s.pri := by
  unfold State.updBlock; split <;> rfl
@[simp] theorem State.updBlock_queues (s : State) (uid : Nat) (f : Block → Block) : (s.updBlock uid f).queues = s.queues := by
  unfold State.updBlock; split <;> rfl
@[simp] theorem State.updBlock_host (s : State) (uid : Nat) (f : Block → Block) : (s.updBlock uid f).host = s.host := by
  unfold State.updBlock; split <;> rfl
@[simp] theorem State.updBlock_flash (s : State) (uid : Nat) (f : Block → Block) : (s.updBlock uid f).flash = s.flash := by
  unfold State.updBlock; split <;> rfl
@[simp] theorem State.updBlock_domain (s : State) (uid : Nat) (f : Block → Block) : (s.updBlock uid f).domain = s.domain := by
  unfold State.updBlock; split <;> rfl
@[simp] theorem State.updBlock_lanes (s : State) (uid : Nat) (f : Block → Block) : (s.updBlock uid f).lanes = s.lanes := by
  unfold State.updBlock; split <;> rfl
@[simp] theorem State.updBlock_dbgDomains (s : State) (uid : Nat) (f : Block → Block) : (s.updBlock uid f).dbgDomains = s.dbgDomains := by
  unfold State.updBlock; split <;> rfl

@[simp] theorem State.setCluster_now (s : State) (c : Cluster) : (s.setCluster c).now = s.now := rfl
@[simp] theorem State.setCluster_agenda (s : State) (c : Cluster) : (s.setCluster c).agenda = s.agenda := rfl
@[simp] theorem State.setCluster_cur (s : State) (c : Cluster) : (s.setCluster c).cur = s.cur := rfl
@[simp] theorem State.setCluster_nextUid (s : State) (c : Cluster) : (s.setCluster c).nextUid = s.nextUid := rfl
@[simp] theorem State.setCluster_nextOp (s : State) (c : Cluster) : (s.setCluster c).nextOp = s.nextOp := rfl
@[simp] theorem State.setCluster_mem (s : State) (c : Cluster) : (s.setCluster c).mem = s.mem := rfl
@[simp] theorem State.setCluster_oldLines (s : State) (c : Cluster) : (s.setCluster c).oldLines = s.oldLines := rfl
@[simp] theorem State.setCluster_bad (s : State) (c : Cluster) : (s.setCluster c).bad = s.bad := rfl
@[simp] theorem State.setCluster_hostCopy (s : State) (c : Cluster) : (s.setCluster c).hostCopy = s.hostCopy := rfl
@[simp] theorem State.setCluster_mapped (s : State) (c : Cluster) : (s.setCluster c).mapped = s.mapped := rfl
@[simp] theorem State.setCluster_gangs (s : State) (c : Cluster) : (s.setCluster c).gangs = s.gangs := rfl
@[simp] theorem State.setCluster_blocks (s : State) (c : Cluster) : (s.setCluster c).blocks = s.blocks := rfl
@[simp] theorem State.setCluster_grids (s : State) (c : Cluster) : (s.setCluster c).grids = s.grids := rfl
@[simp] theorem State.setCluster_roots (s : State) (c : Cluster) : (s.setCluster c).roots = s.roots := rfl
@[simp] theorem State.setCluster_cores (s : State) (c : Cluster) : (s.setCluster c).cores = s.cores := rfl
@[simp] theorem State.setCluster_proofs (s : State) (c : Cluster) : (s.setCluster c).proofs = s.proofs := rfl
@[simp] theorem State.setCluster_tlb (s : State) (c : Cluster) : (s.setCluster c).tlb = s.tlb := rfl
@[simp] theorem State.setCluster_ats (s : State) (c : Cluster) : (s.setCluster c).ats = s.ats := rfl
@[simp] theorem State.setCluster_pri (s : State) (c : Cluster) : (s.setCluster c).pri = s.pri := rfl
@[simp] theorem State.setCluster_queues (s : State) (c : Cluster) : (s.setCluster c).queues = s.queues := rfl
@[simp] theorem State.setCluster_host (s : State) (c : Cluster) : (s.setCluster c).host = s.host := rfl
@[simp] theorem State.setCluster_flash (s : State) (c : Cluster) : (s.setCluster c).flash = s.flash := rfl
@[simp] theorem State.setCluster_domain (s : State) (c : Cluster) : (s.setCluster c).domain = s.domain := rfl
@[simp] theorem State.setCluster_lanes (s : State) (c : Cluster) : (s.setCluster c).lanes = s.lanes := rfl
@[simp] theorem State.setCluster_dbgDomains (s : State) (c : Cluster) : (s.setCluster c).dbgDomains = s.dbgDomains := rfl

@[simp] theorem State.updCluster_now (s : State) (uid : Nat) (f : Cluster → Cluster) : (s.updCluster uid f).now = s.now := by
  unfold State.updCluster; split <;> rfl
@[simp] theorem State.updCluster_agenda (s : State) (uid : Nat) (f : Cluster → Cluster) : (s.updCluster uid f).agenda = s.agenda := by
  unfold State.updCluster; split <;> rfl
@[simp] theorem State.updCluster_cur (s : State) (uid : Nat) (f : Cluster → Cluster) : (s.updCluster uid f).cur = s.cur := by
  unfold State.updCluster; split <;> rfl
@[simp] theorem State.updCluster_nextUid (s : State) (uid : Nat) (f : Cluster → Cluster) : (s.updCluster uid f).nextUid = s.nextUid := by
  unfold State.updCluster; split <;> rfl
@[simp] theorem State.updCluster_nextOp (s : State) (uid : Nat) (f : Cluster → Cluster) : (s.updCluster uid f).nextOp = s.nextOp := by
  unfold State.updCluster; split <;> rfl
@[simp] theorem State.updCluster_mem (s : State) (uid : Nat) (f : Cluster → Cluster) : (s.updCluster uid f).mem = s.mem := by
  unfold State.updCluster; split <;> rfl
@[simp] theorem State.updCluster_oldLines (s : State) (uid : Nat) (f : Cluster → Cluster) : (s.updCluster uid f).oldLines = s.oldLines := by
  unfold State.updCluster; split <;> rfl
@[simp] theorem State.updCluster_bad (s : State) (uid : Nat) (f : Cluster → Cluster) : (s.updCluster uid f).bad = s.bad := by
  unfold State.updCluster; split <;> rfl
@[simp] theorem State.updCluster_hostCopy (s : State) (uid : Nat) (f : Cluster → Cluster) : (s.updCluster uid f).hostCopy = s.hostCopy := by
  unfold State.updCluster; split <;> rfl
@[simp] theorem State.updCluster_mapped (s : State) (uid : Nat) (f : Cluster → Cluster) : (s.updCluster uid f).mapped = s.mapped := by
  unfold State.updCluster; split <;> rfl
@[simp] theorem State.updCluster_gangs (s : State) (uid : Nat) (f : Cluster → Cluster) : (s.updCluster uid f).gangs = s.gangs := by
  unfold State.updCluster; split <;> rfl
@[simp] theorem State.updCluster_blocks (s : State) (uid : Nat) (f : Cluster → Cluster) : (s.updCluster uid f).blocks = s.blocks := by
  unfold State.updCluster; split <;> rfl
@[simp] theorem State.updCluster_grids (s : State) (uid : Nat) (f : Cluster → Cluster) : (s.updCluster uid f).grids = s.grids := by
  unfold State.updCluster; split <;> rfl
@[simp] theorem State.updCluster_roots (s : State) (uid : Nat) (f : Cluster → Cluster) : (s.updCluster uid f).roots = s.roots := by
  unfold State.updCluster; split <;> rfl
@[simp] theorem State.updCluster_cores (s : State) (uid : Nat) (f : Cluster → Cluster) : (s.updCluster uid f).cores = s.cores := by
  unfold State.updCluster; split <;> rfl
@[simp] theorem State.updCluster_proofs (s : State) (uid : Nat) (f : Cluster → Cluster) : (s.updCluster uid f).proofs = s.proofs := by
  unfold State.updCluster; split <;> rfl
@[simp] theorem State.updCluster_tlb (s : State) (uid : Nat) (f : Cluster → Cluster) : (s.updCluster uid f).tlb = s.tlb := by
  unfold State.updCluster; split <;> rfl
@[simp] theorem State.updCluster_ats (s : State) (uid : Nat) (f : Cluster → Cluster) : (s.updCluster uid f).ats = s.ats := by
  unfold State.updCluster; split <;> rfl
@[simp] theorem State.updCluster_pri (s : State) (uid : Nat) (f : Cluster → Cluster) : (s.updCluster uid f).pri = s.pri := by
  unfold State.updCluster; split <;> rfl
@[simp] theorem State.updCluster_queues (s : State) (uid : Nat) (f : Cluster → Cluster) : (s.updCluster uid f).queues = s.queues := by
  unfold State.updCluster; split <;> rfl
@[simp] theorem State.updCluster_host (s : State) (uid : Nat) (f : Cluster → Cluster) : (s.updCluster uid f).host = s.host := by
  unfold State.updCluster; split <;> rfl
@[simp] theorem State.updCluster_flash (s : State) (uid : Nat) (f : Cluster → Cluster) : (s.updCluster uid f).flash = s.flash := by
  unfold State.updCluster; split <;> rfl
@[simp] theorem State.updCluster_domain (s : State) (uid : Nat) (f : Cluster → Cluster) : (s.updCluster uid f).domain = s.domain := by
  unfold State.updCluster; split <;> rfl
@[simp] theorem State.updCluster_lanes (s : State) (uid : Nat) (f : Cluster → Cluster) : (s.updCluster uid f).lanes = s.lanes := by
  unfold State.updCluster; split <;> rfl
@[simp] theorem State.updCluster_dbgDomains (s : State) (uid : Nat) (f : Cluster → Cluster) : (s.updCluster uid f).dbgDomains = s.dbgDomains := by
  unfold State.updCluster; split <;> rfl

@[simp] theorem State.setGrid_now (s : State) (g : Grid) : (s.setGrid g).now = s.now := rfl
@[simp] theorem State.setGrid_agenda (s : State) (g : Grid) : (s.setGrid g).agenda = s.agenda := rfl
@[simp] theorem State.setGrid_cur (s : State) (g : Grid) : (s.setGrid g).cur = s.cur := rfl
@[simp] theorem State.setGrid_nextUid (s : State) (g : Grid) : (s.setGrid g).nextUid = s.nextUid := rfl
@[simp] theorem State.setGrid_nextOp (s : State) (g : Grid) : (s.setGrid g).nextOp = s.nextOp := rfl
@[simp] theorem State.setGrid_mem (s : State) (g : Grid) : (s.setGrid g).mem = s.mem := rfl
@[simp] theorem State.setGrid_oldLines (s : State) (g : Grid) : (s.setGrid g).oldLines = s.oldLines := rfl
@[simp] theorem State.setGrid_bad (s : State) (g : Grid) : (s.setGrid g).bad = s.bad := rfl
@[simp] theorem State.setGrid_hostCopy (s : State) (g : Grid) : (s.setGrid g).hostCopy = s.hostCopy := rfl
@[simp] theorem State.setGrid_mapped (s : State) (g : Grid) : (s.setGrid g).mapped = s.mapped := rfl
@[simp] theorem State.setGrid_gangs (s : State) (g : Grid) : (s.setGrid g).gangs = s.gangs := rfl
@[simp] theorem State.setGrid_blocks (s : State) (g : Grid) : (s.setGrid g).blocks = s.blocks := rfl
@[simp] theorem State.setGrid_clusters (s : State) (g : Grid) : (s.setGrid g).clusters = s.clusters := rfl
@[simp] theorem State.setGrid_roots (s : State) (g : Grid) : (s.setGrid g).roots = s.roots := rfl
@[simp] theorem State.setGrid_cores (s : State) (g : Grid) : (s.setGrid g).cores = s.cores := rfl
@[simp] theorem State.setGrid_proofs (s : State) (g : Grid) : (s.setGrid g).proofs = s.proofs := rfl
@[simp] theorem State.setGrid_tlb (s : State) (g : Grid) : (s.setGrid g).tlb = s.tlb := rfl
@[simp] theorem State.setGrid_ats (s : State) (g : Grid) : (s.setGrid g).ats = s.ats := rfl
@[simp] theorem State.setGrid_pri (s : State) (g : Grid) : (s.setGrid g).pri = s.pri := rfl
@[simp] theorem State.setGrid_queues (s : State) (g : Grid) : (s.setGrid g).queues = s.queues := rfl
@[simp] theorem State.setGrid_host (s : State) (g : Grid) : (s.setGrid g).host = s.host := rfl
@[simp] theorem State.setGrid_flash (s : State) (g : Grid) : (s.setGrid g).flash = s.flash := rfl
@[simp] theorem State.setGrid_domain (s : State) (g : Grid) : (s.setGrid g).domain = s.domain := rfl
@[simp] theorem State.setGrid_lanes (s : State) (g : Grid) : (s.setGrid g).lanes = s.lanes := rfl
@[simp] theorem State.setGrid_dbgDomains (s : State) (g : Grid) : (s.setGrid g).dbgDomains = s.dbgDomains := rfl

@[simp] theorem State.updGrid_now (s : State) (uid : Nat) (f : Grid → Grid) : (s.updGrid uid f).now = s.now := by
  unfold State.updGrid; split <;> rfl
@[simp] theorem State.updGrid_agenda (s : State) (uid : Nat) (f : Grid → Grid) : (s.updGrid uid f).agenda = s.agenda := by
  unfold State.updGrid; split <;> rfl
@[simp] theorem State.updGrid_cur (s : State) (uid : Nat) (f : Grid → Grid) : (s.updGrid uid f).cur = s.cur := by
  unfold State.updGrid; split <;> rfl
@[simp] theorem State.updGrid_nextUid (s : State) (uid : Nat) (f : Grid → Grid) : (s.updGrid uid f).nextUid = s.nextUid := by
  unfold State.updGrid; split <;> rfl
@[simp] theorem State.updGrid_nextOp (s : State) (uid : Nat) (f : Grid → Grid) : (s.updGrid uid f).nextOp = s.nextOp := by
  unfold State.updGrid; split <;> rfl
@[simp] theorem State.updGrid_mem (s : State) (uid : Nat) (f : Grid → Grid) : (s.updGrid uid f).mem = s.mem := by
  unfold State.updGrid; split <;> rfl
@[simp] theorem State.updGrid_oldLines (s : State) (uid : Nat) (f : Grid → Grid) : (s.updGrid uid f).oldLines = s.oldLines := by
  unfold State.updGrid; split <;> rfl
@[simp] theorem State.updGrid_bad (s : State) (uid : Nat) (f : Grid → Grid) : (s.updGrid uid f).bad = s.bad := by
  unfold State.updGrid; split <;> rfl
@[simp] theorem State.updGrid_hostCopy (s : State) (uid : Nat) (f : Grid → Grid) : (s.updGrid uid f).hostCopy = s.hostCopy := by
  unfold State.updGrid; split <;> rfl
@[simp] theorem State.updGrid_mapped (s : State) (uid : Nat) (f : Grid → Grid) : (s.updGrid uid f).mapped = s.mapped := by
  unfold State.updGrid; split <;> rfl
@[simp] theorem State.updGrid_gangs (s : State) (uid : Nat) (f : Grid → Grid) : (s.updGrid uid f).gangs = s.gangs := by
  unfold State.updGrid; split <;> rfl
@[simp] theorem State.updGrid_blocks (s : State) (uid : Nat) (f : Grid → Grid) : (s.updGrid uid f).blocks = s.blocks := by
  unfold State.updGrid; split <;> rfl
@[simp] theorem State.updGrid_clusters (s : State) (uid : Nat) (f : Grid → Grid) : (s.updGrid uid f).clusters = s.clusters := by
  unfold State.updGrid; split <;> rfl
@[simp] theorem State.updGrid_roots (s : State) (uid : Nat) (f : Grid → Grid) : (s.updGrid uid f).roots = s.roots := by
  unfold State.updGrid; split <;> rfl
@[simp] theorem State.updGrid_cores (s : State) (uid : Nat) (f : Grid → Grid) : (s.updGrid uid f).cores = s.cores := by
  unfold State.updGrid; split <;> rfl
@[simp] theorem State.updGrid_proofs (s : State) (uid : Nat) (f : Grid → Grid) : (s.updGrid uid f).proofs = s.proofs := by
  unfold State.updGrid; split <;> rfl
@[simp] theorem State.updGrid_tlb (s : State) (uid : Nat) (f : Grid → Grid) : (s.updGrid uid f).tlb = s.tlb := by
  unfold State.updGrid; split <;> rfl
@[simp] theorem State.updGrid_ats (s : State) (uid : Nat) (f : Grid → Grid) : (s.updGrid uid f).ats = s.ats := by
  unfold State.updGrid; split <;> rfl
@[simp] theorem State.updGrid_pri (s : State) (uid : Nat) (f : Grid → Grid) : (s.updGrid uid f).pri = s.pri := by
  unfold State.updGrid; split <;> rfl
@[simp] theorem State.updGrid_queues (s : State) (uid : Nat) (f : Grid → Grid) : (s.updGrid uid f).queues = s.queues := by
  unfold State.updGrid; split <;> rfl
@[simp] theorem State.updGrid_host (s : State) (uid : Nat) (f : Grid → Grid) : (s.updGrid uid f).host = s.host := by
  unfold State.updGrid; split <;> rfl
@[simp] theorem State.updGrid_flash (s : State) (uid : Nat) (f : Grid → Grid) : (s.updGrid uid f).flash = s.flash := by
  unfold State.updGrid; split <;> rfl
@[simp] theorem State.updGrid_domain (s : State) (uid : Nat) (f : Grid → Grid) : (s.updGrid uid f).domain = s.domain := by
  unfold State.updGrid; split <;> rfl
@[simp] theorem State.updGrid_lanes (s : State) (uid : Nat) (f : Grid → Grid) : (s.updGrid uid f).lanes = s.lanes := by
  unfold State.updGrid; split <;> rfl
@[simp] theorem State.updGrid_dbgDomains (s : State) (uid : Nat) (f : Grid → Grid) : (s.updGrid uid f).dbgDomains = s.dbgDomains := by
  unfold State.updGrid; split <;> rfl

@[simp] theorem State.setRoot_now (s : State) (r : Root) : (s.setRoot r).now = s.now := rfl
@[simp] theorem State.setRoot_agenda (s : State) (r : Root) : (s.setRoot r).agenda = s.agenda := rfl
@[simp] theorem State.setRoot_cur (s : State) (r : Root) : (s.setRoot r).cur = s.cur := rfl
@[simp] theorem State.setRoot_nextUid (s : State) (r : Root) : (s.setRoot r).nextUid = s.nextUid := rfl
@[simp] theorem State.setRoot_nextOp (s : State) (r : Root) : (s.setRoot r).nextOp = s.nextOp := rfl
@[simp] theorem State.setRoot_mem (s : State) (r : Root) : (s.setRoot r).mem = s.mem := rfl
@[simp] theorem State.setRoot_oldLines (s : State) (r : Root) : (s.setRoot r).oldLines = s.oldLines := rfl
@[simp] theorem State.setRoot_bad (s : State) (r : Root) : (s.setRoot r).bad = s.bad := rfl
@[simp] theorem State.setRoot_hostCopy (s : State) (r : Root) : (s.setRoot r).hostCopy = s.hostCopy := rfl
@[simp] theorem State.setRoot_mapped (s : State) (r : Root) : (s.setRoot r).mapped = s.mapped := rfl
@[simp] theorem State.setRoot_gangs (s : State) (r : Root) : (s.setRoot r).gangs = s.gangs := rfl
@[simp] theorem State.setRoot_blocks (s : State) (r : Root) : (s.setRoot r).blocks = s.blocks := rfl
@[simp] theorem State.setRoot_clusters (s : State) (r : Root) : (s.setRoot r).clusters = s.clusters := rfl
@[simp] theorem State.setRoot_grids (s : State) (r : Root) : (s.setRoot r).grids = s.grids := rfl
@[simp] theorem State.setRoot_cores (s : State) (r : Root) : (s.setRoot r).cores = s.cores := rfl
@[simp] theorem State.setRoot_proofs (s : State) (r : Root) : (s.setRoot r).proofs = s.proofs := rfl
@[simp] theorem State.setRoot_tlb (s : State) (r : Root) : (s.setRoot r).tlb = s.tlb := rfl
@[simp] theorem State.setRoot_ats (s : State) (r : Root) : (s.setRoot r).ats = s.ats := rfl
@[simp] theorem State.setRoot_pri (s : State) (r : Root) : (s.setRoot r).pri = s.pri := rfl
@[simp] theorem State.setRoot_queues (s : State) (r : Root) : (s.setRoot r).queues = s.queues := rfl
@[simp] theorem State.setRoot_host (s : State) (r : Root) : (s.setRoot r).host = s.host := rfl
@[simp] theorem State.setRoot_flash (s : State) (r : Root) : (s.setRoot r).flash = s.flash := rfl
@[simp] theorem State.setRoot_domain (s : State) (r : Root) : (s.setRoot r).domain = s.domain := rfl
@[simp] theorem State.setRoot_lanes (s : State) (r : Root) : (s.setRoot r).lanes = s.lanes := rfl
@[simp] theorem State.setRoot_dbgDomains (s : State) (r : Root) : (s.setRoot r).dbgDomains = s.dbgDomains := rfl

@[simp] theorem State.updRoot_now (s : State) (grid : Nat) (f : Root → Root) : (s.updRoot grid f).now = s.now := by
  unfold State.updRoot; split <;> rfl
@[simp] theorem State.updRoot_agenda (s : State) (grid : Nat) (f : Root → Root) : (s.updRoot grid f).agenda = s.agenda := by
  unfold State.updRoot; split <;> rfl
@[simp] theorem State.updRoot_cur (s : State) (grid : Nat) (f : Root → Root) : (s.updRoot grid f).cur = s.cur := by
  unfold State.updRoot; split <;> rfl
@[simp] theorem State.updRoot_nextUid (s : State) (grid : Nat) (f : Root → Root) : (s.updRoot grid f).nextUid = s.nextUid := by
  unfold State.updRoot; split <;> rfl
@[simp] theorem State.updRoot_nextOp (s : State) (grid : Nat) (f : Root → Root) : (s.updRoot grid f).nextOp = s.nextOp := by
  unfold State.updRoot; split <;> rfl
@[simp] theorem State.updRoot_mem (s : State) (grid : Nat) (f : Root → Root) : (s.updRoot grid f).mem = s.mem := by
  unfold State.updRoot; split <;> rfl
@[simp] theorem State.updRoot_oldLines (s : State) (grid : Nat) (f : Root → Root) : (s.updRoot grid f).oldLines = s.oldLines := by
  unfold State.updRoot; split <;> rfl
@[simp] theorem State.updRoot_bad (s : State) (grid : Nat) (f : Root → Root) : (s.updRoot grid f).bad = s.bad := by
  unfold State.updRoot; split <;> rfl
@[simp] theorem State.updRoot_hostCopy (s : State) (grid : Nat) (f : Root → Root) : (s.updRoot grid f).hostCopy = s.hostCopy := by
  unfold State.updRoot; split <;> rfl
@[simp] theorem State.updRoot_mapped (s : State) (grid : Nat) (f : Root → Root) : (s.updRoot grid f).mapped = s.mapped := by
  unfold State.updRoot; split <;> rfl
@[simp] theorem State.updRoot_gangs (s : State) (grid : Nat) (f : Root → Root) : (s.updRoot grid f).gangs = s.gangs := by
  unfold State.updRoot; split <;> rfl
@[simp] theorem State.updRoot_blocks (s : State) (grid : Nat) (f : Root → Root) : (s.updRoot grid f).blocks = s.blocks := by
  unfold State.updRoot; split <;> rfl
@[simp] theorem State.updRoot_clusters (s : State) (grid : Nat) (f : Root → Root) : (s.updRoot grid f).clusters = s.clusters := by
  unfold State.updRoot; split <;> rfl
@[simp] theorem State.updRoot_grids (s : State) (grid : Nat) (f : Root → Root) : (s.updRoot grid f).grids = s.grids := by
  unfold State.updRoot; split <;> rfl
@[simp] theorem State.updRoot_cores (s : State) (grid : Nat) (f : Root → Root) : (s.updRoot grid f).cores = s.cores := by
  unfold State.updRoot; split <;> rfl
@[simp] theorem State.updRoot_proofs (s : State) (grid : Nat) (f : Root → Root) : (s.updRoot grid f).proofs = s.proofs := by
  unfold State.updRoot; split <;> rfl
@[simp] theorem State.updRoot_tlb (s : State) (grid : Nat) (f : Root → Root) : (s.updRoot grid f).tlb = s.tlb := by
  unfold State.updRoot; split <;> rfl
@[simp] theorem State.updRoot_ats (s : State) (grid : Nat) (f : Root → Root) : (s.updRoot grid f).ats = s.ats := by
  unfold State.updRoot; split <;> rfl
@[simp] theorem State.updRoot_pri (s : State) (grid : Nat) (f : Root → Root) : (s.updRoot grid f).pri = s.pri := by
  unfold State.updRoot; split <;> rfl
@[simp] theorem State.updRoot_queues (s : State) (grid : Nat) (f : Root → Root) : (s.updRoot grid f).queues = s.queues := by
  unfold State.updRoot; split <;> rfl
@[simp] theorem State.updRoot_host (s : State) (grid : Nat) (f : Root → Root) : (s.updRoot grid f).host = s.host := by
  unfold State.updRoot; split <;> rfl
@[simp] theorem State.updRoot_flash (s : State) (grid : Nat) (f : Root → Root) : (s.updRoot grid f).flash = s.flash := by
  unfold State.updRoot; split <;> rfl
@[simp] theorem State.updRoot_domain (s : State) (grid : Nat) (f : Root → Root) : (s.updRoot grid f).domain = s.domain := by
  unfold State.updRoot; split <;> rfl
@[simp] theorem State.updRoot_lanes (s : State) (grid : Nat) (f : Root → Root) : (s.updRoot grid f).lanes = s.lanes := by
  unfold State.updRoot; split <;> rfl
@[simp] theorem State.updRoot_dbgDomains (s : State) (grid : Nat) (f : Root → Root) : (s.updRoot grid f).dbgDomains = s.dbgDomains := by
  unfold State.updRoot; split <;> rfl

@[simp] theorem State.setCore_now (s : State) (c : Core) : (s.setCore c).now = s.now := rfl
@[simp] theorem State.setCore_agenda (s : State) (c : Core) : (s.setCore c).agenda = s.agenda := rfl
@[simp] theorem State.setCore_cur (s : State) (c : Core) : (s.setCore c).cur = s.cur := rfl
@[simp] theorem State.setCore_nextUid (s : State) (c : Core) : (s.setCore c).nextUid = s.nextUid := rfl
@[simp] theorem State.setCore_nextOp (s : State) (c : Core) : (s.setCore c).nextOp = s.nextOp := rfl
@[simp] theorem State.setCore_mem (s : State) (c : Core) : (s.setCore c).mem = s.mem := rfl
@[simp] theorem State.setCore_oldLines (s : State) (c : Core) : (s.setCore c).oldLines = s.oldLines := rfl
@[simp] theorem State.setCore_bad (s : State) (c : Core) : (s.setCore c).bad = s.bad := rfl
@[simp] theorem State.setCore_hostCopy (s : State) (c : Core) : (s.setCore c).hostCopy = s.hostCopy := rfl
@[simp] theorem State.setCore_mapped (s : State) (c : Core) : (s.setCore c).mapped = s.mapped := rfl
@[simp] theorem State.setCore_gangs (s : State) (c : Core) : (s.setCore c).gangs = s.gangs := rfl
@[simp] theorem State.setCore_blocks (s : State) (c : Core) : (s.setCore c).blocks = s.blocks := rfl
@[simp] theorem State.setCore_clusters (s : State) (c : Core) : (s.setCore c).clusters = s.clusters := rfl
@[simp] theorem State.setCore_grids (s : State) (c : Core) : (s.setCore c).grids = s.grids := rfl
@[simp] theorem State.setCore_roots (s : State) (c : Core) : (s.setCore c).roots = s.roots := rfl
@[simp] theorem State.setCore_proofs (s : State) (c : Core) : (s.setCore c).proofs = s.proofs := rfl
@[simp] theorem State.setCore_tlb (s : State) (c : Core) : (s.setCore c).tlb = s.tlb := rfl
@[simp] theorem State.setCore_ats (s : State) (c : Core) : (s.setCore c).ats = s.ats := rfl
@[simp] theorem State.setCore_pri (s : State) (c : Core) : (s.setCore c).pri = s.pri := rfl
@[simp] theorem State.setCore_queues (s : State) (c : Core) : (s.setCore c).queues = s.queues := rfl
@[simp] theorem State.setCore_host (s : State) (c : Core) : (s.setCore c).host = s.host := rfl
@[simp] theorem State.setCore_flash (s : State) (c : Core) : (s.setCore c).flash = s.flash := rfl
@[simp] theorem State.setCore_domain (s : State) (c : Core) : (s.setCore c).domain = s.domain := rfl
@[simp] theorem State.setCore_lanes (s : State) (c : Core) : (s.setCore c).lanes = s.lanes := rfl
@[simp] theorem State.setCore_dbgDomains (s : State) (c : Core) : (s.setCore c).dbgDomains = s.dbgDomains := rfl

@[simp] theorem State.updCore_now (s : State) (key : Nat) (f : Core → Core) : (s.updCore key f).now = s.now := by
  unfold State.updCore; split <;> rfl
@[simp] theorem State.updCore_agenda (s : State) (key : Nat) (f : Core → Core) : (s.updCore key f).agenda = s.agenda := by
  unfold State.updCore; split <;> rfl
@[simp] theorem State.updCore_cur (s : State) (key : Nat) (f : Core → Core) : (s.updCore key f).cur = s.cur := by
  unfold State.updCore; split <;> rfl
@[simp] theorem State.updCore_nextUid (s : State) (key : Nat) (f : Core → Core) : (s.updCore key f).nextUid = s.nextUid := by
  unfold State.updCore; split <;> rfl
@[simp] theorem State.updCore_nextOp (s : State) (key : Nat) (f : Core → Core) : (s.updCore key f).nextOp = s.nextOp := by
  unfold State.updCore; split <;> rfl
@[simp] theorem State.updCore_mem (s : State) (key : Nat) (f : Core → Core) : (s.updCore key f).mem = s.mem := by
  unfold State.updCore; split <;> rfl
@[simp] theorem State.updCore_oldLines (s : State) (key : Nat) (f : Core → Core) : (s.updCore key f).oldLines = s.oldLines := by
  unfold State.updCore; split <;> rfl
@[simp] theorem State.updCore_bad (s : State) (key : Nat) (f : Core → Core) : (s.updCore key f).bad = s.bad := by
  unfold State.updCore; split <;> rfl
@[simp] theorem State.updCore_hostCopy (s : State) (key : Nat) (f : Core → Core) : (s.updCore key f).hostCopy = s.hostCopy := by
  unfold State.updCore; split <;> rfl
@[simp] theorem State.updCore_mapped (s : State) (key : Nat) (f : Core → Core) : (s.updCore key f).mapped = s.mapped := by
  unfold State.updCore; split <;> rfl
@[simp] theorem State.updCore_gangs (s : State) (key : Nat) (f : Core → Core) : (s.updCore key f).gangs = s.gangs := by
  unfold State.updCore; split <;> rfl
@[simp] theorem State.updCore_blocks (s : State) (key : Nat) (f : Core → Core) : (s.updCore key f).blocks = s.blocks := by
  unfold State.updCore; split <;> rfl
@[simp] theorem State.updCore_clusters (s : State) (key : Nat) (f : Core → Core) : (s.updCore key f).clusters = s.clusters := by
  unfold State.updCore; split <;> rfl
@[simp] theorem State.updCore_grids (s : State) (key : Nat) (f : Core → Core) : (s.updCore key f).grids = s.grids := by
  unfold State.updCore; split <;> rfl
@[simp] theorem State.updCore_roots (s : State) (key : Nat) (f : Core → Core) : (s.updCore key f).roots = s.roots := by
  unfold State.updCore; split <;> rfl
@[simp] theorem State.updCore_proofs (s : State) (key : Nat) (f : Core → Core) : (s.updCore key f).proofs = s.proofs := by
  unfold State.updCore; split <;> rfl
@[simp] theorem State.updCore_tlb (s : State) (key : Nat) (f : Core → Core) : (s.updCore key f).tlb = s.tlb := by
  unfold State.updCore; split <;> rfl
@[simp] theorem State.updCore_ats (s : State) (key : Nat) (f : Core → Core) : (s.updCore key f).ats = s.ats := by
  unfold State.updCore; split <;> rfl
@[simp] theorem State.updCore_pri (s : State) (key : Nat) (f : Core → Core) : (s.updCore key f).pri = s.pri := by
  unfold State.updCore; split <;> rfl
@[simp] theorem State.updCore_queues (s : State) (key : Nat) (f : Core → Core) : (s.updCore key f).queues = s.queues := by
  unfold State.updCore; split <;> rfl
@[simp] theorem State.updCore_host (s : State) (key : Nat) (f : Core → Core) : (s.updCore key f).host = s.host := by
  unfold State.updCore; split <;> rfl
@[simp] theorem State.updCore_flash (s : State) (key : Nat) (f : Core → Core) : (s.updCore key f).flash = s.flash := by
  unfold State.updCore; split <;> rfl
@[simp] theorem State.updCore_domain (s : State) (key : Nat) (f : Core → Core) : (s.updCore key f).domain = s.domain := by
  unfold State.updCore; split <;> rfl
@[simp] theorem State.updCore_lanes (s : State) (key : Nat) (f : Core → Core) : (s.updCore key f).lanes = s.lanes := by
  unfold State.updCore; split <;> rfl
@[simp] theorem State.updCore_dbgDomains (s : State) (key : Nat) (f : Core → Core) : (s.updCore key f).dbgDomains = s.dbgDomains := by
  unfold State.updCore; split <;> rfl

@[simp] theorem State.setProof_now (s : State) (p : Proof) : (s.setProof p).now = s.now := rfl
@[simp] theorem State.setProof_agenda (s : State) (p : Proof) : (s.setProof p).agenda = s.agenda := rfl
@[simp] theorem State.setProof_cur (s : State) (p : Proof) : (s.setProof p).cur = s.cur := rfl
@[simp] theorem State.setProof_nextUid (s : State) (p : Proof) : (s.setProof p).nextUid = s.nextUid := rfl
@[simp] theorem State.setProof_nextOp (s : State) (p : Proof) : (s.setProof p).nextOp = s.nextOp := rfl
@[simp] theorem State.setProof_mem (s : State) (p : Proof) : (s.setProof p).mem = s.mem := rfl
@[simp] theorem State.setProof_oldLines (s : State) (p : Proof) : (s.setProof p).oldLines = s.oldLines := rfl
@[simp] theorem State.setProof_bad (s : State) (p : Proof) : (s.setProof p).bad = s.bad := rfl
@[simp] theorem State.setProof_hostCopy (s : State) (p : Proof) : (s.setProof p).hostCopy = s.hostCopy := rfl
@[simp] theorem State.setProof_mapped (s : State) (p : Proof) : (s.setProof p).mapped = s.mapped := rfl
@[simp] theorem State.setProof_gangs (s : State) (p : Proof) : (s.setProof p).gangs = s.gangs := rfl
@[simp] theorem State.setProof_blocks (s : State) (p : Proof) : (s.setProof p).blocks = s.blocks := rfl
@[simp] theorem State.setProof_clusters (s : State) (p : Proof) : (s.setProof p).clusters = s.clusters := rfl
@[simp] theorem State.setProof_grids (s : State) (p : Proof) : (s.setProof p).grids = s.grids := rfl
@[simp] theorem State.setProof_roots (s : State) (p : Proof) : (s.setProof p).roots = s.roots := rfl
@[simp] theorem State.setProof_cores (s : State) (p : Proof) : (s.setProof p).cores = s.cores := rfl
@[simp] theorem State.setProof_tlb (s : State) (p : Proof) : (s.setProof p).tlb = s.tlb := rfl
@[simp] theorem State.setProof_ats (s : State) (p : Proof) : (s.setProof p).ats = s.ats := rfl
@[simp] theorem State.setProof_pri (s : State) (p : Proof) : (s.setProof p).pri = s.pri := rfl
@[simp] theorem State.setProof_queues (s : State) (p : Proof) : (s.setProof p).queues = s.queues := rfl
@[simp] theorem State.setProof_host (s : State) (p : Proof) : (s.setProof p).host = s.host := rfl
@[simp] theorem State.setProof_flash (s : State) (p : Proof) : (s.setProof p).flash = s.flash := rfl
@[simp] theorem State.setProof_domain (s : State) (p : Proof) : (s.setProof p).domain = s.domain := rfl
@[simp] theorem State.setProof_lanes (s : State) (p : Proof) : (s.setProof p).lanes = s.lanes := rfl
@[simp] theorem State.setProof_dbgDomains (s : State) (p : Proof) : (s.setProof p).dbgDomains = s.dbgDomains := rfl

@[simp] theorem State.updProof_now (s : State) (key : Nat) (f : Proof → Proof) : (s.updProof key f).now = s.now := by
  unfold State.updProof; split <;> rfl
@[simp] theorem State.updProof_agenda (s : State) (key : Nat) (f : Proof → Proof) : (s.updProof key f).agenda = s.agenda := by
  unfold State.updProof; split <;> rfl
@[simp] theorem State.updProof_cur (s : State) (key : Nat) (f : Proof → Proof) : (s.updProof key f).cur = s.cur := by
  unfold State.updProof; split <;> rfl
@[simp] theorem State.updProof_nextUid (s : State) (key : Nat) (f : Proof → Proof) : (s.updProof key f).nextUid = s.nextUid := by
  unfold State.updProof; split <;> rfl
@[simp] theorem State.updProof_nextOp (s : State) (key : Nat) (f : Proof → Proof) : (s.updProof key f).nextOp = s.nextOp := by
  unfold State.updProof; split <;> rfl
@[simp] theorem State.updProof_mem (s : State) (key : Nat) (f : Proof → Proof) : (s.updProof key f).mem = s.mem := by
  unfold State.updProof; split <;> rfl
@[simp] theorem State.updProof_oldLines (s : State) (key : Nat) (f : Proof → Proof) : (s.updProof key f).oldLines = s.oldLines := by
  unfold State.updProof; split <;> rfl
@[simp] theorem State.updProof_bad (s : State) (key : Nat) (f : Proof → Proof) : (s.updProof key f).bad = s.bad := by
  unfold State.updProof; split <;> rfl
@[simp] theorem State.updProof_hostCopy (s : State) (key : Nat) (f : Proof → Proof) : (s.updProof key f).hostCopy = s.hostCopy := by
  unfold State.updProof; split <;> rfl
@[simp] theorem State.updProof_mapped (s : State) (key : Nat) (f : Proof → Proof) : (s.updProof key f).mapped = s.mapped := by
  unfold State.updProof; split <;> rfl
@[simp] theorem State.updProof_gangs (s : State) (key : Nat) (f : Proof → Proof) : (s.updProof key f).gangs = s.gangs := by
  unfold State.updProof; split <;> rfl
@[simp] theorem State.updProof_blocks (s : State) (key : Nat) (f : Proof → Proof) : (s.updProof key f).blocks = s.blocks := by
  unfold State.updProof; split <;> rfl
@[simp] theorem State.updProof_clusters (s : State) (key : Nat) (f : Proof → Proof) : (s.updProof key f).clusters = s.clusters := by
  unfold State.updProof; split <;> rfl
@[simp] theorem State.updProof_grids (s : State) (key : Nat) (f : Proof → Proof) : (s.updProof key f).grids = s.grids := by
  unfold State.updProof; split <;> rfl
@[simp] theorem State.updProof_roots (s : State) (key : Nat) (f : Proof → Proof) : (s.updProof key f).roots = s.roots := by
  unfold State.updProof; split <;> rfl
@[simp] theorem State.updProof_cores (s : State) (key : Nat) (f : Proof → Proof) : (s.updProof key f).cores = s.cores := by
  unfold State.updProof; split <;> rfl
@[simp] theorem State.updProof_tlb (s : State) (key : Nat) (f : Proof → Proof) : (s.updProof key f).tlb = s.tlb := by
  unfold State.updProof; split <;> rfl
@[simp] theorem State.updProof_ats (s : State) (key : Nat) (f : Proof → Proof) : (s.updProof key f).ats = s.ats := by
  unfold State.updProof; split <;> rfl
@[simp] theorem State.updProof_pri (s : State) (key : Nat) (f : Proof → Proof) : (s.updProof key f).pri = s.pri := by
  unfold State.updProof; split <;> rfl
@[simp] theorem State.updProof_queues (s : State) (key : Nat) (f : Proof → Proof) : (s.updProof key f).queues = s.queues := by
  unfold State.updProof; split <;> rfl
@[simp] theorem State.updProof_host (s : State) (key : Nat) (f : Proof → Proof) : (s.updProof key f).host = s.host := by
  unfold State.updProof; split <;> rfl
@[simp] theorem State.updProof_flash (s : State) (key : Nat) (f : Proof → Proof) : (s.updProof key f).flash = s.flash := by
  unfold State.updProof; split <;> rfl
@[simp] theorem State.updProof_domain (s : State) (key : Nat) (f : Proof → Proof) : (s.updProof key f).domain = s.domain := by
  unfold State.updProof; split <;> rfl
@[simp] theorem State.updProof_lanes (s : State) (key : Nat) (f : Proof → Proof) : (s.updProof key f).lanes = s.lanes := by
  unfold State.updProof; split <;> rfl
@[simp] theorem State.updProof_dbgDomains (s : State) (key : Nat) (f : Proof → Proof) : (s.updProof key f).dbgDomains = s.dbgDomains := by
  unfold State.updProof; split <;> rfl

@[simp] theorem State.setQueue_now (s : State) (q : Queue) : (s.setQueue q).now = s.now := rfl
@[simp] theorem State.setQueue_agenda (s : State) (q : Queue) : (s.setQueue q).agenda = s.agenda := rfl
@[simp] theorem State.setQueue_cur (s : State) (q : Queue) : (s.setQueue q).cur = s.cur := rfl
@[simp] theorem State.setQueue_nextUid (s : State) (q : Queue) : (s.setQueue q).nextUid = s.nextUid := rfl
@[simp] theorem State.setQueue_nextOp (s : State) (q : Queue) : (s.setQueue q).nextOp = s.nextOp := rfl
@[simp] theorem State.setQueue_mem (s : State) (q : Queue) : (s.setQueue q).mem = s.mem := rfl
@[simp] theorem State.setQueue_oldLines (s : State) (q : Queue) : (s.setQueue q).oldLines = s.oldLines := rfl
@[simp] theorem State.setQueue_bad (s : State) (q : Queue) : (s.setQueue q).bad = s.bad := rfl
@[simp] theorem State.setQueue_hostCopy (s : State) (q : Queue) : (s.setQueue q).hostCopy = s.hostCopy := rfl
@[simp] theorem State.setQueue_mapped (s : State) (q : Queue) : (s.setQueue q).mapped = s.mapped := rfl
@[simp] theorem State.setQueue_gangs (s : State) (q : Queue) : (s.setQueue q).gangs = s.gangs := rfl
@[simp] theorem State.setQueue_blocks (s : State) (q : Queue) : (s.setQueue q).blocks = s.blocks := rfl
@[simp] theorem State.setQueue_clusters (s : State) (q : Queue) : (s.setQueue q).clusters = s.clusters := rfl
@[simp] theorem State.setQueue_grids (s : State) (q : Queue) : (s.setQueue q).grids = s.grids := rfl
@[simp] theorem State.setQueue_roots (s : State) (q : Queue) : (s.setQueue q).roots = s.roots := rfl
@[simp] theorem State.setQueue_cores (s : State) (q : Queue) : (s.setQueue q).cores = s.cores := rfl
@[simp] theorem State.setQueue_proofs (s : State) (q : Queue) : (s.setQueue q).proofs = s.proofs := rfl
@[simp] theorem State.setQueue_tlb (s : State) (q : Queue) : (s.setQueue q).tlb = s.tlb := rfl
@[simp] theorem State.setQueue_ats (s : State) (q : Queue) : (s.setQueue q).ats = s.ats := rfl
@[simp] theorem State.setQueue_pri (s : State) (q : Queue) : (s.setQueue q).pri = s.pri := rfl
@[simp] theorem State.setQueue_host (s : State) (q : Queue) : (s.setQueue q).host = s.host := rfl
@[simp] theorem State.setQueue_flash (s : State) (q : Queue) : (s.setQueue q).flash = s.flash := rfl
@[simp] theorem State.setQueue_domain (s : State) (q : Queue) : (s.setQueue q).domain = s.domain := rfl
@[simp] theorem State.setQueue_lanes (s : State) (q : Queue) : (s.setQueue q).lanes = s.lanes := rfl
@[simp] theorem State.setQueue_dbgDomains (s : State) (q : Queue) : (s.setQueue q).dbgDomains = s.dbgDomains := rfl

@[simp] theorem State.updQueue_now (s : State) (qnum : Nat) (f : Queue → Queue) : (s.updQueue qnum f).now = s.now := by
  unfold State.updQueue; split <;> rfl
@[simp] theorem State.updQueue_agenda (s : State) (qnum : Nat) (f : Queue → Queue) : (s.updQueue qnum f).agenda = s.agenda := by
  unfold State.updQueue; split <;> rfl
@[simp] theorem State.updQueue_cur (s : State) (qnum : Nat) (f : Queue → Queue) : (s.updQueue qnum f).cur = s.cur := by
  unfold State.updQueue; split <;> rfl
@[simp] theorem State.updQueue_nextUid (s : State) (qnum : Nat) (f : Queue → Queue) : (s.updQueue qnum f).nextUid = s.nextUid := by
  unfold State.updQueue; split <;> rfl
@[simp] theorem State.updQueue_nextOp (s : State) (qnum : Nat) (f : Queue → Queue) : (s.updQueue qnum f).nextOp = s.nextOp := by
  unfold State.updQueue; split <;> rfl
@[simp] theorem State.updQueue_mem (s : State) (qnum : Nat) (f : Queue → Queue) : (s.updQueue qnum f).mem = s.mem := by
  unfold State.updQueue; split <;> rfl
@[simp] theorem State.updQueue_oldLines (s : State) (qnum : Nat) (f : Queue → Queue) : (s.updQueue qnum f).oldLines = s.oldLines := by
  unfold State.updQueue; split <;> rfl
@[simp] theorem State.updQueue_bad (s : State) (qnum : Nat) (f : Queue → Queue) : (s.updQueue qnum f).bad = s.bad := by
  unfold State.updQueue; split <;> rfl
@[simp] theorem State.updQueue_hostCopy (s : State) (qnum : Nat) (f : Queue → Queue) : (s.updQueue qnum f).hostCopy = s.hostCopy := by
  unfold State.updQueue; split <;> rfl
@[simp] theorem State.updQueue_mapped (s : State) (qnum : Nat) (f : Queue → Queue) : (s.updQueue qnum f).mapped = s.mapped := by
  unfold State.updQueue; split <;> rfl
@[simp] theorem State.updQueue_gangs (s : State) (qnum : Nat) (f : Queue → Queue) : (s.updQueue qnum f).gangs = s.gangs := by
  unfold State.updQueue; split <;> rfl
@[simp] theorem State.updQueue_blocks (s : State) (qnum : Nat) (f : Queue → Queue) : (s.updQueue qnum f).blocks = s.blocks := by
  unfold State.updQueue; split <;> rfl
@[simp] theorem State.updQueue_clusters (s : State) (qnum : Nat) (f : Queue → Queue) : (s.updQueue qnum f).clusters = s.clusters := by
  unfold State.updQueue; split <;> rfl
@[simp] theorem State.updQueue_grids (s : State) (qnum : Nat) (f : Queue → Queue) : (s.updQueue qnum f).grids = s.grids := by
  unfold State.updQueue; split <;> rfl
@[simp] theorem State.updQueue_roots (s : State) (qnum : Nat) (f : Queue → Queue) : (s.updQueue qnum f).roots = s.roots := by
  unfold State.updQueue; split <;> rfl
@[simp] theorem State.updQueue_cores (s : State) (qnum : Nat) (f : Queue → Queue) : (s.updQueue qnum f).cores = s.cores := by
  unfold State.updQueue; split <;> rfl
@[simp] theorem State.updQueue_proofs (s : State) (qnum : Nat) (f : Queue → Queue) : (s.updQueue qnum f).proofs = s.proofs := by
  unfold State.updQueue; split <;> rfl
@[simp] theorem State.updQueue_tlb (s : State) (qnum : Nat) (f : Queue → Queue) : (s.updQueue qnum f).tlb = s.tlb := by
  unfold State.updQueue; split <;> rfl
@[simp] theorem State.updQueue_ats (s : State) (qnum : Nat) (f : Queue → Queue) : (s.updQueue qnum f).ats = s.ats := by
  unfold State.updQueue; split <;> rfl
@[simp] theorem State.updQueue_pri (s : State) (qnum : Nat) (f : Queue → Queue) : (s.updQueue qnum f).pri = s.pri := by
  unfold State.updQueue; split <;> rfl
@[simp] theorem State.updQueue_host (s : State) (qnum : Nat) (f : Queue → Queue) : (s.updQueue qnum f).host = s.host := by
  unfold State.updQueue; split <;> rfl
@[simp] theorem State.updQueue_flash (s : State) (qnum : Nat) (f : Queue → Queue) : (s.updQueue qnum f).flash = s.flash := by
  unfold State.updQueue; split <;> rfl
@[simp] theorem State.updQueue_domain (s : State) (qnum : Nat) (f : Queue → Queue) : (s.updQueue qnum f).domain = s.domain := by
  unfold State.updQueue; split <;> rfl
@[simp] theorem State.updQueue_lanes (s : State) (qnum : Nat) (f : Queue → Queue) : (s.updQueue qnum f).lanes = s.lanes := by
  unfold State.updQueue; split <;> rfl
@[simp] theorem State.updQueue_dbgDomains (s : State) (qnum : Nat) (f : Queue → Queue) : (s.updQueue qnum f).dbgDomains = s.dbgDomains := by
  unfold State.updQueue; split <;> rfl

/-! ## Looking up after a replacement -/

/-- Replacing the record of a key in a table: the table with the key's first record replaced. -/
theorem find?_replace {α : Type} (key : α → Nat) (l : List α) (x : α) (k : Nat) :
    (l.map (fun h => if key h == key x then x else h)).find? (fun h => key h == k) =
      (l.find? (fun h => key h == k)).map (fun h => if key h == key x then x else h) := by
  induction l with
  | nil => rfl
  | cons h t ih =>
    rw [List.map_cons, List.find?_cons, List.find?_cons]
    by_cases hx : key h = key x
    · have e : (if key h == key x then x else h) = x := by simp [hx]
      rw [e, hx]
      cases key x == k
      · exact ih
      · simp [hx]
    · have e : (if key h == key x then x else h) = h := by simp [hx]
      rw [e]
      cases key h == k
      · exact ih
      · simp [hx]

theorem State.gang?_setGang (s : State) (g : Gang) (k : Nat) :
    (s.setGang g).gang? k = (s.gang? k).map (fun h => if h.uid == g.uid then g else h) :=
  find?_replace Gang.uid _ g k

theorem State.gang?_uid (s : State) (k : Nat) (g : Gang) (h : s.gang? k = some g) : g.uid = k := by
  simpa using List.find?_some h

/-- The record replaced is the record read. -/
theorem State.gang?_setGang_self (s : State) (g g0 : Gang) (h : s.gang? g.uid = some g0) : (s.setGang g).gang? g.uid = some g := by
  rw [State.gang?_setGang, h]
  simp [State.gang?_uid s _ _ h]

/-- Every other record is unchanged. -/
theorem State.gang?_setGang_other (s : State) (g : Gang) (k : Nat) (hk : k ≠ g.uid) : (s.setGang g).gang? k = s.gang? k := by
  rw [State.gang?_setGang]
  cases h : s.gang? k with
  | none => rfl
  | some x =>
    have := State.gang?_uid s k x h
    simp [this, hk]

theorem State.block?_setBlock (s : State) (b : Block) (k : Nat) :
    (s.setBlock b).block? k = (s.block? k).map (fun h => if h.uid == b.uid then b else h) :=
  find?_replace Block.uid _ b k

theorem State.block?_uid (s : State) (k : Nat) (b : Block) (h : s.block? k = some b) : b.uid = k := by
  simpa using List.find?_some h

/-- The record replaced is the record read. -/
theorem State.block?_setBlock_self (s : State) (b b0 : Block) (h : s.block? b.uid = some b0) : (s.setBlock b).block? b.uid = some b := by
  rw [State.block?_setBlock, h]
  simp [State.block?_uid s _ _ h]

/-- Every other record is unchanged. -/
theorem State.block?_setBlock_other (s : State) (b : Block) (k : Nat) (hk : k ≠ b.uid) : (s.setBlock b).block? k = s.block? k := by
  rw [State.block?_setBlock]
  cases h : s.block? k with
  | none => rfl
  | some x =>
    have := State.block?_uid s k x h
    simp [this, hk]

theorem State.cluster?_setCluster (s : State) (c : Cluster) (k : Nat) :
    (s.setCluster c).cluster? k = (s.cluster? k).map (fun h => if h.uid == c.uid then c else h) :=
  find?_replace Cluster.uid _ c k

theorem State.cluster?_uid (s : State) (k : Nat) (c : Cluster) (h : s.cluster? k = some c) : c.uid = k := by
  simpa using List.find?_some h

/-- The record replaced is the record read. -/
theorem State.cluster?_setCluster_self (s : State) (c c0 : Cluster) (h : s.cluster? c.uid = some c0) : (s.setCluster c).cluster? c.uid = some c := by
  rw [State.cluster?_setCluster, h]
  simp [State.cluster?_uid s _ _ h]

/-- Every other record is unchanged. -/
theorem State.cluster?_setCluster_other (s : State) (c : Cluster) (k : Nat) (hk : k ≠ c.uid) : (s.setCluster c).cluster? k = s.cluster? k := by
  rw [State.cluster?_setCluster]
  cases h : s.cluster? k with
  | none => rfl
  | some x =>
    have := State.cluster?_uid s k x h
    simp [this, hk]

theorem State.grid?_setGrid (s : State) (g : Grid) (k : Nat) :
    (s.setGrid g).grid? k = (s.grid? k).map (fun h => if h.uid == g.uid then g else h) :=
  find?_replace Grid.uid _ g k

theorem State.grid?_uid (s : State) (k : Nat) (g : Grid) (h : s.grid? k = some g) : g.uid = k := by
  simpa using List.find?_some h

/-- The record replaced is the record read. -/
theorem State.grid?_setGrid_self (s : State) (g g0 : Grid) (h : s.grid? g.uid = some g0) : (s.setGrid g).grid? g.uid = some g := by
  rw [State.grid?_setGrid, h]
  simp [State.grid?_uid s _ _ h]

/-- Every other record is unchanged. -/
theorem State.grid?_setGrid_other (s : State) (g : Grid) (k : Nat) (hk : k ≠ g.uid) : (s.setGrid g).grid? k = s.grid? k := by
  rw [State.grid?_setGrid]
  cases h : s.grid? k with
  | none => rfl
  | some x =>
    have := State.grid?_uid s k x h
    simp [this, hk]

theorem State.root?_setRoot (s : State) (r : Root) (k : Nat) :
    (s.setRoot r).root? k = (s.root? k).map (fun h => if h.grid == r.grid then r else h) :=
  find?_replace Root.grid _ r k

theorem State.root?_grid (s : State) (k : Nat) (r : Root) (h : s.root? k = some r) : r.grid = k := by
  simpa using List.find?_some h

/-- The record replaced is the record read. -/
theorem State.root?_setRoot_self (s : State) (r r0 : Root) (h : s.root? r.grid = some r0) : (s.setRoot r).root? r.grid = some r := by
  rw [State.root?_setRoot, h]
  simp [State.root?_grid s _ _ h]

/-- Every other record is unchanged. -/
theorem State.root?_setRoot_other (s : State) (r : Root) (k : Nat) (hk : k ≠ r.grid) : (s.setRoot r).root? k = s.root? k := by
  rw [State.root?_setRoot]
  cases h : s.root? k with
  | none => rfl
  | some x =>
    have := State.root?_grid s k x h
    simp [this, hk]

theorem State.core?_setCore (s : State) (c : Core) (k : Nat) :
    (s.setCore c).core? k = (s.core? k).map (fun h => if h.key == c.key then c else h) :=
  find?_replace Core.key _ c k

theorem State.core?_key (s : State) (k : Nat) (c : Core) (h : s.core? k = some c) : c.key = k := by
  simpa using List.find?_some h

/-- The record replaced is the record read. -/
theorem State.core?_setCore_self (s : State) (c c0 : Core) (h : s.core? c.key = some c0) : (s.setCore c).core? c.key = some c := by
  rw [State.core?_setCore, h]
  simp [State.core?_key s _ _ h]

/-- Every other record is unchanged. -/
theorem State.core?_setCore_other (s : State) (c : Core) (k : Nat) (hk : k ≠ c.key) : (s.setCore c).core? k = s.core? k := by
  rw [State.core?_setCore]
  cases h : s.core? k with
  | none => rfl
  | some x =>
    have := State.core?_key s k x h
    simp [this, hk]

theorem State.proof?_setProof (s : State) (p : Proof) (k : Nat) :
    (s.setProof p).proof? k = (s.proof? k).map (fun h => if h.key == p.key then p else h) :=
  find?_replace Proof.key _ p k

theorem State.proof?_key (s : State) (k : Nat) (p : Proof) (h : s.proof? k = some p) : p.key = k := by
  simpa using List.find?_some h

/-- The record replaced is the record read. -/
theorem State.proof?_setProof_self (s : State) (p p0 : Proof) (h : s.proof? p.key = some p0) : (s.setProof p).proof? p.key = some p := by
  rw [State.proof?_setProof, h]
  simp [State.proof?_key s _ _ h]

/-- Every other record is unchanged. -/
theorem State.proof?_setProof_other (s : State) (p : Proof) (k : Nat) (hk : k ≠ p.key) : (s.setProof p).proof? k = s.proof? k := by
  rw [State.proof?_setProof]
  cases h : s.proof? k with
  | none => rfl
  | some x =>
    have := State.proof?_key s k x h
    simp [this, hk]

theorem State.queue?_setQueue (s : State) (q : Queue) (k : Nat) :
    (s.setQueue q).queue? k = (s.queue? k).map (fun h => if h.qnum == q.qnum then q else h) :=
  find?_replace Queue.qnum _ q k

theorem State.queue?_qnum (s : State) (k : Nat) (q : Queue) (h : s.queue? k = some q) : q.qnum = k := by
  simpa using List.find?_some h

/-- The record replaced is the record read. -/
theorem State.queue?_setQueue_self (s : State) (q q0 : Queue) (h : s.queue? q.qnum = some q0) : (s.setQueue q).queue? q.qnum = some q := by
  rw [State.queue?_setQueue, h]
  simp [State.queue?_qnum s _ _ h]

/-- Every other record is unchanged. -/
theorem State.queue?_setQueue_other (s : State) (q : Queue) (k : Nat) (hk : k ≠ q.qnum) : (s.setQueue q).queue? k = s.queue? k := by
  rw [State.queue?_setQueue]
  cases h : s.queue? k with
  | none => rfl
  | some x =>
    have := State.queue?_qnum s k x h
    simp [this, hk]

/-! ## Records of a gang that a register write leaves -/

@[simp] theorem Gang.wrV_uid (g : Gang) (reg lane : Nat) (x : W32) : (g.wrV reg lane x).uid = g.uid := rfl
@[simp] theorem Gang.wrV_block (g : Gang) (reg lane : Nat) (x : W32) : (g.wrV reg lane x).block = g.block := rfl
@[simp] theorem Gang.wrV_gangid (g : Gang) (reg lane : Nat) (x : W32) : (g.wrV reg lane x).gangid = g.gangid := rfl
@[simp] theorem Gang.wrV_role (g : Gang) (reg lane : Nat) (x : W32) : (g.wrV reg lane x).role = g.role := rfl
@[simp] theorem Gang.wrV_prio (g : Gang) (reg lane : Nat) (x : W32) : (g.wrV reg lane x).prio = g.prio := rfl
@[simp] theorem Gang.wrV_measure (g : Gang) (reg lane : Nat) (x : W32) : (g.wrV reg lane x).measure = g.measure := rfl
@[simp] theorem Gang.wrV_place (g : Gang) (reg lane : Nat) (x : W32) : (g.wrV reg lane x).place = g.place := rfl
@[simp] theorem Gang.wrV_home (g : Gang) (reg lane : Nat) (x : W32) : (g.wrV reg lane x).home = g.home := rfl
@[simp] theorem Gang.wrV_slots (g : Gang) (reg lane : Nat) (x : W32) : (g.wrV reg lane x).slots = g.slots := rfl
@[simp] theorem Gang.wrV_present (g : Gang) (reg lane : Nat) (x : W32) : (g.wrV reg lane x).present = g.present := rfl
@[simp] theorem Gang.wrV_exited (g : Gang) (reg lane : Nat) (x : W32) : (g.wrV reg lane x).exited = g.exited := rfl
@[simp] theorem Gang.wrV_allot (g : Gang) (reg lane : Nat) (x : W32) : (g.wrV reg lane x).allot = g.allot := rfl
@[simp] theorem Gang.wrV_reserve (g : Gang) (reg lane : Nat) (x : W32) : (g.wrV reg lane x).reserve = g.reserve := rfl
@[simp] theorem Gang.wrV_tvec (g : Gang) (reg lane : Nat) (x : W32) : (g.wrV reg lane x).tvec = g.tvec := rfl
@[simp] theorem Gang.wrV_tcause (g : Gang) (reg lane : Nat) (x : W32) : (g.wrV reg lane x).tcause = g.tcause := rfl
@[simp] theorem Gang.wrV_tval (g : Gang) (reg lane : Nat) (x : W32) : (g.wrV reg lane x).tval = g.tval := rfl
@[simp] theorem Gang.wrV_tret (g : Gang) (reg lane : Nat) (x : W32) : (g.wrV reg lane x).tret = g.tret := rfl
@[simp] theorem Gang.wrV_flags (g : Gang) (reg lane : Nat) (x : W32) : (g.wrV reg lane x).flags = g.flags := rfl
@[simp] theorem Gang.wrV_galley (g : Gang) (reg lane : Nat) (x : W32) : (g.wrV reg lane x).galley = g.galley := rfl
@[simp] theorem Gang.wrV_dlist (g : Gang) (reg lane : Nat) (x : W32) : (g.wrV reg lane x).dlist = g.dlist := rfl
@[simp] theorem Gang.wrV_image (g : Gang) (reg lane : Nat) (x : W32) : (g.wrV reg lane x).image = g.image := rfl
@[simp] theorem Gang.wrV_trap (g : Gang) (reg lane : Nat) (x : W32) : (g.wrV reg lane x).trap = g.trap := rfl
@[simp] theorem Gang.wrV_latched (g : Gang) (reg lane : Nat) (x : W32) : (g.wrV reg lane x).latched = g.latched := rfl
@[simp] theorem Gang.wrV_errs (g : Gang) (reg lane : Nat) (x : W32) : (g.wrV reg lane x).errs = g.errs := rfl
@[simp] theorem Gang.wrV_groups (g : Gang) (reg lane : Nat) (x : W32) : (g.wrV reg lane x).groups = g.groups := rfl
@[simp] theorem Gang.wrV_reconv (g : Gang) (reg lane : Nat) (x : W32) : (g.wrV reg lane x).reconv = g.reconv := rfl
@[simp] theorem Gang.wrV_pull (g : Gang) (reg lane : Nat) (x : W32) : (g.wrV reg lane x).pull = g.pull := rfl
@[simp] theorem Gang.wrV_guest (g : Gang) (reg lane : Nat) (x : W32) : (g.wrV reg lane x).guest = g.guest := rfl
@[simp] theorem Gang.wrV_clauseCount (g : Gang) (reg lane : Nat) (x : W32) : (g.wrV reg lane x).clauseCount = g.clauseCount := rfl
@[simp] theorem Gang.wrV_sregs (g : Gang) (reg lane : Nat) (x : W32) : (g.wrV reg lane x).sregs = g.sregs := rfl
@[simp] theorem Gang.wrV_masks (g : Gang) (reg lane : Nat) (x : W32) : (g.wrV reg lane x).masks = g.masks := rfl
@[simp] theorem Gang.wrV_em (g : Gang) (reg lane : Nat) (x : W32) : (g.wrV reg lane x).em = g.em := rfl
@[simp] theorem Gang.wrV_astatus (g : Gang) (reg lane : Nat) (x : W32) : (g.wrV reg lane x).astatus = g.astatus := rfl

@[simp] theorem Gang.wrS_uid (g : Gang) (reg : Nat) (x : W32) : (g.wrS reg x).uid = g.uid := by unfold Gang.wrS; split <;> rfl
@[simp] theorem Gang.wrS_block (g : Gang) (reg : Nat) (x : W32) : (g.wrS reg x).block = g.block := by unfold Gang.wrS; split <;> rfl
@[simp] theorem Gang.wrS_gangid (g : Gang) (reg : Nat) (x : W32) : (g.wrS reg x).gangid = g.gangid := by unfold Gang.wrS; split <;> rfl
@[simp] theorem Gang.wrS_role (g : Gang) (reg : Nat) (x : W32) : (g.wrS reg x).role = g.role := by unfold Gang.wrS; split <;> rfl
@[simp] theorem Gang.wrS_prio (g : Gang) (reg : Nat) (x : W32) : (g.wrS reg x).prio = g.prio := by unfold Gang.wrS; split <;> rfl
@[simp] theorem Gang.wrS_measure (g : Gang) (reg : Nat) (x : W32) : (g.wrS reg x).measure = g.measure := by unfold Gang.wrS; split <;> rfl
@[simp] theorem Gang.wrS_place (g : Gang) (reg : Nat) (x : W32) : (g.wrS reg x).place = g.place := by unfold Gang.wrS; split <;> rfl
@[simp] theorem Gang.wrS_home (g : Gang) (reg : Nat) (x : W32) : (g.wrS reg x).home = g.home := by unfold Gang.wrS; split <;> rfl
@[simp] theorem Gang.wrS_slots (g : Gang) (reg : Nat) (x : W32) : (g.wrS reg x).slots = g.slots := by unfold Gang.wrS; split <;> rfl
@[simp] theorem Gang.wrS_present (g : Gang) (reg : Nat) (x : W32) : (g.wrS reg x).present = g.present := by unfold Gang.wrS; split <;> rfl
@[simp] theorem Gang.wrS_exited (g : Gang) (reg : Nat) (x : W32) : (g.wrS reg x).exited = g.exited := by unfold Gang.wrS; split <;> rfl
@[simp] theorem Gang.wrS_allot (g : Gang) (reg : Nat) (x : W32) : (g.wrS reg x).allot = g.allot := by unfold Gang.wrS; split <;> rfl
@[simp] theorem Gang.wrS_reserve (g : Gang) (reg : Nat) (x : W32) : (g.wrS reg x).reserve = g.reserve := by unfold Gang.wrS; split <;> rfl
@[simp] theorem Gang.wrS_tvec (g : Gang) (reg : Nat) (x : W32) : (g.wrS reg x).tvec = g.tvec := by unfold Gang.wrS; split <;> rfl
@[simp] theorem Gang.wrS_tcause (g : Gang) (reg : Nat) (x : W32) : (g.wrS reg x).tcause = g.tcause := by unfold Gang.wrS; split <;> rfl
@[simp] theorem Gang.wrS_tval (g : Gang) (reg : Nat) (x : W32) : (g.wrS reg x).tval = g.tval := by unfold Gang.wrS; split <;> rfl
@[simp] theorem Gang.wrS_tret (g : Gang) (reg : Nat) (x : W32) : (g.wrS reg x).tret = g.tret := by unfold Gang.wrS; split <;> rfl
@[simp] theorem Gang.wrS_flags (g : Gang) (reg : Nat) (x : W32) : (g.wrS reg x).flags = g.flags := by unfold Gang.wrS; split <;> rfl
@[simp] theorem Gang.wrS_galley (g : Gang) (reg : Nat) (x : W32) : (g.wrS reg x).galley = g.galley := by unfold Gang.wrS; split <;> rfl
@[simp] theorem Gang.wrS_dlist (g : Gang) (reg : Nat) (x : W32) : (g.wrS reg x).dlist = g.dlist := by unfold Gang.wrS; split <;> rfl
@[simp] theorem Gang.wrS_image (g : Gang) (reg : Nat) (x : W32) : (g.wrS reg x).image = g.image := by unfold Gang.wrS; split <;> rfl
@[simp] theorem Gang.wrS_trap (g : Gang) (reg : Nat) (x : W32) : (g.wrS reg x).trap = g.trap := by unfold Gang.wrS; split <;> rfl
@[simp] theorem Gang.wrS_latched (g : Gang) (reg : Nat) (x : W32) : (g.wrS reg x).latched = g.latched := by unfold Gang.wrS; split <;> rfl
@[simp] theorem Gang.wrS_errs (g : Gang) (reg : Nat) (x : W32) : (g.wrS reg x).errs = g.errs := by unfold Gang.wrS; split <;> rfl
@[simp] theorem Gang.wrS_groups (g : Gang) (reg : Nat) (x : W32) : (g.wrS reg x).groups = g.groups := by unfold Gang.wrS; split <;> rfl
@[simp] theorem Gang.wrS_reconv (g : Gang) (reg : Nat) (x : W32) : (g.wrS reg x).reconv = g.reconv := by unfold Gang.wrS; split <;> rfl
@[simp] theorem Gang.wrS_pull (g : Gang) (reg : Nat) (x : W32) : (g.wrS reg x).pull = g.pull := by unfold Gang.wrS; split <;> rfl
@[simp] theorem Gang.wrS_guest (g : Gang) (reg : Nat) (x : W32) : (g.wrS reg x).guest = g.guest := by unfold Gang.wrS; split <;> rfl
@[simp] theorem Gang.wrS_clauseCount (g : Gang) (reg : Nat) (x : W32) : (g.wrS reg x).clauseCount = g.clauseCount := by unfold Gang.wrS; split <;> rfl
@[simp] theorem Gang.wrS_vregs (g : Gang) (reg : Nat) (x : W32) : (g.wrS reg x).vregs = g.vregs := by unfold Gang.wrS; split <;> rfl
@[simp] theorem Gang.wrS_masks (g : Gang) (reg : Nat) (x : W32) : (g.wrS reg x).masks = g.masks := by unfold Gang.wrS; split <;> rfl
@[simp] theorem Gang.wrS_em (g : Gang) (reg : Nat) (x : W32) : (g.wrS reg x).em = g.em := by unfold Gang.wrS; split <;> rfl
@[simp] theorem Gang.wrS_astatus (g : Gang) (reg : Nat) (x : W32) : (g.wrS reg x).astatus = g.astatus := by unfold Gang.wrS; split <;> rfl

@[simp] theorem Gang.wrM_uid (g : Gang) (reg : Nat) (lanes x : Lanes) : (g.wrM reg lanes x).uid = g.uid := rfl
@[simp] theorem Gang.wrM_block (g : Gang) (reg : Nat) (lanes x : Lanes) : (g.wrM reg lanes x).block = g.block := rfl
@[simp] theorem Gang.wrM_gangid (g : Gang) (reg : Nat) (lanes x : Lanes) : (g.wrM reg lanes x).gangid = g.gangid := rfl
@[simp] theorem Gang.wrM_role (g : Gang) (reg : Nat) (lanes x : Lanes) : (g.wrM reg lanes x).role = g.role := rfl
@[simp] theorem Gang.wrM_prio (g : Gang) (reg : Nat) (lanes x : Lanes) : (g.wrM reg lanes x).prio = g.prio := rfl
@[simp] theorem Gang.wrM_measure (g : Gang) (reg : Nat) (lanes x : Lanes) : (g.wrM reg lanes x).measure = g.measure := rfl
@[simp] theorem Gang.wrM_place (g : Gang) (reg : Nat) (lanes x : Lanes) : (g.wrM reg lanes x).place = g.place := rfl
@[simp] theorem Gang.wrM_home (g : Gang) (reg : Nat) (lanes x : Lanes) : (g.wrM reg lanes x).home = g.home := rfl
@[simp] theorem Gang.wrM_slots (g : Gang) (reg : Nat) (lanes x : Lanes) : (g.wrM reg lanes x).slots = g.slots := rfl
@[simp] theorem Gang.wrM_present (g : Gang) (reg : Nat) (lanes x : Lanes) : (g.wrM reg lanes x).present = g.present := rfl
@[simp] theorem Gang.wrM_exited (g : Gang) (reg : Nat) (lanes x : Lanes) : (g.wrM reg lanes x).exited = g.exited := rfl
@[simp] theorem Gang.wrM_allot (g : Gang) (reg : Nat) (lanes x : Lanes) : (g.wrM reg lanes x).allot = g.allot := rfl
@[simp] theorem Gang.wrM_reserve (g : Gang) (reg : Nat) (lanes x : Lanes) : (g.wrM reg lanes x).reserve = g.reserve := rfl
@[simp] theorem Gang.wrM_tvec (g : Gang) (reg : Nat) (lanes x : Lanes) : (g.wrM reg lanes x).tvec = g.tvec := rfl
@[simp] theorem Gang.wrM_tcause (g : Gang) (reg : Nat) (lanes x : Lanes) : (g.wrM reg lanes x).tcause = g.tcause := rfl
@[simp] theorem Gang.wrM_tval (g : Gang) (reg : Nat) (lanes x : Lanes) : (g.wrM reg lanes x).tval = g.tval := rfl
@[simp] theorem Gang.wrM_tret (g : Gang) (reg : Nat) (lanes x : Lanes) : (g.wrM reg lanes x).tret = g.tret := rfl
@[simp] theorem Gang.wrM_flags (g : Gang) (reg : Nat) (lanes x : Lanes) : (g.wrM reg lanes x).flags = g.flags := rfl
@[simp] theorem Gang.wrM_galley (g : Gang) (reg : Nat) (lanes x : Lanes) : (g.wrM reg lanes x).galley = g.galley := rfl
@[simp] theorem Gang.wrM_dlist (g : Gang) (reg : Nat) (lanes x : Lanes) : (g.wrM reg lanes x).dlist = g.dlist := rfl
@[simp] theorem Gang.wrM_image (g : Gang) (reg : Nat) (lanes x : Lanes) : (g.wrM reg lanes x).image = g.image := rfl
@[simp] theorem Gang.wrM_trap (g : Gang) (reg : Nat) (lanes x : Lanes) : (g.wrM reg lanes x).trap = g.trap := rfl
@[simp] theorem Gang.wrM_latched (g : Gang) (reg : Nat) (lanes x : Lanes) : (g.wrM reg lanes x).latched = g.latched := rfl
@[simp] theorem Gang.wrM_errs (g : Gang) (reg : Nat) (lanes x : Lanes) : (g.wrM reg lanes x).errs = g.errs := rfl
@[simp] theorem Gang.wrM_groups (g : Gang) (reg : Nat) (lanes x : Lanes) : (g.wrM reg lanes x).groups = g.groups := rfl
@[simp] theorem Gang.wrM_reconv (g : Gang) (reg : Nat) (lanes x : Lanes) : (g.wrM reg lanes x).reconv = g.reconv := rfl
@[simp] theorem Gang.wrM_pull (g : Gang) (reg : Nat) (lanes x : Lanes) : (g.wrM reg lanes x).pull = g.pull := rfl
@[simp] theorem Gang.wrM_guest (g : Gang) (reg : Nat) (lanes x : Lanes) : (g.wrM reg lanes x).guest = g.guest := rfl
@[simp] theorem Gang.wrM_clauseCount (g : Gang) (reg : Nat) (lanes x : Lanes) : (g.wrM reg lanes x).clauseCount = g.clauseCount := rfl
@[simp] theorem Gang.wrM_sregs (g : Gang) (reg : Nat) (lanes x : Lanes) : (g.wrM reg lanes x).sregs = g.sregs := rfl
@[simp] theorem Gang.wrM_vregs (g : Gang) (reg : Nat) (lanes x : Lanes) : (g.wrM reg lanes x).vregs = g.vregs := rfl
@[simp] theorem Gang.wrM_em (g : Gang) (reg : Nat) (lanes x : Lanes) : (g.wrM reg lanes x).em = g.em := rfl
@[simp] theorem Gang.wrM_astatus (g : Gang) (reg : Nat) (lanes x : Lanes) : (g.wrM reg lanes x).astatus = g.astatus := rfl

@[simp] theorem Gang.wrEm_uid (g : Gang) (lanes x : Lanes) : (g.wrEm lanes x).uid = g.uid := rfl
@[simp] theorem Gang.wrEm_block (g : Gang) (lanes x : Lanes) : (g.wrEm lanes x).block = g.block := rfl
@[simp] theorem Gang.wrEm_gangid (g : Gang) (lanes x : Lanes) : (g.wrEm lanes x).gangid = g.gangid := rfl
@[simp] theorem Gang.wrEm_role (g : Gang) (lanes x : Lanes) : (g.wrEm lanes x).role = g.role := rfl
@[simp] theorem Gang.wrEm_prio (g : Gang) (lanes x : Lanes) : (g.wrEm lanes x).prio = g.prio := rfl
@[simp] theorem Gang.wrEm_measure (g : Gang) (lanes x : Lanes) : (g.wrEm lanes x).measure = g.measure := rfl
@[simp] theorem Gang.wrEm_place (g : Gang) (lanes x : Lanes) : (g.wrEm lanes x).place = g.place := rfl
@[simp] theorem Gang.wrEm_home (g : Gang) (lanes x : Lanes) : (g.wrEm lanes x).home = g.home := rfl
@[simp] theorem Gang.wrEm_slots (g : Gang) (lanes x : Lanes) : (g.wrEm lanes x).slots = g.slots := rfl
@[simp] theorem Gang.wrEm_present (g : Gang) (lanes x : Lanes) : (g.wrEm lanes x).present = g.present := rfl
@[simp] theorem Gang.wrEm_exited (g : Gang) (lanes x : Lanes) : (g.wrEm lanes x).exited = g.exited := rfl
@[simp] theorem Gang.wrEm_allot (g : Gang) (lanes x : Lanes) : (g.wrEm lanes x).allot = g.allot := rfl
@[simp] theorem Gang.wrEm_reserve (g : Gang) (lanes x : Lanes) : (g.wrEm lanes x).reserve = g.reserve := rfl
@[simp] theorem Gang.wrEm_tvec (g : Gang) (lanes x : Lanes) : (g.wrEm lanes x).tvec = g.tvec := rfl
@[simp] theorem Gang.wrEm_tcause (g : Gang) (lanes x : Lanes) : (g.wrEm lanes x).tcause = g.tcause := rfl
@[simp] theorem Gang.wrEm_tval (g : Gang) (lanes x : Lanes) : (g.wrEm lanes x).tval = g.tval := rfl
@[simp] theorem Gang.wrEm_tret (g : Gang) (lanes x : Lanes) : (g.wrEm lanes x).tret = g.tret := rfl
@[simp] theorem Gang.wrEm_flags (g : Gang) (lanes x : Lanes) : (g.wrEm lanes x).flags = g.flags := rfl
@[simp] theorem Gang.wrEm_galley (g : Gang) (lanes x : Lanes) : (g.wrEm lanes x).galley = g.galley := rfl
@[simp] theorem Gang.wrEm_dlist (g : Gang) (lanes x : Lanes) : (g.wrEm lanes x).dlist = g.dlist := rfl
@[simp] theorem Gang.wrEm_image (g : Gang) (lanes x : Lanes) : (g.wrEm lanes x).image = g.image := rfl
@[simp] theorem Gang.wrEm_trap (g : Gang) (lanes x : Lanes) : (g.wrEm lanes x).trap = g.trap := rfl
@[simp] theorem Gang.wrEm_latched (g : Gang) (lanes x : Lanes) : (g.wrEm lanes x).latched = g.latched := rfl
@[simp] theorem Gang.wrEm_errs (g : Gang) (lanes x : Lanes) : (g.wrEm lanes x).errs = g.errs := rfl
@[simp] theorem Gang.wrEm_groups (g : Gang) (lanes x : Lanes) : (g.wrEm lanes x).groups = g.groups := rfl
@[simp] theorem Gang.wrEm_reconv (g : Gang) (lanes x : Lanes) : (g.wrEm lanes x).reconv = g.reconv := rfl
@[simp] theorem Gang.wrEm_pull (g : Gang) (lanes x : Lanes) : (g.wrEm lanes x).pull = g.pull := rfl
@[simp] theorem Gang.wrEm_guest (g : Gang) (lanes x : Lanes) : (g.wrEm lanes x).guest = g.guest := rfl
@[simp] theorem Gang.wrEm_clauseCount (g : Gang) (lanes x : Lanes) : (g.wrEm lanes x).clauseCount = g.clauseCount := rfl
@[simp] theorem Gang.wrEm_sregs (g : Gang) (lanes x : Lanes) : (g.wrEm lanes x).sregs = g.sregs := rfl
@[simp] theorem Gang.wrEm_vregs (g : Gang) (lanes x : Lanes) : (g.wrEm lanes x).vregs = g.vregs := rfl
@[simp] theorem Gang.wrEm_masks (g : Gang) (lanes x : Lanes) : (g.wrEm lanes x).masks = g.masks := rfl
@[simp] theorem Gang.wrEm_astatus (g : Gang) (lanes x : Lanes) : (g.wrEm lanes x).astatus = g.astatus := rfl

@[simp] theorem Gang.setSticky_uid (g : Gang) (x : W32) : (g.setSticky x).uid = g.uid := rfl
@[simp] theorem Gang.setSticky_block (g : Gang) (x : W32) : (g.setSticky x).block = g.block := rfl
@[simp] theorem Gang.setSticky_gangid (g : Gang) (x : W32) : (g.setSticky x).gangid = g.gangid := rfl
@[simp] theorem Gang.setSticky_role (g : Gang) (x : W32) : (g.setSticky x).role = g.role := rfl
@[simp] theorem Gang.setSticky_prio (g : Gang) (x : W32) : (g.setSticky x).prio = g.prio := rfl
@[simp] theorem Gang.setSticky_measure (g : Gang) (x : W32) : (g.setSticky x).measure = g.measure := rfl
@[simp] theorem Gang.setSticky_place (g : Gang) (x : W32) : (g.setSticky x).place = g.place := rfl
@[simp] theorem Gang.setSticky_home (g : Gang) (x : W32) : (g.setSticky x).home = g.home := rfl
@[simp] theorem Gang.setSticky_slots (g : Gang) (x : W32) : (g.setSticky x).slots = g.slots := rfl
@[simp] theorem Gang.setSticky_present (g : Gang) (x : W32) : (g.setSticky x).present = g.present := rfl
@[simp] theorem Gang.setSticky_exited (g : Gang) (x : W32) : (g.setSticky x).exited = g.exited := rfl
@[simp] theorem Gang.setSticky_allot (g : Gang) (x : W32) : (g.setSticky x).allot = g.allot := rfl
@[simp] theorem Gang.setSticky_reserve (g : Gang) (x : W32) : (g.setSticky x).reserve = g.reserve := rfl
@[simp] theorem Gang.setSticky_tvec (g : Gang) (x : W32) : (g.setSticky x).tvec = g.tvec := rfl
@[simp] theorem Gang.setSticky_tcause (g : Gang) (x : W32) : (g.setSticky x).tcause = g.tcause := rfl
@[simp] theorem Gang.setSticky_tval (g : Gang) (x : W32) : (g.setSticky x).tval = g.tval := rfl
@[simp] theorem Gang.setSticky_tret (g : Gang) (x : W32) : (g.setSticky x).tret = g.tret := rfl
@[simp] theorem Gang.setSticky_flags (g : Gang) (x : W32) : (g.setSticky x).flags = g.flags := rfl
@[simp] theorem Gang.setSticky_galley (g : Gang) (x : W32) : (g.setSticky x).galley = g.galley := rfl
@[simp] theorem Gang.setSticky_dlist (g : Gang) (x : W32) : (g.setSticky x).dlist = g.dlist := rfl
@[simp] theorem Gang.setSticky_image (g : Gang) (x : W32) : (g.setSticky x).image = g.image := rfl
@[simp] theorem Gang.setSticky_trap (g : Gang) (x : W32) : (g.setSticky x).trap = g.trap := rfl
@[simp] theorem Gang.setSticky_latched (g : Gang) (x : W32) : (g.setSticky x).latched = g.latched := rfl
@[simp] theorem Gang.setSticky_errs (g : Gang) (x : W32) : (g.setSticky x).errs = g.errs := rfl
@[simp] theorem Gang.setSticky_groups (g : Gang) (x : W32) : (g.setSticky x).groups = g.groups := rfl
@[simp] theorem Gang.setSticky_reconv (g : Gang) (x : W32) : (g.setSticky x).reconv = g.reconv := rfl
@[simp] theorem Gang.setSticky_pull (g : Gang) (x : W32) : (g.setSticky x).pull = g.pull := rfl
@[simp] theorem Gang.setSticky_guest (g : Gang) (x : W32) : (g.setSticky x).guest = g.guest := rfl
@[simp] theorem Gang.setSticky_clauseCount (g : Gang) (x : W32) : (g.setSticky x).clauseCount = g.clauseCount := rfl
@[simp] theorem Gang.setSticky_sregs (g : Gang) (x : W32) : (g.setSticky x).sregs = g.sregs := rfl
@[simp] theorem Gang.setSticky_vregs (g : Gang) (x : W32) : (g.setSticky x).vregs = g.vregs := rfl
@[simp] theorem Gang.setSticky_masks (g : Gang) (x : W32) : (g.setSticky x).masks = g.masks := rfl
@[simp] theorem Gang.setSticky_em (g : Gang) (x : W32) : (g.setSticky x).em = g.em := rfl

end Sys2Proof.Machine
end

