-- ==== Sys2Proof/Laws/Frame.lean ====
section
/-!
SUPPORT. What the shared operations leave alone: the bytes of memory and the copies of host memory. One lemma per operation and
field.
-/
namespace Sys2Proof.Machine

/-- A fold of changes that each leave a field leaves it. -/
theorem foldl_field {α β : Type} (fld : State → α) (f : State → β → State) (hf : ∀ s e, fld (f s e) = fld s) (l : List β) (s : State) :
    fld (l.foldl f s) = fld s := by
  induction l generalizing s with
  | nil => rfl
  | cons e t ih => rw [List.foldl_cons, ih, hf]

@[simp] theorem State.tlbAdd_mem (s : State) (t : Tlb) (cap : Nat) : (State.tlbAdd s t cap).mem = s.mem := by
  unfold State.tlbAdd
  first
    | rfl
    | exact foldl_field State.mem _ (fun s e => by first | simp | (split <;> simp)) _ _
    | ((try dsimp only); repeat' split) <;> first | rfl | simp

@[simp] theorem State.tlbAdd_hostCopy (s : State) (t : Tlb) (cap : Nat) : (State.tlbAdd s t cap).hostCopy = s.hostCopy := by
  unfold State.tlbAdd
  first
    | rfl
    | exact foldl_field State.hostCopy _ (fun s e => by first | simp | (split <;> simp)) _ _
    | ((try dsimp only); repeat' split) <;> first | rfl | simp

@[simp] theorem State.requestAts_mem (s : State) (w : Waiter) (pasid va : Nat) (wr : Bool) : (State.requestAts s w pasid va wr).mem = s.mem := by
  unfold State.requestAts
  first
    | rfl
    | exact foldl_field State.mem _ (fun s e => by first | simp | (split <;> simp)) _ _
    | ((try dsimp only); repeat' split) <;> first | rfl | simp

@[simp] theorem State.requestAts_hostCopy (s : State) (w : Waiter) (pasid va : Nat) (wr : Bool) : (State.requestAts s w pasid va wr).hostCopy = s.hostCopy := by
  unfold State.requestAts
  first
    | rfl
    | exact foldl_field State.hostCopy _ (fun s e => by first | simp | (split <;> simp)) _ _
    | ((try dsimp only); repeat' split) <;> first | rfl | simp

@[simp] theorem State.requestPri_mem (s : State) (pasid page : Nat) (wr : Bool) (waiters : List Waiter) : (State.requestPri s pasid page wr waiters).mem = s.mem := by
  unfold State.requestPri
  first
    | rfl
    | exact foldl_field State.mem _ (fun s e => by first | simp | (split <;> simp)) _ _
    | ((try dsimp only); repeat' split) <;> first | rfl | simp

@[simp] theorem State.requestPri_hostCopy (s : State) (pasid page : Nat) (wr : Bool) (waiters : List Waiter) : (State.requestPri s pasid page wr waiters).hostCopy = s.hostCopy := by
  unfold State.requestPri
  first
    | rfl
    | exact foldl_field State.hostCopy _ (fun s e => by first | simp | (split <;> simp)) _ _
    | ((try dsimp only); repeat' split) <;> first | rfl | simp

@[simp] theorem State.addOp_mem (s : State) (uid : Nat) (f : Nat → Op) : (State.addOp s uid f).mem = s.mem := by
  unfold State.addOp
  first
    | rfl
    | exact foldl_field State.mem _ (fun s e => by first | simp | (split <;> simp)) _ _
    | ((try dsimp only); repeat' split) <;> first | rfl | simp

@[simp] theorem State.addOp_hostCopy (s : State) (uid : Nat) (f : Nat → Op) : (State.addOp s uid f).hostCopy = s.hostCopy := by
  unfold State.addOp
  first
    | rfl
    | exact foldl_field State.hostCopy _ (fun s e => by first | simp | (split <;> simp)) _ _
    | ((try dsimp only); repeat' split) <;> first | rfl | simp

@[simp] theorem State.advance_mem (s : State) (uid slice : Nat) : (State.advance s uid slice).mem = s.mem := by
  unfold State.advance
  first
    | rfl
    | exact foldl_field State.mem _ (fun s e => by first | simp | (split <;> simp)) _ _
    | ((try dsimp only); repeat' split) <;> first | rfl | simp

@[simp] theorem State.advance_hostCopy (s : State) (uid slice : Nat) : (State.advance s uid slice).hostCopy = s.hostCopy := by
  unfold State.advance
  first
    | rfl
    | exact foldl_field State.hostCopy _ (fun s e => by first | simp | (split <;> simp)) _ _
    | ((try dsimp only); repeat' split) <;> first | rfl | simp

@[simp] theorem State.abortGrid_mem (s : State) (grid : Nat) (fr : Option FaultRec) : (State.abortGrid s grid fr).mem = s.mem := by
  unfold State.abortGrid
  first
    | rfl
    | exact foldl_field State.mem _ (fun s e => by first | simp | (split <;> simp)) _ _
    | ((try dsimp only); repeat' split) <;> first | rfl | simp

@[simp] theorem State.abortGrid_hostCopy (s : State) (grid : Nat) (fr : Option FaultRec) : (State.abortGrid s grid fr).hostCopy = s.hostCopy := by
  unfold State.abortGrid
  first
    | rfl
    | exact foldl_field State.hostCopy _ (fun s e => by first | simp | (split <;> simp)) _ _
    | ((try dsimp only); repeat' split) <;> first | rfl | simp

@[simp] theorem State.addTrace_mem (s : State) (core : Nat) (t : TraceRec) : (State.addTrace s core t).mem = s.mem := by
  unfold State.addTrace
  first
    | rfl
    | exact foldl_field State.mem _ (fun s e => by first | simp | (split <;> simp)) _ _
    | ((try dsimp only); repeat' split) <;> first | rfl | simp

@[simp] theorem State.addTrace_hostCopy (s : State) (core : Nat) (t : TraceRec) : (State.addTrace s core t).hostCopy = s.hostCopy := by
  unfold State.addTrace
  first
    | rfl
    | exact foldl_field State.hostCopy _ (fun s e => by first | simp | (split <;> simp)) _ _
    | ((try dsimp only); repeat' split) <;> first | rfl | simp

@[simp] theorem State.guestRecord_mem (s : State) (g : Gang) (kind event : Nat) (pc : W64) : (State.guestRecord s g kind event pc).mem = s.mem := by
  unfold State.guestRecord
  first
    | rfl
    | exact foldl_field State.mem _ (fun s e => by first | simp | (split <;> simp)) _ _
    | ((try dsimp only); repeat' split) <;> first | rfl | simp

@[simp] theorem State.guestRecord_hostCopy (s : State) (g : Gang) (kind event : Nat) (pc : W64) : (State.guestRecord s g kind event pc).hostCopy = s.hostCopy := by
  unfold State.guestRecord
  first
    | rfl
    | exact foldl_field State.hostCopy _ (fun s e => by first | simp | (split <;> simp)) _ _
    | ((try dsimp only); repeat' split) <;> first | rfl | simp

@[simp] theorem State.endHandling_mem (s : State) (core uid : Nat) : (State.endHandling s core uid).mem = s.mem := by
  unfold State.endHandling
  first
    | rfl
    | exact foldl_field State.mem _ (fun s e => by first | simp | (split <;> simp)) _ _
    | ((try dsimp only); repeat' split) <;> first | rfl | simp

@[simp] theorem State.endHandling_hostCopy (s : State) (core uid : Nat) : (State.endHandling s core uid).hostCopy = s.hostCopy := by
  unfold State.endHandling
  first
    | rfl
    | exact foldl_field State.hostCopy _ (fun s e => by first | simp | (split <;> simp)) _ _
    | ((try dsimp only); repeat' split) <;> first | rfl | simp

@[simp] theorem State.handlerFault_mem (s : State) (core uid : Nat) (f : Raise) : (State.handlerFault s core uid f).mem = s.mem := by
  unfold State.handlerFault
  first
    | rfl
    | exact foldl_field State.mem _ (fun s e => by first | simp | (split <;> simp)) _ _
    | ((try dsimp only); repeat' split) <;> first | rfl | simp

@[simp] theorem State.handlerFault_hostCopy (s : State) (core uid : Nat) (f : Raise) : (State.handlerFault s core uid f).hostCopy = s.hostCopy := by
  unfold State.handlerFault
  first
    | rfl
    | exact foldl_field State.hostCopy _ (fun s e => by first | simp | (split <;> simp)) _ _
    | ((try dsimp only); repeat' split) <;> first | rfl | simp

@[simp] theorem State.addEvent_mem (s : State) (core : Nat) (e : DbgEvent) : (State.addEvent s core e).mem = s.mem := by
  unfold State.addEvent
  first
    | rfl
    | exact foldl_field State.mem _ (fun s e => by first | simp | (split <;> simp)) _ _
    | ((try dsimp only); repeat' split) <;> first | rfl | simp

@[simp] theorem State.addEvent_hostCopy (s : State) (core : Nat) (e : DbgEvent) : (State.addEvent s core e).hostCopy = s.hostCopy := by
  unfold State.addEvent
  first
    | rfl
    | exact foldl_field State.hostCopy _ (fun s e => by first | simp | (split <;> simp)) _ _
    | ((try dsimp only); repeat' split) <;> first | rfl | simp

@[simp] theorem State.endStep_mem (s : State) (uid slice : Nat) : (State.endStep s uid slice).mem = s.mem := by
  unfold State.endStep
  first
    | rfl
    | exact foldl_field State.mem _ (fun s e => by first | simp | (split <;> simp)) _ _
    | ((try dsimp only); repeat' split) <;> first | rfl | simp

@[simp] theorem State.endStep_hostCopy (s : State) (uid slice : Nat) : (State.endStep s uid slice).hostCopy = s.hostCopy := by
  unfold State.endStep
  first
    | rfl
    | exact foldl_field State.hostCopy _ (fun s e => by first | simp | (split <;> simp)) _ _
    | ((try dsimp only); repeat' split) <;> first | rfl | simp

@[simp] theorem State.stopCompositor_mem (s : State) (core : Nat) : (State.stopCompositor s core).mem = s.mem := by
  unfold State.stopCompositor
  first
    | rfl
    | exact foldl_field State.mem _ (fun s e => by first | simp | (split <;> simp)) _ _
    | ((try dsimp only); repeat' split) <;> first | rfl | simp

@[simp] theorem State.stopCompositor_hostCopy (s : State) (core : Nat) : (State.stopCompositor s core).hostCopy = s.hostCopy := by
  unfold State.stopCompositor
  first
    | rfl
    | exact foldl_field State.hostCopy _ (fun s e => by first | simp | (split <;> simp)) _ _
    | ((try dsimp only); repeat' split) <;> first | rfl | simp

@[simp] theorem State.unhandled_mem (s : State) (uid : Nat) (f : Raise) (first : Option Code) : (State.unhandled s uid f first).mem = s.mem := by
  unfold State.unhandled
  first
    | rfl
    | exact foldl_field State.mem _ (fun s e => by first | simp | (split <;> simp)) _ _
    | ((try dsimp only); repeat' split) <;> first | rfl | simp

@[simp] theorem State.unhandled_hostCopy (s : State) (uid : Nat) (f : Raise) (first : Option Code) : (State.unhandled s uid f first).hostCopy = s.hostCopy := by
  unfold State.unhandled
  first
    | rfl
    | exact foldl_field State.hostCopy _ (fun s e => by first | simp | (split <;> simp)) _ _
    | ((try dsimp only); repeat' split) <;> first | rfl | simp

@[simp] theorem State.takeFault_mem (s : State) (uid slice : Nat) (f : Raise) : (State.takeFault s uid slice f).mem = s.mem := by
  unfold State.takeFault
  first
    | rfl
    | exact foldl_field State.mem _ (fun s e => by first | simp | (split <;> simp)) _ _
    | ((try dsimp only); repeat' split) <;> first | rfl | simp

@[simp] theorem State.takeFault_hostCopy (s : State) (uid slice : Nat) (f : Raise) : (State.takeFault s uid slice f).hostCopy = s.hostCopy := by
  unfold State.takeFault
  first
    | rfl
    | exact foldl_field State.hostCopy _ (fun s e => by first | simp | (split <;> simp)) _ _
    | ((try dsimp only); repeat' split) <;> first | rfl | simp

@[simp] theorem State.holdAs_mem (s : State) (c : Ctx) (st : GStatus) : (State.holdAs s c st).mem = s.mem := by
  unfold State.holdAs
  first
    | rfl
    | exact foldl_field State.mem _ (fun s e => by first | simp | (split <;> simp)) _ _
    | ((try dsimp only); repeat' split) <;> first | rfl | simp

@[simp] theorem State.holdAs_hostCopy (s : State) (c : Ctx) (st : GStatus) : (State.holdAs s c st).hostCopy = s.hostCopy := by
  unfold State.holdAs
  first
    | rfl
    | exact foldl_field State.hostCopy _ (fun s e => by first | simp | (split <;> simp)) _ _
    | ((try dsimp only); repeat' split) <;> first | rfl | simp

@[simp] theorem State.raiseErr_mem (s : State) (c : Ctx) (e : Err) : (State.raiseErr s c e).mem = s.mem := by
  unfold State.raiseErr
  first
    | rfl
    | exact foldl_field State.mem _ (fun s e => by first | simp | (split <;> simp)) _ _
    | ((try dsimp only); repeat' split) <;> first | rfl | simp

@[simp] theorem State.raiseErr_hostCopy (s : State) (c : Ctx) (e : Err) : (State.raiseErr s c e).hostCopy = s.hostCopy := by
  unfold State.raiseErr
  first
    | rfl
    | exact foldl_field State.hostCopy _ (fun s e => by first | simp | (split <;> simp)) _ _
    | ((try dsimp only); repeat' split) <;> first | rfl | simp

@[simp] theorem State.addResult_mem (s : State) (c : Ctx) (writes : List RegWrite) (sticky : W32) : (State.addResult s c writes sticky).mem = s.mem := by
  unfold State.addResult
  first
    | rfl
    | exact foldl_field State.mem _ (fun s e => by first | simp | (split <;> simp)) _ _
    | ((try dsimp only); repeat' split) <;> first | rfl | simp

@[simp] theorem State.addResult_hostCopy (s : State) (c : Ctx) (writes : List RegWrite) (sticky : W32) : (State.addResult s c writes sticky).hostCopy = s.hostCopy := by
  unfold State.addResult
  first
    | rfl
    | exact foldl_field State.hostCopy _ (fun s e => by first | simp | (split <;> simp)) _ _
    | ((try dsimp only); repeat' split) <;> first | rfl | simp

@[simp] theorem State.setBar_mem (s : State) (blk : Block) (b : Bar) : (State.setBar s blk b).mem = s.mem := by
  unfold State.setBar
  first
    | rfl
    | exact foldl_field State.mem _ (fun s e => by first | simp | (split <;> simp)) _ _
    | ((try dsimp only); repeat' split) <;> first | rfl | simp

@[simp] theorem State.setBar_hostCopy (s : State) (blk : Block) (b : Bar) : (State.setBar s blk b).hostCopy = s.hostCopy := by
  unfold State.setBar
  first
    | rfl
    | exact foldl_field State.hostCopy _ (fun s e => by first | simp | (split <;> simp)) _ _
    | ((try dsimp only); repeat' split) <;> first | rfl | simp

@[simp] theorem State.arrive_mem (s : State) (uid n : Nat) (slices : Slices) : (State.arrive s uid n slices).mem = s.mem := by
  unfold State.arrive
  first
    | rfl
    | exact foldl_field State.mem _ (fun s e => by first | simp | (split <;> simp)) _ _
    | ((try dsimp only); repeat' split) <;> first | rfl | simp

@[simp] theorem State.arrive_hostCopy (s : State) (uid n : Nat) (slices : Slices) : (State.arrive s uid n slices).hostCopy = s.hostCopy := by
  unfold State.arrive
  first
    | rfl
    | exact foldl_field State.hostCopy _ (fun s e => by first | simp | (split <;> simp)) _ _
    | ((try dsimp only); repeat' split) <;> first | rfl | simp

@[simp] theorem State.retestBars_mem (s : State) (uid : Nat) : (State.retestBars s uid).mem = s.mem :=
  foldl_field State.mem _ (fun s e => by first | simp | (split <;> simp)) _ _

@[simp] theorem State.retestBars_hostCopy (s : State) (uid : Nat) : (State.retestBars s uid).hostCopy = s.hostCopy :=
  foldl_field State.hostCopy _ (fun s e => by first | simp | (split <;> simp)) _ _

@[simp] theorem State.takePhase_mem (s : State) (blk : Block) (b : Bar) : (State.takePhase s blk b).mem = s.mem := by
  unfold State.takePhase
  first
    | rfl
    | exact foldl_field State.mem _ (fun s e => by first | simp | (split <;> simp)) _ _
    | ((try dsimp only); repeat' split) <;> first | rfl | simp

@[simp] theorem State.takePhase_hostCopy (s : State) (blk : Block) (b : Bar) : (State.takePhase s blk b).hostCopy = s.hostCopy := by
  unfold State.takePhase
  first
    | rfl
    | exact foldl_field State.hostCopy _ (fun s e => by first | simp | (split <;> simp)) _ _
    | ((try dsimp only); repeat' split) <;> first | rfl | simp

@[simp] theorem State.withdrawBars_mem (s : State) (blk : Block) (uid : Nat) : (State.withdrawBars s blk uid).mem = s.mem :=
  foldl_field State.mem _ (fun s e => by first | simp | (split <;> simp)) _ _

@[simp] theorem State.withdrawBars_hostCopy (s : State) (blk : Block) (uid : Nat) : (State.withdrawBars s blk uid).hostCopy = s.hostCopy :=
  foldl_field State.hostCopy _ (fun s e => by first | simp | (split <;> simp)) _ _

@[simp] theorem State.sendArrival_mem (s : State) (uid n : Nat) (slices : Slices) (pc : W64) : (State.sendArrival s uid n slices pc).mem = s.mem := by
  unfold State.sendArrival
  first
    | rfl
    | exact foldl_field State.mem _ (fun s e => by first | simp | (split <;> simp)) _ _
    | ((try dsimp only); repeat' split) <;> first | rfl | simp

@[simp] theorem State.sendArrival_hostCopy (s : State) (uid n : Nat) (slices : Slices) (pc : W64) : (State.sendArrival s uid n slices pc).hostCopy = s.hostCopy := by
  unfold State.sendArrival
  first
    | rfl
    | exact foldl_field State.hostCopy _ (fun s e => by first | simp | (split <;> simp)) _ _
    | ((try dsimp only); repeat' split) <;> first | rfl | simp

@[simp] theorem State.settleTrap_mem (s : State) (uid : Nat) (pc : W64) : (State.settleTrap s uid pc).mem = s.mem := by
  unfold State.settleTrap
  first
    | rfl
    | exact foldl_field State.mem _ (fun s e => by first | simp | (split <;> simp)) _ _
    | ((try dsimp only); repeat' split) <;> first | rfl | simp

@[simp] theorem State.settleTrap_hostCopy (s : State) (uid : Nat) (pc : W64) : (State.settleTrap s uid pc).hostCopy = s.hostCopy := by
  unfold State.settleTrap
  first
    | rfl
    | exact foldl_field State.hostCopy _ (fun s e => by first | simp | (split <;> simp)) _ _
    | ((try dsimp only); repeat' split) <;> first | rfl | simp

@[simp] theorem State.fireTriggers_mem (s : State) (uid kind : Nat) (test : Trigger → Bool) : (State.fireTriggers s uid kind test).mem = s.mem := by
  unfold State.fireTriggers
  first
    | rfl
    | exact foldl_field State.mem _ (fun s e => by first | simp | (split <;> simp)) _ _
    | ((try dsimp only); repeat' split) <;> first | rfl | simp

@[simp] theorem State.fireTriggers_hostCopy (s : State) (uid kind : Nat) (test : Trigger → Bool) : (State.fireTriggers s uid kind test).hostCopy = s.hostCopy := by
  unfold State.fireTriggers
  first
    | rfl
    | exact foldl_field State.hostCopy _ (fun s e => by first | simp | (split <;> simp)) _ _
    | ((try dsimp only); repeat' split) <;> first | rfl | simp

@[simp] theorem State.watchSees_mem (s : State) (uid : Nat) (issuing : Option Nat) (pc : W64) (op : Option Op) (l : List Seen) : (State.watchSees s uid issuing pc op l).mem = s.mem := by
  unfold State.watchSees
  first
    | rfl
    | exact foldl_field State.mem _ (fun s e => by first | simp | (split <;> simp)) _ _
    | ((try dsimp only); repeat' split) <;> first | rfl | simp

@[simp] theorem State.watchSees_hostCopy (s : State) (uid : Nat) (issuing : Option Nat) (pc : W64) (op : Option Op) (l : List Seen) : (State.watchSees s uid issuing pc op l).hostCopy = s.hostCopy := by
  unfold State.watchSees
  first
    | rfl
    | exact foldl_field State.hostCopy _ (fun s e => by first | simp | (split <;> simp)) _ _
    | ((try dsimp only); repeat' split) <;> first | rfl | simp

@[simp] theorem State.requestMiss_mem (s : State) (g : Gang) (pasid : Nat) (wr : Bool) (e : Miss) : (State.requestMiss s g pasid wr e).mem = s.mem := by
  unfold State.requestMiss
  first
    | rfl
    | exact foldl_field State.mem _ (fun s e => by first | simp | (split <;> simp)) _ _
    | ((try dsimp only); repeat' split) <;> first | rfl | simp

@[simp] theorem State.requestMiss_hostCopy (s : State) (g : Gang) (pasid : Nat) (wr : Bool) (e : Miss) : (State.requestMiss s g pasid wr e).hostCopy = s.hostCopy := by
  unfold State.requestMiss
  first
    | rfl
    | exact foldl_field State.hostCopy _ (fun s e => by first | simp | (split <;> simp)) _ _
    | ((try dsimp only); repeat' split) <;> first | rfl | simp

@[simp] theorem State.requestMisses_mem (s : State) (g : Gang) (r : Group) (pasid : Nat) (wr : Bool) (misses : List Miss) : (State.requestMisses s g r pasid wr misses).mem = s.mem :=
  foldl_field State.mem _ (fun s e => by first | simp | (split <;> simp)) _ _

@[simp] theorem State.requestMisses_hostCopy (s : State) (g : Gang) (r : Group) (pasid : Nat) (wr : Bool) (misses : List Miss) : (State.requestMisses s g r pasid wr misses).hostCopy = s.hostCopy :=
  foldl_field State.hostCopy _ (fun s e => by first | simp | (split <;> simp)) _ _

@[simp] theorem State.awaitPages_mem (s : State) (c : Ctx) (pasid : Nat) (wr : Bool) (misses : List Miss) (pend : Lanes) : (State.awaitPages s c pasid wr misses pend).mem = s.mem := by
  unfold State.awaitPages
  first
    | rfl
    | exact foldl_field State.mem _ (fun s e => by first | simp | (split <;> simp)) _ _
    | ((try dsimp only); repeat' split) <;> first | rfl | simp

@[simp] theorem State.awaitPages_hostCopy (s : State) (c : Ctx) (pasid : Nat) (wr : Bool) (misses : List Miss) (pend : Lanes) : (State.awaitPages s c pasid wr misses pend).hostCopy = s.hostCopy := by
  unfold State.awaitPages
  first
    | rfl
    | exact foldl_field State.hostCopy _ (fun s e => by first | simp | (split <;> simp)) _ _
    | ((try dsimp only); repeat' split) <;> first | rfl | simp

@[simp] theorem State.waitFor_mem (s : State) (c : Ctx) (pasid : Nat) (wr : Bool) (misses : List Miss) (pend : Lanes) (op : Option Nat) : (State.waitFor s c pasid wr misses pend op).mem = s.mem := by
  unfold State.waitFor
  dsimp only
  split <;> simp

@[simp] theorem State.waitFor_hostCopy (s : State) (c : Ctx) (pasid : Nat) (wr : Bool) (misses : List Miss) (pend : Lanes) (op : Option Nat) : (State.waitFor s c pasid wr misses pend op).hostCopy = s.hostCopy := by
  unfold State.waitFor
  dsimp only
  split <;> simp

@[simp] theorem State.issueCommit_mem (s : State) (c : Ctx) (lvl : Nat) (cond : Option Nat) (arrive : Option (Nat × Slices × Bool)) : (State.issueCommit s c lvl cond arrive).mem = s.mem := by
  unfold State.issueCommit
  first
    | rfl
    | exact foldl_field State.mem _ (fun s e => by first | simp | (split <;> simp)) _ _
    | ((try dsimp only); repeat' split) <;> first | rfl | simp

@[simp] theorem State.issueCommit_hostCopy (s : State) (c : Ctx) (lvl : Nat) (cond : Option Nat) (arrive : Option (Nat × Slices × Bool)) : (State.issueCommit s c lvl cond arrive).hostCopy = s.hostCopy := by
  unfold State.issueCommit
  first
    | rfl
    | exact foldl_field State.hostCopy _ (fun s e => by first | simp | (split <;> simp)) _ _
    | ((try dsimp only); repeat' split) <;> first | rfl | simp

@[simp] theorem Ctx.takeAllot_mem (c : Ctx) (s : State) (dst : Opd) (new more : Nat) : (Ctx.takeAllot c s dst new more).mem = s.mem := by
  unfold Ctx.takeAllot
  first
    | rfl
    | exact foldl_field State.mem _ (fun s e => by first | simp | (split <;> simp)) _ _
    | ((try dsimp only); repeat' split) <;> first | rfl | simp

@[simp] theorem Ctx.takeAllot_hostCopy (c : Ctx) (s : State) (dst : Opd) (new more : Nat) : (Ctx.takeAllot c s dst new more).hostCopy = s.hostCopy := by
  unfold Ctx.takeAllot
  first
    | rfl
    | exact foldl_field State.hostCopy _ (fun s e => by first | simp | (split <;> simp)) _ _
    | ((try dsimp only); repeat' split) <;> first | rfl | simp

@[simp] theorem State.releaseFor_mem (s : State) (c : Ctx) (op : Nat) : (State.releaseFor s c op).mem = s.mem := by
  unfold State.releaseFor
  first
    | rfl
    | exact foldl_field State.mem _ (fun s e => by first | simp | (split <;> simp)) _ _
    | ((try dsimp only); repeat' split) <;> first | rfl | simp

@[simp] theorem State.releaseFor_hostCopy (s : State) (c : Ctx) (op : Nat) : (State.releaseFor s c op).hostCopy = s.hostCopy := by
  unfold State.releaseFor
  first
    | rfl
    | exact foldl_field State.hostCopy _ (fun s e => by first | simp | (split <;> simp)) _ _
    | ((try dsimp only); repeat' split) <;> first | rfl | simp

@[simp] theorem State.queueMatrix_mem (s : State) (g : Gang) (op : Nat) : (State.queueMatrix s g op).mem = s.mem := by
  unfold State.queueMatrix
  first
    | rfl
    | exact foldl_field State.mem _ (fun s e => by first | simp | (split <;> simp)) _ _
    | ((try dsimp only); repeat' split) <;> first | rfl | simp

@[simp] theorem State.queueMatrix_hostCopy (s : State) (g : Gang) (op : Nat) : (State.queueMatrix s g op).hostCopy = s.hostCopy := by
  unfold State.queueMatrix
  first
    | rfl
    | exact foldl_field State.hostCopy _ (fun s e => by first | simp | (split <;> simp)) _ _
    | ((try dsimp only); repeat' split) <;> first | rfl | simp

@[simp] theorem State.queueReq_mem (s : State) (c : Ctx) (r : ReqOp) (due : Option Nat) : (State.queueReq s c r due).mem = s.mem := by
  unfold State.queueReq
  first
    | rfl
    | exact foldl_field State.mem _ (fun s e => by first | simp | (split <;> simp)) _ _
    | ((try dsimp only); repeat' split) <;> first | rfl | simp

@[simp] theorem State.queueReq_hostCopy (s : State) (c : Ctx) (r : ReqOp) (due : Option Nat) : (State.queueReq s c r due).hostCopy = s.hostCopy := by
  unfold State.queueReq
  first
    | rfl
    | exact foldl_field State.hostCopy _ (fun s e => by first | simp | (split <;> simp)) _ _
    | ((try dsimp only); repeat' split) <;> first | rfl | simp

@[simp] theorem State.setPending_mem (s : State) (q : Nat) : (State.setPending s q).mem = s.mem := by
  unfold State.setPending
  first
    | rfl
    | exact foldl_field State.mem _ (fun s e => by first | simp | (split <;> simp)) _ _
    | ((try dsimp only); repeat' split) <;> first | rfl | simp

@[simp] theorem State.setPending_hostCopy (s : State) (q : Nat) : (State.setPending s q).hostCopy = s.hostCopy := by
  unfold State.setPending
  first
    | rfl
    | exact foldl_field State.hostCopy _ (fun s e => by first | simp | (split <;> simp)) _ _
    | ((try dsimp only); repeat' split) <;> first | rfl | simp

@[simp] theorem State.wakeLane_mem (s : State) (slot : Nat) : (State.wakeLane s slot).mem = s.mem := by
  unfold State.wakeLane
  first
    | rfl
    | exact foldl_field State.mem _ (fun s e => by first | simp | (split <;> simp)) _ _
    | ((try dsimp only); repeat' split) <;> first | rfl | simp

@[simp] theorem State.wakeLane_hostCopy (s : State) (slot : Nat) : (State.wakeLane s slot).hostCopy = s.hostCopy := by
  unfold State.wakeLane
  first
    | rfl
    | exact foldl_field State.hostCopy _ (fun s e => by first | simp | (split <;> simp)) _ _
    | ((try dsimp only); repeat' split) <;> first | rfl | simp

@[simp] theorem State.updPart_mem (s : State) (core part : Nat) (f : Part → Part) : (State.updPart s core part f).mem = s.mem := by
  unfold State.updPart
  first
    | rfl
    | exact foldl_field State.mem _ (fun s e => by first | simp | (split <;> simp)) _ _
    | ((try dsimp only); repeat' split) <;> first | rfl | simp

@[simp] theorem State.updPart_hostCopy (s : State) (core part : Nat) (f : Part → Part) : (State.updPart s core part f).hostCopy = s.hostCopy := by
  unfold State.updPart
  first
    | rfl
    | exact foldl_field State.hostCopy _ (fun s e => by first | simp | (split <;> simp)) _ _
    | ((try dsimp only); repeat' split) <;> first | rfl | simp

@[simp] theorem State.keepReady_mem (s : State) (core part port : Nat) : (State.keepReady s core part port).mem = s.mem := by
  unfold State.keepReady
  first
    | rfl
    | exact foldl_field State.mem _ (fun s e => by first | simp | (split <;> simp)) _ _
    | ((try dsimp only); repeat' split) <;> first | rfl | simp

@[simp] theorem State.keepReady_hostCopy (s : State) (core part port : Nat) : (State.keepReady s core part port).hostCopy = s.hostCopy := by
  unfold State.keepReady
  first
    | rfl
    | exact foldl_field State.hostCopy _ (fun s e => by first | simp | (split <;> simp)) _ _
    | ((try dsimp only); repeat' split) <;> first | rfl | simp

@[simp] theorem State.parkFetch_mem (s : State) (g : Gang) (r : Group) (va : W64) : (State.parkFetch s g r va).mem = s.mem := by
  unfold State.parkFetch
  first
    | rfl
    | exact foldl_field State.mem _ (fun s e => by first | simp | (split <;> simp)) _ _
    | ((try dsimp only); repeat' split) <;> first | rfl | simp

@[simp] theorem State.parkFetch_hostCopy (s : State) (g : Gang) (r : Group) (va : W64) : (State.parkFetch s g r va).hostCopy = s.hostCopy := by
  unfold State.parkFetch
  first
    | rfl
    | exact foldl_field State.hostCopy _ (fun s e => by first | simp | (split <;> simp)) _ _
    | ((try dsimp only); repeat' split) <;> first | rfl | simp

@[simp] theorem State.beginClause_mem (s : State) (g : Gang) (r : Group) (core part port : Nat) (cost : Nat) (hdr : W64) (h : Header) (words : List W64) (idx : Nat) : (State.beginClause s g r core part port cost hdr h words idx).mem = s.mem := by
  unfold State.beginClause
  first
    | rfl
    | exact foldl_field State.mem _ (fun s e => by first | simp | (split <;> simp)) _ _
    | ((try dsimp only); repeat' split) <;> first | rfl | simp

@[simp] theorem State.beginClause_hostCopy (s : State) (g : Gang) (r : Group) (core part port : Nat) (cost : Nat) (hdr : W64) (h : Header) (words : List W64) (idx : Nat) : (State.beginClause s g r core part port cost hdr h words idx).hostCopy = s.hostCopy := by
  unfold State.beginClause
  first
    | rfl
    | exact foldl_field State.hostCopy _ (fun s e => by first | simp | (split <;> simp)) _ _
    | ((try dsimp only); repeat' split) <;> first | rfl | simp

@[simp] theorem State.startCand_mem (s : State) (core part port : Nat) (c : Cand) : (State.startCand s core part port c).mem = s.mem := by
  unfold State.startCand
  first
    | rfl
    | exact foldl_field State.mem _ (fun s e => by first | simp | (split <;> simp)) _ _
    | ((try dsimp only); repeat' split) <;> first | rfl | simp

@[simp] theorem State.startCand_hostCopy (s : State) (core part port : Nat) (c : Cand) : (State.startCand s core part port c).hostCopy = s.hostCopy := by
  unfold State.startCand
  first
    | rfl
    | exact foldl_field State.hostCopy _ (fun s e => by first | simp | (split <;> simp)) _ _
    | ((try dsimp only); repeat' split) <;> first | rfl | simp

@[simp] theorem State.countIssue_mem (s before : State) (c : Ctx) (i : Instr) : (State.countIssue s before c i).mem = s.mem := by
  unfold State.countIssue
  first
    | rfl
    | exact foldl_field State.mem _ (fun s e => by first | simp | (split <;> simp)) _ _
    | ((try dsimp only); repeat' split) <;> first | rfl | simp

@[simp] theorem State.countIssue_hostCopy (s before : State) (c : Ctx) (i : Instr) : (State.countIssue s before c i).hostCopy = s.hostCopy := by
  unfold State.countIssue
  first
    | rfl
    | exact foldl_field State.hostCopy _ (fun s e => by first | simp | (split <;> simp)) _ _
    | ((try dsimp only); repeat' split) <;> first | rfl | simp

@[simp] theorem State.spendClocks_mem (s before : State) (c : Ctx) (i : Instr) : (State.spendClocks s before c i).mem = s.mem := by
  unfold State.spendClocks
  first
    | rfl
    | exact foldl_field State.mem _ (fun s e => by first | simp | (split <;> simp)) _ _
    | ((try dsimp only); repeat' split) <;> first | rfl | simp

@[simp] theorem State.spendClocks_hostCopy (s before : State) (c : Ctx) (i : Instr) : (State.spendClocks s before c i).hostCopy = s.hostCopy := by
  unfold State.spendClocks
  first
    | rfl
    | exact foldl_field State.hostCopy _ (fun s e => by first | simp | (split <;> simp)) _ _
    | ((try dsimp only); repeat' split) <;> first | rfl | simp

@[simp] theorem State.traceIssue_mem (s before : State) (c : Ctx) (i : Instr) (seen : List Seen) : (State.traceIssue s before c i seen).mem = s.mem := by
  unfold State.traceIssue
  first
    | rfl
    | exact foldl_field State.mem _ (fun s e => by first | simp | (split <;> simp)) _ _
    | ((try dsimp only); repeat' split) <;> first | rfl | simp

@[simp] theorem State.traceIssue_hostCopy (s before : State) (c : Ctx) (i : Instr) (seen : List Seen) : (State.traceIssue s before c i seen).hostCopy = s.hostCopy := by
  unfold State.traceIssue
  first
    | rfl
    | exact foldl_field State.hostCopy _ (fun s e => by first | simp | (split <;> simp)) _ _
    | ((try dsimp only); repeat' split) <;> first | rfl | simp

@[simp] theorem State.beforeWord_mem (s : State) (c : Ctx) : (State.beforeWord s c).mem = s.mem := by
  unfold State.beforeWord
  first
    | rfl
    | exact foldl_field State.mem _ (fun s e => by first | simp | (split <;> simp)) _ _
    | ((try dsimp only); repeat' split) <;> first | rfl | simp

@[simp] theorem State.beforeWord_hostCopy (s : State) (c : Ctx) : (State.beforeWord s c).hostCopy = s.hostCopy := by
  unfold State.beforeWord
  first
    | rfl
    | exact foldl_field State.hostCopy _ (fun s e => by first | simp | (split <;> simp)) _ _
    | ((try dsimp only); repeat' split) <;> first | rfl | simp

@[simp] theorem State.standStill_mem (s : State) (c : Ctx) : (State.standStill s c).mem = s.mem := by
  unfold State.standStill
  first
    | rfl
    | exact foldl_field State.mem _ (fun s e => by first | simp | (split <;> simp)) _ _
    | ((try dsimp only); repeat' split) <;> first | rfl | simp

@[simp] theorem State.standStill_hostCopy (s : State) (c : Ctx) : (State.standStill s c).hostCopy = s.hostCopy := by
  unfold State.standStill
  first
    | rfl
    | exact foldl_field State.hostCopy _ (fun s e => by first | simp | (split <;> simp)) _ _
    | ((try dsimp only); repeat' split) <;> first | rfl | simp

@[simp] theorem State.recordWord_mem (s before : State) (c : Ctx) (i : Instr) (traced guest : Bool) (seen moved : List Seen) : (State.recordWord s before c i traced guest seen moved).mem = s.mem := by
  unfold State.recordWord
  first
    | rfl
    | exact foldl_field State.mem _ (fun s e => by first | simp | (split <;> simp)) _ _
    | ((try dsimp only); repeat' split) <;> first | rfl | simp

@[simp] theorem State.recordWord_hostCopy (s before : State) (c : Ctx) (i : Instr) (traced guest : Bool) (seen moved : List Seen) : (State.recordWord s before c i traced guest seen moved).hostCopy = s.hostCopy := by
  unfold State.recordWord
  first
    | rfl
    | exact foldl_field State.hostCopy _ (fun s e => by first | simp | (split <;> simp)) _ _
    | ((try dsimp only); repeat' split) <;> first | rfl | simp

@[simp] theorem State.stillHalted_mem (s : State) (c : Ctx) (held : Bool) : (State.stillHalted s c held).mem = s.mem := by
  unfold State.stillHalted
  first
    | rfl
    | exact foldl_field State.mem _ (fun s e => by first | simp | (split <;> simp)) _ _
    | ((try dsimp only); repeat' split) <;> first | rfl | simp

@[simp] theorem State.stillHalted_hostCopy (s : State) (c : Ctx) (held : Bool) : (State.stillHalted s c held).hostCopy = s.hostCopy := by
  unfold State.stillHalted
  first
    | rfl
    | exact foldl_field State.hostCopy _ (fun s e => by first | simp | (split <;> simp)) _ _
    | ((try dsimp only); repeat' split) <;> first | rfl | simp

theorem State.startHold_mem (s : State) (c : Ctx) (i : Instr) (h : Gang) : (s.startHold c i h).2.mem = s.mem := by
  unfold State.startHold
  dsimp only
  repeat' split
  all_goals first | rfl | simp

@[simp] theorem State.wordDone_mem (s before : State) (c : Ctx) (i : Instr) : (State.wordDone s before c i).mem = s.mem := by
  unfold State.wordDone
  split
  · rfl
  · next h _ =>
    dsimp only
    repeat' split
    all_goals first
      | rfl
      | simp only [State.endStep_mem, State.stillHalted_mem, State.recordWord_mem, State.startHold_mem]

theorem State.startHold_hostCopy (s : State) (c : Ctx) (i : Instr) (h : Gang) : (s.startHold c i h).2.hostCopy = s.hostCopy := by
  unfold State.startHold
  dsimp only
  repeat' split
  all_goals first | rfl | simp

@[simp] theorem State.wordDone_hostCopy (s before : State) (c : Ctx) (i : Instr) : (State.wordDone s before c i).hostCopy = s.hostCopy := by
  unfold State.wordDone
  split
  · rfl
  · next h _ =>
    dsimp only
    repeat' split
    all_goals first
      | rfl
      | simp only [State.endStep_hostCopy, State.stillHalted_hostCopy, State.recordWord_hostCopy, State.startHold_hostCopy]

end Sys2Proof.Machine
end

