-- ==== Sys2Proof/Laws/Host.lean ====
section
/-!
SUPPORT. What the operations of the host link, of the error windows and of the start record can change: one lemma each that names
the fields they write, and the fields that provers read behind them.
-/
namespace Sys2Proof.Machine

/-- Raising a vector writes the messages and the pending bits alone. -/
theorem HostLink.raise_only (h : HostLink) (v : Nat) :
    h.raise v = { h with msix := (h.raise v).msix, msixPending := (h.raise v).msixPending } := by
  unfold HostLink.raise; split <;> rfl

theorem HostLink.raise_open (h : HostLink) (v : Nat) (hm : h.masked v = false) : h.raise v = { h with msix := h.msix ++ [v] } := by
  simp [HostLink.raise, hm]

theorem HostLink.raise_masked (h : HostLink) (v : Nat) (hm : h.masked v = true) :
    h.raise v = { h with msixPending := h.msixPending ||| (1 : BitVec 2048) <<< v } := by
  simp [HostLink.raise, hm]

@[simp] theorem HostLink.raise_featAcc (h : HostLink) (v : Nat) : (h.raise v).featAcc = h.featAcc := by rw [HostLink.raise_only]
@[simp] theorem HostLink.raise_locked (h : HostLink) (v : Nat) : (h.raise v).locked = h.locked := by rw [HostLink.raise_only]
@[simp] theorem HostLink.raise_done (h : HostLink) (v : Nat) : (h.raise v).done = h.done := by rw [HostLink.raise_only]
@[simp] theorem HostLink.raise_startStat (h : HostLink) (v : Nat) : (h.raise v).startStat = h.startStat := by rw [HostLink.raise_only]
@[simp] theorem HostLink.raise_pwrStat (h : HostLink) (v : Nat) : (h.raise v).pwrStat = h.pwrStat := by rw [HostLink.raise_only]
@[simp] theorem HostLink.raise_pwrCap (h : HostLink) (v : Nat) : (h.raise v).pwrCap = h.pwrCap := by rw [HostLink.raise_only]
@[simp] theorem HostLink.raise_msixTable (h : HostLink) (v : Nat) : (h.raise v).msixTable = h.msixTable := by rw [HostLink.raise_only]
@[simp] theorem HostLink.raise_stopMarkers (h : HostLink) (v : Nat) : (h.raise v).stopMarkers = h.stopMarkers := by
  rw [HostLink.raise_only]

/-- The turn of an error window writes the counts and the windows alone. -/
theorem State.turnWindow_only (s : State) (owner : Nat) :
    s.turnWindow owner = { s with errCounts := (s.turnWindow owner).errCounts, errWindows := (s.turnWindow owner).errWindows } := by
  unfold State.turnWindow; split <;> rfl

theorem State.turnWindow_same (s : State) (owner : Nat) (h : Store.getD s.errWindows owner 0 = s.errWindow owner) :
    s.turnWindow owner = s := by
  simp [State.turnWindow, h]

/-- A write of the start record replaces the older copy. -/
theorem Flash.writeRecord_only (f : Flash) (r : StartRec) :
    f.writeRecord r = if f.olderIs0 then { f with rec0 := { r with gen := f.record.gen + 1 }.copy }
      else { f with rec1 := { r with gen := f.record.gen + 1 }.copy } := rfl

@[simp] theorem Flash.writeRecord_keySlots (f : Flash) (r : StartRec) : (f.writeRecord r).keySlots = f.keySlots := by
  unfold Flash.writeRecord; split <;> rfl
@[simp] theorem Flash.writeRecord_minVersion (f : Flash) (r : StartRec) : (f.writeRecord r).minVersion = f.minVersion := by
  unfold Flash.writeRecord; split <;> rfl
@[simp] theorem Flash.raiseVersion_keySlots (f : Flash) (kind v : Nat) : (f.raiseVersion kind v).keySlots = f.keySlots := rfl
@[simp] theorem Flash.raiseVersion_rec0 (f : Flash) (kind v : Nat) : (f.raiseVersion kind v).rec0 = f.rec0 := rfl
@[simp] theorem Flash.raiseVersion_rec1 (f : Flash) (kind v : Nat) : (f.raiseVersion kind v).rec1 = f.rec1 := rfl

/-- A verification answers one of four statuses (R336). -/
theorem Flash.verify_cases (f : Flash) (i : Image) (kind : Nat) (good : Bool) :
    f.verify i kind good = stOk ∨ f.verify i kind good = stBad ∨ f.verify i kind good = stSignature ∨ f.verify i kind good = stRollback := by
  unfold Flash.verify; repeat' split
  all_goals simp

/-- With a bad signature no image verifies. -/
theorem Flash.verify_bad (f : Flash) (i : Image) (kind : Nat) : f.verify i kind false ≠ stOk := by
  unfold Flash.verify; split
  · decide
  · simp [stSignature, stOk]

end Sys2Proof.Machine
end

