-- ==== Sys2Proof/Laws/Issue.lean ====
section
/-!
SUPPORT. What issuing a word can come to: the lemmas every instruction's statement is proved through, so that no proof unfolds
`issueWord`.
-/
namespace Sys2Proof.Machine

/-- A word that executes: the state its effect leaves, and the group behind it. -/
theorem issueWord_ok {coll mask : Bool} {body : Ctx → State → Res} {s t : State} {c : Ctx} (h : Issues s c coll mask)
    (hb : body c s = .ok t) : issueWord coll mask body s = t.advance c.uid c.slice := by
  unfold issueWord
  rw [h.ctx]
  dsimp only
  rw [h.notSkipped]
  cases hc : coll with
  | false => simp [hb, Res.finish]
  | true => simp [h.collected hc, hb, Res.finish]

/-- A word after which the group has left the clause, or holds at it. -/
theorem issueWord_left {coll mask : Bool} {body : Ctx → State → Res} {s t : State} {c : Ctx} (h : Issues s c coll mask)
    (hb : body c s = .left t) : issueWord coll mask body s = t := by
  unfold issueWord
  rw [h.ctx]
  dsimp only
  rw [h.notSkipped]
  cases hc : coll with
  | false => simp [hb, Res.finish]
  | true => simp [h.collected hc, hb, Res.finish]

/-- A word that faults. -/
theorem issueWord_trap {coll mask : Bool} {body : Ctx → State → Res} {s t : State} {c : Ctx} {code : Code} {tval : W64}
    (h : Issues s c coll mask) (hb : body c s = .trap t code tval) : issueWord coll mask body s = t.faults c code tval := by
  unfold issueWord
  rw [h.ctx]
  dsimp only
  rw [h.notSkipped]
  cases hc : coll with
  | false => simp [hb, Res.finish, State.faults]
  | true => simp [h.collected hc, hb, Res.finish, State.faults]

/-- A word that is not enabled: nothing happens. -/
theorem issueWord_stay {coll mask : Bool} {body : Ctx → State → Res} {s : State} {c : Ctx} (h : Issues s c coll mask)
    (hb : body c s = .stay) : issueWord coll mask body s = s := by
  unfold issueWord
  rw [h.ctx]
  dsimp only
  rw [h.notSkipped]
  cases hc : coll with
  | false => simp [hb, Res.finish]
  | true => simp [h.collected hc, hb, Res.finish]

/-- A word that every active lane skips is passed (R120). -/
theorem issueWord_skip {coll mask : Bool} {body : Ctx → State → Res} {s : State} {c : Ctx} (h : s.ctx? = some c)
    (hs : c.skipped mask = true) : issueWord coll mask body s = s.advance c.uid c.slice := by
  unfold issueWord
  rw [h]
  simp [hs]

/-- A word does nothing where no group of the machine is to issue one. -/
theorem issueWord_none {coll mask : Bool} {body : Ctx → State → Res} {s : State} (h : s.ctx? = none) : issueWord coll mask body s = s := by
  unfold issueWord
  rw [h]

/-- What the state of a result satisfies. -/
def Res.All (P : State → Prop) : Res → Prop
  | .ok s => P s
  | .left s => P s
  | .trap s _ _ => P s
  | .stay => True

/-- A property that faults, holds and the passing of a word keep, and that a word's effect keeps, is kept by issuing it. -/
theorem issueWord_keeps (P : State → Prop) (hadv : ∀ s u k, P s → P (s.advance u k)) (hhold : ∀ s c st, P s → P (s.holdAs c st))
    (hfault : ∀ s u k f, P s → P (s.takeFault u k f)) (hraise : ∀ s c e, P s → P (s.raiseErr c e)) (coll mask : Bool)
    (body : Ctx → State → Res) (s : State) (h : P s) (hb : ∀ c, s.ctx? = some c → (body c s).All P) : P (issueWord coll mask body s) := by
  unfold issueWord
  cases hc : s.ctx? with
  | none => exact h
  | some c =>
    dsimp only
    have hb := hb c hc
    split
    · exact hadv _ _ _ h
    · split
      · split
        · exact hraise _ _ _ h
        · exact hhold _ _ _ h
      · cases hr : body c s <;> rw [hr] at hb <;> simp only [Res.All] at hb <;> simp only [Res.finish]
        · exact hadv _ _ _ hb
        · exact hb
        · exact hfault _ _ _ _ hb
        · exact h

/-- A word whose effect leaves the bytes of memory leaves them. -/
theorem issueWord_bytes (coll mask : Bool) (body : Ctx → State → Res) (s : State)
    (hb : ∀ c, s.ctx? = some c → (body c s).All (fun t => t.mem = s.mem ∧ t.hostCopy = s.hostCopy)) :
    (issueWord coll mask body s).mem = s.mem ∧ (issueWord coll mask body s).hostCopy = s.hostCopy :=
  issueWord_keeps (fun t => t.mem = s.mem ∧ t.hostCopy = s.hostCopy) (fun _ _ _ h => by simpa using h) (fun _ _ _ h => by simpa using h)
    (fun _ _ _ _ h => by simpa using h) (fun _ _ _ h => by simpa using h) coll mask body s ⟨rfl, rfl⟩ hb

/-- Equal memory and equal copies read the same everywhere. -/
theorem sameBytes_of (s t : State) (hm : t.mem = s.mem) (hc : t.hostCopy = s.hostCopy) : SameBytes s t := by
  intro a
  unfold State.readByte
  rw [hm, hc]

end Sys2Proof.Machine
end

