-- ==== Sys2Proof/Laws/PerInstr.lean ====
section
/-!
SUPPORT. The per-instruction family Coding: the word of a well-formed instruction decodes, in the instruction's class, to
that instruction; and exactly the instructions of a class have a word (R63, R66 to R77).
-/
namespace Sys2Proof.Laws

/-- Decoding and encoding agree on one instruction. -/
def Coding.Statement (i : Instr) : Prop :=
  i.cls.isSome = (encode i).isSome ∧
    ∀ c w, i.wf = true → i.cls = some c → encode i = some w → decodeWord c w = .ok i

/-- A word whose class reads it as a well-formed instruction. -/
theorem Coding.word (i : Instr) (k : Cls) (v : W64) (hc : i.cls = some k) (he : encode i = some v)
    (h : (match k with
      | .press => decPress v
      | .matrix => decMatrix v
      | .request => decRequest v
      | .debug => decDebug v
      | .compositor => decCompositor v) = .ok i) : Coding.Statement i := by
  refine ⟨by rw [hc, he]; rfl, fun c w hwf hc' he' => ?_⟩
  rw [hc] at hc'
  rw [he] at he'
  cases hc'
  cases he'
  cases k <;> simp only at h <;> simp only [decodeWord, h, hwf, if_true]

/-- A transition is no word. -/
theorem Coding.none (i : Instr) (hc : i.cls = Option.none) (he : encode i = Option.none) : Coding.Statement i :=
  ⟨by rw [hc, he]; rfl, fun c w _ hc' _ => by rw [hc] at hc'; cases hc'⟩

theorem Coding.smov (f : FmtS) : Coding.Statement (.smov f) := by
  have h := decS_encS 0x000 f
  refine Coding.word _ .press (encS 0x000 f) rfl rfl ?_
  show decPress (encS 0x000 f) = _
  unfold decPress
  rw [h.2]
  exact congrArg (Except.map Instr.smov) h.1

theorem Coding.smovi (f : FmtI) : Coding.Statement (.smovi f) := by
  have h := decI_encI 0x001 f
  refine Coding.word _ .press (encI 0x001 f) rfl rfl ?_
  show decPress (encI 0x001 f) = _
  unfold decPress
  rw [h.2]
  exact congrArg (Except.map Instr.smovi) h.1

theorem Coding.sadd (f : FmtS) : Coding.Statement (.sadd f) := by
  have h := decS_encS 0x002 f
  refine Coding.word _ .press (encS 0x002 f) rfl rfl ?_
  show decPress (encS 0x002 f) = _
  unfold decPress
  rw [h.2]
  exact congrArg (Except.map Instr.sadd) h.1

theorem Coding.ssub (f : FmtS) : Coding.Statement (.ssub f) := by
  have h := decS_encS 0x003 f
  refine Coding.word _ .press (encS 0x003 f) rfl rfl ?_
  show decPress (encS 0x003 f) = _
  unfold decPress
  rw [h.2]
  exact congrArg (Except.map Instr.ssub) h.1

theorem Coding.smul (f : FmtS) : Coding.Statement (.smul f) := by
  have h := decS_encS 0x004 f
  refine Coding.word _ .press (encS 0x004 f) rfl rfl ?_
  show decPress (encS 0x004 f) = _
  unfold decPress
  rw [h.2]
  exact congrArg (Except.map Instr.smul) h.1

theorem Coding.smulh (f : FmtS) : Coding.Statement (.smulh f) := by
  have h := decS_encS 0x005 f
  refine Coding.word _ .press (encS 0x005 f) rfl rfl ?_
  show decPress (encS 0x005 f) = _
  unfold decPress
  rw [h.2]
  exact congrArg (Except.map Instr.smulh) h.1

theorem Coding.sand (f : FmtS) : Coding.Statement (.sand f) := by
  have h := decS_encS 0x006 f
  refine Coding.word _ .press (encS 0x006 f) rfl rfl ?_
  show decPress (encS 0x006 f) = _
  unfold decPress
  rw [h.2]
  exact congrArg (Except.map Instr.sand) h.1

theorem Coding.sor (f : FmtS) : Coding.Statement (.sor f) := by
  have h := decS_encS 0x007 f
  refine Coding.word _ .press (encS 0x007 f) rfl rfl ?_
  show decPress (encS 0x007 f) = _
  unfold decPress
  rw [h.2]
  exact congrArg (Except.map Instr.sor) h.1

theorem Coding.sxor (f : FmtS) : Coding.Statement (.sxor f) := by
  have h := decS_encS 0x008 f
  refine Coding.word _ .press (encS 0x008 f) rfl rfl ?_
  show decPress (encS 0x008 f) = _
  unfold decPress
  rw [h.2]
  exact congrArg (Except.map Instr.sxor) h.1

theorem Coding.sshl (f : FmtS) : Coding.Statement (.sshl f) := by
  have h := decS_encS 0x009 f
  refine Coding.word _ .press (encS 0x009 f) rfl rfl ?_
  show decPress (encS 0x009 f) = _
  unfold decPress
  rw [h.2]
  exact congrArg (Except.map Instr.sshl) h.1

theorem Coding.sshr (f : FmtS) : Coding.Statement (.sshr f) := by
  have h := decS_encS 0x00A f
  refine Coding.word _ .press (encS 0x00A f) rfl rfl ?_
  show decPress (encS 0x00A f) = _
  unfold decPress
  rw [h.2]
  exact congrArg (Except.map Instr.sshr) h.1

theorem Coding.ssra (f : FmtS) : Coding.Statement (.ssra f) := by
  have h := decS_encS 0x00B f
  refine Coding.word _ .press (encS 0x00B f) rfl rfl ?_
  show decPress (encS 0x00B f) = _
  unfold decPress
  rw [h.2]
  exact congrArg (Except.map Instr.ssra) h.1

theorem Coding.smin (f : FmtS) : Coding.Statement (.smin f) := by
  have h := decS_encS 0x00C f
  refine Coding.word _ .press (encS 0x00C f) rfl rfl ?_
  show decPress (encS 0x00C f) = _
  unfold decPress
  rw [h.2]
  exact congrArg (Except.map Instr.smin) h.1

theorem Coding.smax (f : FmtS) : Coding.Statement (.smax f) := by
  have h := decS_encS 0x00D f
  refine Coding.word _ .press (encS 0x00D f) rfl rfl ?_
  show decPress (encS 0x00D f) = _
  unfold decPress
  rw [h.2]
  exact congrArg (Except.map Instr.smax) h.1

theorem Coding.scmp (f : FmtS) : Coding.Statement (.scmp f) := by
  have h := decS_encS 0x00E f
  refine Coding.word _ .press (encS 0x00E f) rfl rfl ?_
  show decPress (encS 0x00E f) = _
  unfold decPress
  rw [h.2]
  exact congrArg (Except.map Instr.scmp) h.1

theorem Coding.ssel (f : FmtS) : Coding.Statement (.ssel f) := by
  have h := decS_encS 0x00F f
  refine Coding.word _ .press (encS 0x00F f) rfl rfl ?_
  show decPress (encS 0x00F f) = _
  unfold decPress
  rw [h.2]
  exact congrArg (Except.map Instr.ssel) h.1

theorem Coding.sclz (f : FmtS) : Coding.Statement (.sclz f) := by
  have h := decS_encS 0x010 f
  refine Coding.word _ .press (encS 0x010 f) rfl rfl ?_
  show decPress (encS 0x010 f) = _
  unfold decPress
  rw [h.2]
  exact congrArg (Except.map Instr.sclz) h.1

theorem Coding.spopc (f : FmtS) : Coding.Statement (.spopc f) := by
  have h := decS_encS 0x011 f
  refine Coding.word _ .press (encS 0x011 f) rfl rfl ?_
  show decPress (encS 0x011 f) = _
  unfold decPress
  rw [h.2]
  exact congrArg (Except.map Instr.spopc) h.1

theorem Coding.sbfe (f : FmtS) : Coding.Statement (.sbfe f) := by
  have h := decS_encS 0x012 f
  refine Coding.word _ .press (encS 0x012 f) rfl rfl ?_
  show decPress (encS 0x012 f) = _
  unfold decPress
  rw [h.2]
  exact congrArg (Except.map Instr.sbfe) h.1

theorem Coding.sbfi (f : FmtS) : Coding.Statement (.sbfi f) := by
  have h := decS_encS 0x013 f
  refine Coding.word _ .press (encS 0x013 f) rfl rfl ?_
  show decPress (encS 0x013 f) = _
  unfold decPress
  rw [h.2]
  exact congrArg (Except.map Instr.sbfi) h.1

theorem Coding.bra (f : FmtB) : Coding.Statement (.bra f) := by
  have h := decB_encB 0x080 f
  refine Coding.word _ .press (encB 0x080 f) rfl rfl ?_
  show decPress (encB 0x080 f) = _
  unfold decPress
  rw [h.2]
  exact congrArg (Except.map Instr.bra) h.1

theorem Coding.bru (f : FmtB) : Coding.Statement (.bru f) := by
  have h := decB_encB 0x081 f
  refine Coding.word _ .press (encB 0x081 f) rfl rfl ?_
  show decPress (encB 0x081 f) = _
  unfold decPress
  rw [h.2]
  exact congrArg (Except.map Instr.bru) h.1

theorem Coding.brv (f : FmtB) : Coding.Statement (.brv f) := by
  have h := decB_encB 0x082 f
  refine Coding.word _ .press (encB 0x082 f) rfl rfl ?_
  show decPress (encB 0x082 f) = _
  unfold decPress
  rw [h.2]
  exact congrArg (Except.map Instr.brv) h.1

theorem Coding.brau (f : FmtB) : Coding.Statement (.brau f) := by
  have h := decB_encB 0x083 f
  refine Coding.word _ .press (encB 0x083 f) rfl rfl ?_
  show decPress (encB 0x083 f) = _
  unfold decPress
  rw [h.2]
  exact congrArg (Except.map Instr.brau) h.1

theorem Coding.skip (f : FmtK) : Coding.Statement (.skip f) := by
  have h := decK_encK 0x084 f
  refine Coding.word _ .press (encK 0x084 f) rfl rfl ?_
  show decPress (encK 0x084 f) = _
  unfold decPress
  rw [h.2]
  exact congrArg (Except.map Instr.skip) h.1

theorem Coding.call (f : FmtBL) : Coding.Statement (.call f) := by
  have h := decBL_encBL 0x085 f
  refine Coding.word _ .press (encBL 0x085 f) rfl rfl ?_
  show decPress (encBL 0x085 f) = _
  unfold decPress
  rw [h.2]
  exact congrArg (Except.map Instr.call) h.1

theorem Coding.ret (f : FmtB) : Coding.Statement (.ret f) := by
  have h := decB_encB 0x086 f
  refine Coding.word _ .press (encB 0x086 f) rfl rfl ?_
  show decPress (encB 0x086 f) = _
  unfold decPress
  rw [h.2]
  exact congrArg (Except.map Instr.ret) h.1

theorem Coding.join (f : FmtB) : Coding.Statement (.join f) := by
  have h := decB_encB 0x087 f
  refine Coding.word _ .press (encB 0x087 f) rfl rfl ?_
  show decPress (encB 0x087 f) = _
  unfold decPress
  rw [h.2]
  exact congrArg (Except.map Instr.join) h.1

theorem Coding.gangAll (f : FmtK) : Coding.Statement (.gangAll f) := by
  have h := decK_encK 0x088 f
  refine Coding.word _ .press (encK 0x088 f) rfl rfl ?_
  show decPress (encK 0x088 f) = _
  unfold decPress
  rw [h.2]
  exact congrArg (Except.map Instr.gangAll) h.1

theorem Coding.exit (f : FmtK) : Coding.Statement (.exit f) := by
  have h := decK_encK 0x089 f
  refine Coding.word _ .press (encK 0x089 f) rfl rfl ?_
  show decPress (encK 0x089 f) = _
  unfold decPress
  rw [h.2]
  exact congrArg (Except.map Instr.exit) h.1

theorem Coding.trap (f : FmtK) : Coding.Statement (.trap f) := by
  have h := decK_encK 0x08A f
  refine Coding.word _ .press (encK 0x08A f) rfl rfl ?_
  show decPress (encK 0x08A f) = _
  unfold decPress
  rw [h.2]
  exact congrArg (Except.map Instr.trap) h.1

theorem Coding.yield (f : FmtB) : Coding.Statement (.yield f) := by
  have h := decB_encB 0x08B f
  refine Coding.word _ .press (encB 0x08B f) rfl rfl ?_
  show decPress (encB 0x08B f) = _
  unfold decPress
  rw [h.2]
  exact congrArg (Except.map Instr.yield) h.1

theorem Coding.nop (f : FmtK) : Coding.Statement (.nop f) := by
  have h := decK_encK 0x08C f
  refine Coding.word _ .press (encK 0x08C f) rfl rfl ?_
  show decPress (encK 0x08C f) = _
  unfold decPress
  rw [h.2]
  exact congrArg (Except.map Instr.nop) h.1

theorem Coding.mand (f : FmtS) : Coding.Statement (.mand f) := by
  have h := decS_encS 0x090 f
  refine Coding.word _ .press (encS 0x090 f) rfl rfl ?_
  show decPress (encS 0x090 f) = _
  unfold decPress
  rw [h.2]
  exact congrArg (Except.map Instr.mand) h.1

theorem Coding.mor (f : FmtS) : Coding.Statement (.mor f) := by
  have h := decS_encS 0x091 f
  refine Coding.word _ .press (encS 0x091 f) rfl rfl ?_
  show decPress (encS 0x091 f) = _
  unfold decPress
  rw [h.2]
  exact congrArg (Except.map Instr.mor) h.1

theorem Coding.mxor (f : FmtS) : Coding.Statement (.mxor f) := by
  have h := decS_encS 0x092 f
  refine Coding.word _ .press (encS 0x092 f) rfl rfl ?_
  show decPress (encS 0x092 f) = _
  unfold decPress
  rw [h.2]
  exact congrArg (Except.map Instr.mxor) h.1

theorem Coding.mnot (f : FmtS) : Coding.Statement (.mnot f) := by
  have h := decS_encS 0x093 f
  refine Coding.word _ .press (encS 0x093 f) rfl rfl ?_
  show decPress (encS 0x093 f) = _
  unfold decPress
  rw [h.2]
  exact congrArg (Except.map Instr.mnot) h.1

theorem Coding.mmov (f : FmtS) : Coding.Statement (.mmov f) := by
  have h := decS_encS 0x094 f
  refine Coding.word _ .press (encS 0x094 f) rfl rfl ?_
  show decPress (encS 0x094 f) = _
  unfold decPress
  rw [h.2]
  exact congrArg (Except.map Instr.mmov) h.1

theorem Coding.mpopc (f : FmtS) : Coding.Statement (.mpopc f) := by
  have h := decS_encS 0x095 f
  refine Coding.word _ .press (encS 0x095 f) rfl rfl ?_
  show decPress (encS 0x095 f) = _
  unfold decPress
  rw [h.2]
  exact congrArg (Except.map Instr.mpopc) h.1

theorem Coding.mfirst (f : FmtS) : Coding.Statement (.mfirst f) := by
  have h := decS_encS 0x096 f
  refine Coding.word _ .press (encS 0x096 f) rfl rfl ?_
  show decPress (encS 0x096 f) = _
  unfold decPress
  rw [h.2]
  exact congrArg (Except.map Instr.mfirst) h.1

theorem Coding.measure (f : FmtS) : Coding.Statement (.measure f) := by
  have h := decS_encS 0x097 f
  refine Coding.word _ .press (encS 0x097 f) rfl rfl ?_
  show decPress (encS 0x097 f) = _
  unfold decPress
  rw [h.2]
  exact congrArg (Except.map Instr.measure) h.1

theorem Coding.srd (f : FmtS) : Coding.Statement (.srd f) := by
  have h := decS_encS 0x098 f
  refine Coding.word _ .press (encS 0x098 f) rfl rfl ?_
  show decPress (encS 0x098 f) = _
  unfold decPress
  rw [h.2]
  exact congrArg (Except.map Instr.srd) h.1

theorem Coding.swr (f : FmtS) : Coding.Statement (.swr f) := by
  have h := decS_encS 0x099 f
  refine Coding.word _ .press (encS 0x099 f) rfl rfl ?_
  show decPress (encS 0x099 f) = _
  unfold decPress
  rw [h.2]
  exact congrArg (Except.map Instr.swr) h.1

theorem Coding.vadd (f : FmtA2) : Coding.Statement (.vadd f) := by
  have h := decA2_encA2 0x100 f
  refine Coding.word _ .press (encA2 0x100 f) rfl rfl ?_
  show decPress (encA2 0x100 f) = _
  unfold decPress
  rw [h.2]
  exact congrArg (Except.map Instr.vadd) h.1

theorem Coding.vsub (f : FmtA2) : Coding.Statement (.vsub f) := by
  have h := decA2_encA2 0x101 f
  refine Coding.word _ .press (encA2 0x101 f) rfl rfl ?_
  show decPress (encA2 0x101 f) = _
  unfold decPress
  rw [h.2]
  exact congrArg (Except.map Instr.vsub) h.1

theorem Coding.vmul (f : FmtA2) : Coding.Statement (.vmul f) := by
  have h := decA2_encA2 0x102 f
  refine Coding.word _ .press (encA2 0x102 f) rfl rfl ?_
  show decPress (encA2 0x102 f) = _
  unfold decPress
  rw [h.2]
  exact congrArg (Except.map Instr.vmul) h.1

theorem Coding.vmulh (f : FmtA2) : Coding.Statement (.vmulh f) := by
  have h := decA2_encA2 0x103 f
  refine Coding.word _ .press (encA2 0x103 f) rfl rfl ?_
  show decPress (encA2 0x103 f) = _
  unfold decPress
  rw [h.2]
  exact congrArg (Except.map Instr.vmulh) h.1

theorem Coding.vmad (f : FmtA3) : Coding.Statement (.vmad f) := by
  have h := decA3_encA3 0x104 f
  refine Coding.word _ .press (encA3 0x104 f) rfl rfl ?_
  show decPress (encA3 0x104 f) = _
  unfold decPress
  rw [h.2]
  exact congrArg (Except.map Instr.vmad) h.1

theorem Coding.vand (f : FmtA2) : Coding.Statement (.vand f) := by
  have h := decA2_encA2 0x105 f
  refine Coding.word _ .press (encA2 0x105 f) rfl rfl ?_
  show decPress (encA2 0x105 f) = _
  unfold decPress
  rw [h.2]
  exact congrArg (Except.map Instr.vand) h.1

theorem Coding.vor (f : FmtA2) : Coding.Statement (.vor f) := by
  have h := decA2_encA2 0x106 f
  refine Coding.word _ .press (encA2 0x106 f) rfl rfl ?_
  show decPress (encA2 0x106 f) = _
  unfold decPress
  rw [h.2]
  exact congrArg (Except.map Instr.vor) h.1

theorem Coding.vxor (f : FmtA2) : Coding.Statement (.vxor f) := by
  have h := decA2_encA2 0x107 f
  refine Coding.word _ .press (encA2 0x107 f) rfl rfl ?_
  show decPress (encA2 0x107 f) = _
  unfold decPress
  rw [h.2]
  exact congrArg (Except.map Instr.vxor) h.1

theorem Coding.vnot (f : FmtA2) : Coding.Statement (.vnot f) := by
  have h := decA2_encA2 0x108 f
  refine Coding.word _ .press (encA2 0x108 f) rfl rfl ?_
  show decPress (encA2 0x108 f) = _
  unfold decPress
  rw [h.2]
  exact congrArg (Except.map Instr.vnot) h.1

theorem Coding.vshl (f : FmtA2) : Coding.Statement (.vshl f) := by
  have h := decA2_encA2 0x109 f
  refine Coding.word _ .press (encA2 0x109 f) rfl rfl ?_
  show decPress (encA2 0x109 f) = _
  unfold decPress
  rw [h.2]
  exact congrArg (Except.map Instr.vshl) h.1

theorem Coding.vshr (f : FmtA2) : Coding.Statement (.vshr f) := by
  have h := decA2_encA2 0x10A f
  refine Coding.word _ .press (encA2 0x10A f) rfl rfl ?_
  show decPress (encA2 0x10A f) = _
  unfold decPress
  rw [h.2]
  exact congrArg (Except.map Instr.vshr) h.1

theorem Coding.vsra (f : FmtA2) : Coding.Statement (.vsra f) := by
  have h := decA2_encA2 0x10B f
  refine Coding.word _ .press (encA2 0x10B f) rfl rfl ?_
  show decPress (encA2 0x10B f) = _
  unfold decPress
  rw [h.2]
  exact congrArg (Except.map Instr.vsra) h.1

theorem Coding.vmin (f : FmtA2) : Coding.Statement (.vmin f) := by
  have h := decA2_encA2 0x10C f
  refine Coding.word _ .press (encA2 0x10C f) rfl rfl ?_
  show decPress (encA2 0x10C f) = _
  unfold decPress
  rw [h.2]
  exact congrArg (Except.map Instr.vmin) h.1

theorem Coding.vmax (f : FmtA2) : Coding.Statement (.vmax f) := by
  have h := decA2_encA2 0x10D f
  refine Coding.word _ .press (encA2 0x10D f) rfl rfl ?_
  show decPress (encA2 0x10D f) = _
  unfold decPress
  rw [h.2]
  exact congrArg (Except.map Instr.vmax) h.1

theorem Coding.vabs (f : FmtA2) : Coding.Statement (.vabs f) := by
  have h := decA2_encA2 0x10E f
  refine Coding.word _ .press (encA2 0x10E f) rfl rfl ?_
  show decPress (encA2 0x10E f) = _
  unfold decPress
  rw [h.2]
  exact congrArg (Except.map Instr.vabs) h.1

theorem Coding.vclz (f : FmtA2) : Coding.Statement (.vclz f) := by
  have h := decA2_encA2 0x10F f
  refine Coding.word _ .press (encA2 0x10F f) rfl rfl ?_
  show decPress (encA2 0x10F f) = _
  unfold decPress
  rw [h.2]
  exact congrArg (Except.map Instr.vclz) h.1

theorem Coding.vpopc (f : FmtA2) : Coding.Statement (.vpopc f) := by
  have h := decA2_encA2 0x110 f
  refine Coding.word _ .press (encA2 0x110 f) rfl rfl ?_
  show decPress (encA2 0x110 f) = _
  unfold decPress
  rw [h.2]
  exact congrArg (Except.map Instr.vpopc) h.1

theorem Coding.vbfe (f : FmtA3) : Coding.Statement (.vbfe f) := by
  have h := decA3_encA3 0x111 f
  refine Coding.word _ .press (encA3 0x111 f) rfl rfl ?_
  show decPress (encA3 0x111 f) = _
  unfold decPress
  rw [h.2]
  exact congrArg (Except.map Instr.vbfe) h.1

theorem Coding.vbfi (f : FmtA3) : Coding.Statement (.vbfi f) := by
  have h := decA3_encA3 0x112 f
  refine Coding.word _ .press (encA3 0x112 f) rfl rfl ?_
  show decPress (encA3 0x112 f) = _
  unfold decPress
  rw [h.2]
  exact congrArg (Except.map Instr.vbfi) h.1

theorem Coding.vsel (f : FmtA3) : Coding.Statement (.vsel f) := by
  have h := decA3_encA3 0x113 f
  refine Coding.word _ .press (encA3 0x113 f) rfl rfl ?_
  show decPress (encA3 0x113 f) = _
  unfold decPress
  rw [h.2]
  exact congrArg (Except.map Instr.vsel) h.1

theorem Coding.vcmp (f : FmtA2S) : Coding.Statement (.vcmp f) := by
  have h := decA2S_encA2S 0x114 f
  refine Coding.word _ .press (encA2S 0x114 f) rfl rfl ?_
  show decPress (encA2S 0x114 f) = _
  unfold decPress
  rw [h.2]
  exact congrArg (Except.map Instr.vcmp) h.1

theorem Coding.vmov (f : FmtA2) : Coding.Statement (.vmov f) := by
  have h := decA2_encA2 0x115 f
  refine Coding.word _ .press (encA2 0x115 f) rfl rfl ?_
  show decPress (encA2 0x115 f) = _
  unfold decPress
  rw [h.2]
  exact congrArg (Except.map Instr.vmov) h.1

theorem Coding.vmovi (f : FmtI) : Coding.Statement (.vmovi f) := by
  have h := decI_encI 0x116 f
  refine Coding.word _ .press (encI 0x116 f) rfl rfl ?_
  show decPress (encI 0x116 f) = _
  unfold decPress
  rw [h.2]
  exact congrArg (Except.map Instr.vmovi) h.1

theorem Coding.vadd2 (f : FmtA2) : Coding.Statement (.vadd2 f) := by
  have h := decA2_encA2 0x120 f
  refine Coding.word _ .press (encA2 0x120 f) rfl rfl ?_
  show decPress (encA2 0x120 f) = _
  unfold decPress
  rw [h.2]
  exact congrArg (Except.map Instr.vadd2) h.1

theorem Coding.vsub2 (f : FmtA2) : Coding.Statement (.vsub2 f) := by
  have h := decA2_encA2 0x121 f
  refine Coding.word _ .press (encA2 0x121 f) rfl rfl ?_
  show decPress (encA2 0x121 f) = _
  unfold decPress
  rw [h.2]
  exact congrArg (Except.map Instr.vsub2) h.1

theorem Coding.vmac2 (f : FmtA3) : Coding.Statement (.vmac2 f) := by
  have h := decA3_encA3 0x122 f
  refine Coding.word _ .press (encA3 0x122 f) rfl rfl ?_
  show decPress (encA3 0x122 f) = _
  unfold decPress
  rw [h.2]
  exact congrArg (Except.map Instr.vmac2) h.1

theorem Coding.vdot4 (f : FmtA3) : Coding.Statement (.vdot4 f) := by
  have h := decA3_encA3 0x123 f
  refine Coding.word _ .press (encA3 0x123 f) rfl rfl ?_
  show decPress (encA3 0x123 f) = _
  unfold decPress
  rw [h.2]
  exact congrArg (Except.map Instr.vdot4) h.1

theorem Coding.vqadd (f : FmtA2) : Coding.Statement (.vqadd f) := by
  have h := decA2_encA2 0x124 f
  refine Coding.word _ .press (encA2 0x124 f) rfl rfl ?_
  show decPress (encA2 0x124 f) = _
  unfold decPress
  rw [h.2]
  exact congrArg (Except.map Instr.vqadd) h.1

theorem Coding.vqsub (f : FmtA2) : Coding.Statement (.vqsub f) := by
  have h := decA2_encA2 0x125 f
  refine Coding.word _ .press (encA2 0x125 f) rfl rfl ?_
  show decPress (encA2 0x125 f) = _
  unfold decPress
  rw [h.2]
  exact congrArg (Except.map Instr.vqsub) h.1

theorem Coding.vshrr (f : FmtA2) : Coding.Statement (.vshrr f) := by
  have h := decA2_encA2 0x126 f
  refine Coding.word _ .press (encA2 0x126 f) rfl rfl ?_
  show decPress (encA2 0x126 f) = _
  unfold decPress
  rw [h.2]
  exact congrArg (Except.map Instr.vshrr) h.1

theorem Coding.vpack (f : FmtA2) : Coding.Statement (.vpack f) := by
  have h := decA2_encA2 0x127 f
  refine Coding.word _ .press (encA2 0x127 f) rfl rfl ?_
  show decPress (encA2 0x127 f) = _
  unfold decPress
  rw [h.2]
  exact congrArg (Except.map Instr.vpack) h.1

theorem Coding.vunpack (f : FmtA2S) : Coding.Statement (.vunpack f) := by
  have h := decA2S_encA2S 0x128 f
  refine Coding.word _ .press (encA2S 0x128 f) rfl rfl ?_
  show decPress (encA2S 0x128 f) = _
  unfold decPress
  rw [h.2]
  exact congrArg (Except.map Instr.vunpack) h.1

theorem Coding.vfadd (f : FmtF2) : Coding.Statement (.vfadd f) := by
  have h := decF2_encF2 0x180 f
  refine Coding.word _ .press (encF2 0x180 f) rfl rfl ?_
  show decPress (encF2 0x180 f) = _
  unfold decPress
  rw [h.2]
  exact congrArg (Except.map Instr.vfadd) h.1

theorem Coding.vfsub (f : FmtF2) : Coding.Statement (.vfsub f) := by
  have h := decF2_encF2 0x181 f
  refine Coding.word _ .press (encF2 0x181 f) rfl rfl ?_
  show decPress (encF2 0x181 f) = _
  unfold decPress
  rw [h.2]
  exact congrArg (Except.map Instr.vfsub) h.1

theorem Coding.vfmul (f : FmtF2) : Coding.Statement (.vfmul f) := by
  have h := decF2_encF2 0x182 f
  refine Coding.word _ .press (encF2 0x182 f) rfl rfl ?_
  show decPress (encF2 0x182 f) = _
  unfold decPress
  rw [h.2]
  exact congrArg (Except.map Instr.vfmul) h.1

theorem Coding.vfma (f : FmtA3) : Coding.Statement (.vfma f) := by
  have h := decA3_encA3 0x183 f
  refine Coding.word _ .press (encA3 0x183 f) rfl rfl ?_
  show decPress (encA3 0x183 f) = _
  unfold decPress
  rw [h.2]
  exact congrArg (Except.map Instr.vfma) h.1

theorem Coding.vfmin (f : FmtF2) : Coding.Statement (.vfmin f) := by
  have h := decF2_encF2 0x184 f
  refine Coding.word _ .press (encF2 0x184 f) rfl rfl ?_
  show decPress (encF2 0x184 f) = _
  unfold decPress
  rw [h.2]
  exact congrArg (Except.map Instr.vfmin) h.1

theorem Coding.vfmax (f : FmtF2) : Coding.Statement (.vfmax f) := by
  have h := decF2_encF2 0x185 f
  refine Coding.word _ .press (encF2 0x185 f) rfl rfl ?_
  show decPress (encF2 0x185 f) = _
  unfold decPress
  rw [h.2]
  exact congrArg (Except.map Instr.vfmax) h.1

theorem Coding.vfrcp (f : FmtF2) : Coding.Statement (.vfrcp f) := by
  have h := decF2_encF2 0x186 f
  refine Coding.word _ .press (encF2 0x186 f) rfl rfl ?_
  show decPress (encF2 0x186 f) = _
  unfold decPress
  rw [h.2]
  exact congrArg (Except.map Instr.vfrcp) h.1

theorem Coding.vfrsq (f : FmtF2) : Coding.Statement (.vfrsq f) := by
  have h := decF2_encF2 0x187 f
  refine Coding.word _ .press (encF2 0x187 f) rfl rfl ?_
  show decPress (encF2 0x187 f) = _
  unfold decPress
  rw [h.2]
  exact congrArg (Except.map Instr.vfrsq) h.1

theorem Coding.vfsqrt (f : FmtF2) : Coding.Statement (.vfsqrt f) := by
  have h := decF2_encF2 0x188 f
  refine Coding.word _ .press (encF2 0x188 f) rfl rfl ?_
  show decPress (encF2 0x188 f) = _
  unfold decPress
  rw [h.2]
  exact congrArg (Except.map Instr.vfsqrt) h.1

theorem Coding.vfexp2 (f : FmtF2) : Coding.Statement (.vfexp2 f) := by
  have h := decF2_encF2 0x189 f
  refine Coding.word _ .press (encF2 0x189 f) rfl rfl ?_
  show decPress (encF2 0x189 f) = _
  unfold decPress
  rw [h.2]
  exact congrArg (Except.map Instr.vfexp2) h.1

theorem Coding.vflog2 (f : FmtF2) : Coding.Statement (.vflog2 f) := by
  have h := decF2_encF2 0x18A f
  refine Coding.word _ .press (encF2 0x18A f) rfl rfl ?_
  show decPress (encF2 0x18A f) = _
  unfold decPress
  rw [h.2]
  exact congrArg (Except.map Instr.vflog2) h.1

theorem Coding.vfcmp (f : FmtA2S) : Coding.Statement (.vfcmp f) := by
  have h := decA2S_encA2S 0x18B f
  refine Coding.word _ .press (encA2S 0x18B f) rfl rfl ?_
  show decPress (encA2S 0x18B f) = _
  unfold decPress
  rw [h.2]
  exact congrArg (Except.map Instr.vfcmp) h.1

theorem Coding.vfclass (f : FmtA2) : Coding.Statement (.vfclass f) := by
  have h := decA2_encA2 0x18C f
  refine Coding.word _ .press (encA2 0x18C f) rfl rfl ?_
  show decPress (encA2 0x18C f) = _
  unfold decPress
  rw [h.2]
  exact congrArg (Except.map Instr.vfclass) h.1

theorem Coding.vcvt (f : FmtCV) : Coding.Statement (.vcvt f) := by
  have h := decCV_encCV 0x190 f
  refine Coding.word _ .press (encCV 0x190 f) rfl rfl ?_
  show decPress (encCV 0x190 f) = _
  unfold decPress
  rw [h.2]
  exact congrArg (Except.map Instr.vcvt) h.1

theorem Coding.vfcvt (f : FmtCV) : Coding.Statement (.vfcvt f) := by
  have h := decCV_encCV 0x191 f
  refine Coding.word _ .press (encCV 0x191 f) rfl rfl ?_
  show decPress (encCV 0x191 f) = _
  unfold decPress
  rw [h.2]
  exact congrArg (Except.map Instr.vfcvt) h.1

theorem Coding.vftoi (f : FmtCV) : Coding.Statement (.vftoi f) := by
  have h := decCV_encCV 0x192 f
  refine Coding.word _ .press (encCV 0x192 f) rfl rfl ?_
  show decPress (encCV 0x192 f) = _
  unfold decPress
  rw [h.2]
  exact congrArg (Except.map Instr.vftoi) h.1

theorem Coding.vitof (f : FmtCV) : Coding.Statement (.vitof f) := by
  have h := decCV_encCV 0x193 f
  refine Coding.word _ .press (encCV 0x193 f) rfl rfl ?_
  show decPress (encCV 0x193 f) = _
  unfold decPress
  rw [h.2]
  exact congrArg (Except.map Instr.vitof) h.1

theorem Coding.vshfl (f : FmtA3S) : Coding.Statement (.vshfl f) := by
  have h := decA3S_encA3S 0x200 f
  refine Coding.word _ .press (encA3S 0x200 f) rfl rfl ?_
  show decPress (encA3S 0x200 f) = _
  unfold decPress
  rw [h.2]
  exact congrArg (Except.map Instr.vshfl) h.1

theorem Coding.vshflx (f : FmtA3S) : Coding.Statement (.vshflx f) := by
  have h := decA3S_encA3S 0x201 f
  refine Coding.word _ .press (encA3S 0x201 f) rfl rfl ?_
  show decPress (encA3S 0x201 f) = _
  unfold decPress
  rw [h.2]
  exact congrArg (Except.map Instr.vshflx) h.1

theorem Coding.vslide (f : FmtA3S) : Coding.Statement (.vslide f) := by
  have h := decA3S_encA3S 0x202 f
  refine Coding.word _ .press (encA3S 0x202 f) rfl rfl ?_
  show decPress (encA3S 0x202 f) = _
  unfold decPress
  rw [h.2]
  exact congrArg (Except.map Instr.vslide) h.1

theorem Coding.vbcast (f : FmtA3S) : Coding.Statement (.vbcast f) := by
  have h := decA3S_encA3S 0x203 f
  refine Coding.word _ .press (encA3S 0x203 f) rfl rfl ?_
  show decPress (encA3S 0x203 f) = _
  unfold decPress
  rw [h.2]
  exact congrArg (Except.map Instr.vbcast) h.1

theorem Coding.vvote (f : FmtA2S) : Coding.Statement (.vvote f) := by
  have h := decA2S_encA2S 0x204 f
  refine Coding.word _ .press (encA2S 0x204 f) rfl rfl ?_
  show decPress (encA2S 0x204 f) = _
  unfold decPress
  rw [h.2]
  exact congrArg (Except.map Instr.vvote) h.1

theorem Coding.vreduce (f : FmtA2S) : Coding.Statement (.vreduce f) := by
  have h := decA2S_encA2S 0x205 f
  refine Coding.word _ .press (encA2S 0x205 f) rfl rfl ?_
  show decPress (encA2S 0x205 f) = _
  unfold decPress
  rw [h.2]
  exact congrArg (Except.map Instr.vreduce) h.1

theorem Coding.vscan (f : FmtA2S) : Coding.Statement (.vscan f) := by
  have h := decA2S_encA2S 0x206 f
  refine Coding.word _ .press (encA2S 0x206 f) rfl rfl ?_
  show decPress (encA2S 0x206 f) = _
  unfold decPress
  rw [h.2]
  exact congrArg (Except.map Instr.vscan) h.1

theorem Coding.ld (f : FmtM) : Coding.Statement (.ld f) := by
  have h := decM_encM 0x280 f
  refine Coding.word _ .press (encM 0x280 f) rfl rfl ?_
  show decPress (encM 0x280 f) = _
  unfold decPress
  rw [h.2]
  exact congrArg (Except.map Instr.ld) h.1

theorem Coding.st (f : FmtM) : Coding.Statement (.st f) := by
  have h := decM_encM 0x281 f
  refine Coding.word _ .press (encM 0x281 f) rfl rfl ?_
  show decPress (encM 0x281 f) = _
  unfold decPress
  rw [h.2]
  exact congrArg (Except.map Instr.st) h.1

theorem Coding.lds (f : FmtM) : Coding.Statement (.lds f) := by
  have h := decM_encM 0x282 f
  refine Coding.word _ .press (encM 0x282 f) rfl rfl ?_
  show decPress (encM 0x282 f) = _
  unfold decPress
  rw [h.2]
  exact congrArg (Except.map Instr.lds) h.1

theorem Coding.sts (f : FmtM) : Coding.Statement (.sts f) := by
  have h := decM_encM 0x283 f
  refine Coding.word _ .press (encM 0x283 f) rfl rfl ?_
  show decPress (encM 0x283 f) = _
  unfold decPress
  rw [h.2]
  exact congrArg (Except.map Instr.sts) h.1

theorem Coding.prefetch (f : FmtM) : Coding.Statement (.prefetch f) := by
  have h := decM_encM 0x284 f
  refine Coding.word _ .press (encM 0x284 f) rfl rfl ?_
  show decPress (encM 0x284 f) = _
  unfold decPress
  rw [h.2]
  exact congrArg (Except.map Instr.prefetch) h.1

theorem Coding.atom (f : FmtMA) : Coding.Statement (.atom f) := by
  have h := decMA_encMA 0x288 f
  refine Coding.word _ .press (encMA 0x288 f) rfl rfl ?_
  show decPress (encMA 0x288 f) = _
  unfold decPress
  rw [h.2]
  exact congrArg (Except.map Instr.atom) h.1

theorem Coding.atomf (f : FmtMA) : Coding.Statement (.atomf f) := by
  have h := decMA_encMA 0x289 f
  refine Coding.word _ .press (encMA 0x289 f) rfl rfl ?_
  show decPress (encMA 0x289 f) = _
  unfold decPress
  rw [h.2]
  exact congrArg (Except.map Instr.atomf) h.1

theorem Coding.atomcas (f : FmtMA) : Coding.Statement (.atomcas f) := by
  have h := decMA_encMA 0x28A f
  refine Coding.word _ .press (encMA 0x28A f) rfl rfl ?_
  show decPress (encMA 0x28A f) = _
  unfold decPress
  rw [h.2]
  exact congrArg (Except.map Instr.atomcas) h.1

theorem Coding.commit (f : FmtY) : Coding.Statement (.commit f) := by
  have h := decY_encY 0x300 f
  refine Coding.word _ .press (encY 0x300 f) rfl rfl ?_
  show decPress (encY 0x300 f) = _
  unfold decPress
  rw [h.2]
  exact congrArg (Except.map Instr.commit) h.1

theorem Coding.commitc (f : FmtY) : Coding.Statement (.commitc f) := by
  have h := decY_encY 0x301 f
  refine Coding.word _ .press (encY 0x301 f) rfl rfl ?_
  show decPress (encY 0x301 f) = _
  unfold decPress
  rw [h.2]
  exact congrArg (Except.map Instr.commitc) h.1

theorem Coding.mark (f : FmtY) : Coding.Statement (.mark f) := by
  have h := decY_encY 0x302 f
  refine Coding.word _ .press (encY 0x302 f) rfl rfl ?_
  show decPress (encY 0x302 f) = _
  unfold decPress
  rw [h.2]
  exact congrArg (Except.map Instr.mark) h.1

theorem Coding.abort (f : FmtY) : Coding.Statement (.abort f) := by
  have h := decY_encY 0x303 f
  refine Coding.word _ .press (encY 0x303 f) rfl rfl ?_
  show decPress (encY 0x303 f) = _
  unfold decPress
  rw [h.2]
  exact congrArg (Except.map Instr.abort) h.1

theorem Coding.waitcnt (f : FmtY) : Coding.Statement (.waitcnt f) := by
  have h := decY_encY 0x304 f
  refine Coding.word _ .press (encY 0x304 f) rfl rfl ?_
  show decPress (encY 0x304 f) = _
  unfold decPress
  rw [h.2]
  exact congrArg (Except.map Instr.waitcnt) h.1

theorem Coding.bara (f : FmtY) : Coding.Statement (.bara f) := by
  have h := decY_encY 0x308 f
  refine Coding.word _ .press (encY 0x308 f) rfl rfl ?_
  show decPress (encY 0x308 f) = _
  unfold decPress
  rw [h.2]
  exact congrArg (Except.map Instr.bara) h.1

theorem Coding.barw (f : FmtY) : Coding.Statement (.barw f) := by
  have h := decY_encY 0x309 f
  refine Coding.word _ .press (encY 0x309 f) rfl rfl ?_
  show decPress (encY 0x309 f) = _
  unfold decPress
  rw [h.2]
  exact congrArg (Except.map Instr.barw) h.1

theorem Coding.bars (f : FmtY) : Coding.Statement (.bars f) := by
  have h := decY_encY 0x30A f
  refine Coding.word _ .press (encY 0x30A f) rfl rfl ?_
  show decPress (encY 0x30A f) = _
  unfold decPress
  rw [h.2]
  exact congrArg (Except.map Instr.bars) h.1

theorem Coding.barx (f : FmtY) : Coding.Statement (.barx f) := by
  have h := decY_encY 0x30B f
  refine Coding.word _ .press (encY 0x30B f) rfl rfl ?_
  show decPress (encY 0x30B f) = _
  unfold decPress
  rw [h.2]
  exact congrArg (Except.map Instr.barx) h.1

theorem Coding.vralloc (f : FmtS) : Coding.Statement (.vralloc f) := by
  have h := decS_encS 0x380 f
  refine Coding.word _ .press (encS 0x380 f) rfl rfl ?_
  show decPress (encS 0x380 f) = _
  unfold decPress
  rw [h.2]
  exact congrArg (Except.map Instr.vralloc) h.1

theorem Coding.rte (f : FmtK) : Coding.Statement (.rte f) := by
  have h := decK_encK 0x381 f
  refine Coding.word _ .press (encK 0x381 f) rfl rfl ?_
  show decPress (encK 0x381 f) = _
  unfold decPress
  rw [h.2]
  exact congrArg (Except.map Instr.rte) h.1

theorem Coding.launch (f : FmtS) : Coding.Statement (.launch f) := by
  have h := decS_encS 0x382 f
  refine Coding.word _ .press (encS 0x382 f) rfl rfl ?_
  show decPress (encS 0x382 f) = _
  unfold decPress
  rw [h.2]
  exact congrArg (Except.map Instr.launch) h.1

theorem Coding.sigop (f : FmtS) : Coding.Statement (.sigop f) := by
  have h := decS_encS 0x383 f
  refine Coding.word _ .press (encS 0x383 f) rfl rfl ?_
  show decPress (encS 0x383 f) = _
  unfold decPress
  rw [h.2]
  exact congrArg (Except.map Instr.sigop) h.1

theorem Coding.mma (f : FmtMX) : Coding.Statement (.mma f) := by
  have h := decMX_encMX 0x000 f
  refine Coding.word _ .matrix (encMX 0x000 f) rfl rfl ?_
  show decMatrix (encMX 0x000 f) = _
  unfold decMatrix
  rw [h.2]
  exact congrArg (Except.map Instr.mma) h.1

theorem Coding.mmas (f : FmtMX) : Coding.Statement (.mmas f) := by
  have h := decMX_encMX 0x001 f
  refine Coding.word _ .matrix (encMX 0x001 f) rfl rfl ?_
  show decMatrix (encMX 0x001 f) = _
  unfold decMatrix
  rw [h.2]
  exact congrArg (Except.map Instr.mmas) h.1

theorem Coding.mmac (f : FmtMX) : Coding.Statement (.mmac f) := by
  have h := decMX_encMX 0x002 f
  refine Coding.word _ .matrix (encMX 0x002 f) rfl rfl ?_
  show decMatrix (encMX 0x002 f) = _
  unfold decMatrix
  rw [h.2]
  exact congrArg (Except.map Instr.mmac) h.1

theorem Coding.mmag (f : FmtMX) : Coding.Statement (.mmag f) := by
  have h := decMX_encMX 0x003 f
  refine Coding.word _ .matrix (encMX 0x003 f) rfl rfl ?_
  show decMatrix (encMX 0x003 f) = _
  unfold decMatrix
  rw [h.2]
  exact congrArg (Except.map Instr.mmag) h.1

theorem Coding.qhist (f : FmtQ) : Coding.Statement (.qhist f) := by
  have h := decQ_encQ 0x010 f
  refine Coding.word _ .matrix (encQ 0x010 f) rfl rfl ?_
  show decMatrix (encQ 0x010 f) = _
  unfold decMatrix
  rw [h.2]
  exact congrArg (Except.map Instr.qhist) h.1

theorem Coding.qscale (f : FmtQ) : Coding.Statement (.qscale f) := by
  have h := decQ_encQ 0x011 f
  refine Coding.word _ .matrix (encQ 0x011 f) rfl rfl ?_
  show decMatrix (encQ 0x011 f) = _
  unfold decMatrix
  rw [h.2]
  exact congrArg (Except.map Instr.qscale) h.1

theorem Coding.qcvt (f : FmtQ) : Coding.Statement (.qcvt f) := by
  have h := decQ_encQ 0x012 f
  refine Coding.word _ .matrix (encQ 0x012 f) rfl rfl ?_
  show decMatrix (encQ 0x012 f) = _
  unfold decMatrix
  rw [h.2]
  exact congrArg (Except.map Instr.qcvt) h.1

theorem Coding.qclr (f : FmtQ) : Coding.Statement (.qclr f) := by
  have h := decQ_encQ 0x013 f
  refine Coding.word _ .matrix (encQ 0x013 f) rfl rfl ?_
  show decMatrix (encQ 0x013 f) = _
  unfold decMatrix
  rw [h.2]
  exact congrArg (Except.map Instr.qclr) h.1

theorem Coding.rqcopy (f : FmtRQ) : Coding.Statement (.rqcopy f) := by
  have h := decRQ_encRQ 0x000 f
  refine Coding.word _ .request (encRQ 0x000 f) rfl rfl ?_
  show decRequest (encRQ 0x000 f) = _
  unfold decRequest
  rw [h.2]
  exact congrArg (Except.map Instr.rqcopy) h.1

theorem Coding.rqfill (f : FmtRQ) : Coding.Statement (.rqfill f) := by
  have h := decRQ_encRQ 0x001 f
  refine Coding.word _ .request (encRQ 0x001 f) rfl rfl ?_
  show decRequest (encRQ 0x001 f) = _
  unfold decRequest
  rw [h.2]
  exact congrArg (Except.map Instr.rqfill) h.1

theorem Coding.rqgather (f : FmtRQ) : Coding.Statement (.rqgather f) := by
  have h := decRQ_encRQ 0x002 f
  refine Coding.word _ .request (encRQ 0x002 f) rfl rfl ?_
  show decRequest (encRQ 0x002 f) = _
  unfold decRequest
  rw [h.2]
  exact congrArg (Except.map Instr.rqgather) h.1

theorem Coding.rqscatter (f : FmtRQ) : Coding.Statement (.rqscatter f) := by
  have h := decRQ_encRQ 0x003 f
  refine Coding.word _ .request (encRQ 0x003 f) rfl rfl ?_
  show decRequest (encRQ 0x003 f) = _
  unfold decRequest
  rw [h.2]
  exact congrArg (Except.map Instr.rqscatter) h.1

theorem Coding.rqputs (f : FmtRQ) : Coding.Statement (.rqputs f) := by
  have h := decRQ_encRQ 0x004 f
  refine Coding.word _ .request (encRQ 0x004 f) rfl rfl ?_
  show decRequest (encRQ 0x004 f) = _
  unfold decRequest
  rw [h.2]
  exact congrArg (Except.map Instr.rqputs) h.1

theorem Coding.rqred (f : FmtRQ) : Coding.Statement (.rqred f) := by
  have h := decRQ_encRQ 0x005 f
  refine Coding.word _ .request (encRQ 0x005 f) rfl rfl ?_
  show decRequest (encRQ 0x005 f) = _
  unfold decRequest
  rw [h.2]
  exact congrArg (Except.map Instr.rqred) h.1

theorem Coding.rqlist (f : FmtRQ) : Coding.Statement (.rqlist f) := by
  have h := decRQ_encRQ 0x006 f
  refine Coding.word _ .request (encRQ 0x006 f) rfl rfl ?_
  show decRequest (encRQ 0x006 f) = _
  unfold decRequest
  rw [h.2]
  exact congrArg (Except.map Instr.rqlist) h.1

theorem Coding.rqswap (f : FmtRQ) : Coding.Statement (.rqswap f) := by
  have h := decRQ_encRQ 0x007 f
  refine Coding.word _ .request (encRQ 0x007 f) rfl rfl ?_
  show decRequest (encRQ 0x007 f) = _
  unfold decRequest
  rw [h.2]
  exact congrArg (Except.map Instr.rqswap) h.1

theorem Coding.pktld (f : FmtQ) : Coding.Statement (.pktld f) := by
  have h := decQ_encQ 0x000 f
  refine Coding.word _ .compositor (encQ 0x000 f) rfl rfl ?_
  show decCompositor (encQ 0x000 f) = _
  unfold decCompositor
  rw [h.2]
  exact congrArg (Except.map Instr.pktld) h.1

theorem Coding.pktdone (f : FmtQ) : Coding.Statement (.pktdone f) := by
  have h := decQ_encQ 0x001 f
  refine Coding.word _ .compositor (encQ 0x001 f) rfl rfl ?_
  show decCompositor (encQ 0x001 f) = _
  unfold decCompositor
  rw [h.2]
  exact congrArg (Except.map Instr.pktdone) h.1

theorem Coding.sigrmw (f : FmtQ) : Coding.Statement (.sigrmw f) := by
  have h := decQ_encQ 0x002 f
  refine Coding.word _ .compositor (encQ 0x002 f) rfl rfl ?_
  show decCompositor (encQ 0x002 f) = _
  unfold decCompositor
  rw [h.2]
  exact congrArg (Except.map Instr.sigrmw) h.1

theorem Coding.qsave (f : FmtQ) : Coding.Statement (.qsave f) := by
  have h := decQ_encQ 0x003 f
  refine Coding.word _ .compositor (encQ 0x003 f) rfl rfl ?_
  show decCompositor (encQ 0x003 f) = _
  unfold decCompositor
  rw [h.2]
  exact congrArg (Except.map Instr.qsave) h.1

theorem Coding.qload (f : FmtQ) : Coding.Statement (.qload f) := by
  have h := decQ_encQ 0x004 f
  refine Coding.word _ .compositor (encQ 0x004 f) rfl rfl ?_
  show decCompositor (encQ 0x004 f) = _
  unfold decCompositor
  rw [h.2]
  exact congrArg (Except.map Instr.qload) h.1

theorem Coding.dispatch (f : FmtQ) : Coding.Statement (.dispatch f) := by
  have h := decQ_encQ 0x005 f
  refine Coding.word _ .compositor (encQ 0x005 f) rfl rfl ?_
  show decCompositor (encQ 0x005 f) = _
  unfold decCompositor
  rw [h.2]
  exact congrArg (Except.map Instr.dispatch) h.1

theorem Coding.pendscan (f : FmtQ) : Coding.Statement (.pendscan f) := by
  have h := decQ_encQ 0x006 f
  refine Coding.word _ .compositor (encQ 0x006 f) rfl rfl ?_
  show decCompositor (encQ 0x006 f) = _
  unfold decCompositor
  rw [h.2]
  exact congrArg (Except.map Instr.pendscan) h.1

theorem Coding.qarm (f : FmtQ) : Coding.Statement (.qarm f) := by
  have h := decQ_encQ 0x007 f
  refine Coding.word _ .compositor (encQ 0x007 f) rfl rfl ?_
  show decCompositor (encQ 0x007 f) = _
  unfold decCompositor
  rw [h.2]
  exact congrArg (Except.map Instr.qarm) h.1

theorem Coding.dbgrd (f : FmtQ) : Coding.Statement (.dbgrd f) := by
  have h := decQ_encQ 0x000 f
  refine Coding.word _ .debug (encQ 0x000 f) rfl rfl ?_
  show decDebug (encQ 0x000 f) = _
  unfold decDebug
  rw [h.2]
  exact congrArg (Except.map Instr.dbgrd) h.1

theorem Coding.dbgwr (f : FmtQ) : Coding.Statement (.dbgwr f) := by
  have h := decQ_encQ 0x001 f
  refine Coding.word _ .debug (encQ 0x001 f) rfl rfl ?_
  show decDebug (encQ 0x001 f) = _
  unfold decDebug
  rw [h.2]
  exact congrArg (Except.map Instr.dbgwr) h.1

theorem Coding.dstep (f : FmtQ) : Coding.Statement (.dstep f) := by
  have h := decQ_encQ 0x002 f
  refine Coding.word _ .debug (encQ 0x002 f) rfl rfl ?_
  show decDebug (encQ 0x002 f) = _
  unfold decDebug
  rw [h.2]
  exact congrArg (Except.map Instr.dstep) h.1

theorem Coding.dresume (f : FmtQ) : Coding.Statement (.dresume f) := by
  have h := decQ_encQ 0x003 f
  refine Coding.word _ .debug (encQ 0x003 f) rfl rfl ?_
  show decDebug (encQ 0x003 f) = _
  unfold decDebug
  rw [h.2]
  exact congrArg (Except.map Instr.dresume) h.1

theorem Coding.dreturn (f : FmtQ) : Coding.Statement (.dreturn f) := by
  have h := decQ_encQ 0x004 f
  refine Coding.word _ .debug (encQ 0x004 f) rfl rfl ?_
  show decDebug (encQ 0x004 f) = _
  unfold decDebug
  rw [h.2]
  exact congrArg (Except.map Instr.dreturn) h.1

theorem Coding.wpset (f : FmtQ) : Coding.Statement (.wpset f) := by
  have h := decQ_encQ 0x005 f
  refine Coding.word _ .debug (encQ 0x005 f) rfl rfl ?_
  show decDebug (encQ 0x005 f) = _
  unfold decDebug
  rw [h.2]
  exact congrArg (Except.map Instr.wpset) h.1

theorem Coding.trctl (f : FmtQ) : Coding.Statement (.trctl f) := by
  have h := decQ_encQ 0x006 f
  refine Coding.word _ .debug (encQ 0x006 f) rfl rfl ?_
  show decDebug (encQ 0x006 f) = _
  unfold decDebug
  rw [h.2]
  exact congrArg (Except.map Instr.trctl) h.1

theorem Coding.vhrd (f : FmtQ) : Coding.Statement (.vhrd f) := by
  have h := decQ_encQ 0x007 f
  refine Coding.word _ .debug (encQ 0x007 f) rfl rfl ?_
  show decDebug (encQ 0x007 f) = _
  unfold decDebug
  rw [h.2]
  exact congrArg (Except.map Instr.vhrd) h.1

theorem Coding.clauseStart (core part port : Nat) : Coding.Statement (.clauseStart core part port) := Coding.none _ rfl rfl

theorem Coding.merge (gang : Nat) : Coding.Statement (.merge gang) := Coding.none _ rfl rfl

theorem Coding.joinRelease (gang : Nat) : Coding.Statement (.joinRelease gang) := Coding.none _ rfl rfl

theorem Coding.collectiveWaitEnd (gang : Nat) : Coding.Statement (.collectiveWaitEnd gang) := Coding.none _ rfl rfl

theorem Coding.budgetRefill (core part : Nat) : Coding.Statement (.budgetRefill core part) := Coding.none _ rfl rfl

theorem Coding.tempRefresh (core temp : Nat) : Coding.Statement (.tempRefresh core temp) := Coding.none _ rfl rfl

theorem Coding.blockPlace (die : Nat) : Coding.Statement (.blockPlace die) := Coding.none _ rfl rfl

theorem Coding.roomAdvertise (die : Nat) : Coding.Statement (.roomAdvertise die) := Coding.none _ rfl rfl

theorem Coding.blockPass (die : Nat) : Coding.Statement (.blockPass die) := Coding.none _ rfl rfl

theorem Coding.quantumExpiry (grid : Nat) : Coding.Statement (.quantumExpiry grid) := Coding.none _ rfl rfl

theorem Coding.dueClock (root : Nat) : Coding.Statement (.dueClock root) := Coding.none _ rfl rfl

theorem Coding.resolve (gang op : Nat) : Coding.Statement (.resolve gang op) := Coding.none _ rfl rfl

theorem Coding.grant (gang : Nat) : Coding.Statement (.grant gang) := Coding.none _ rfl rfl

theorem Coding.atomic (gang op addr : Nat) : Coding.Statement (.atomic gang op addr) := Coding.none _ rfl rfl

theorem Coding.cabort (lvl : Lvl) (uid : Nat) : Coding.Statement (.cabort lvl uid) := Coding.none _ rfl rfl

theorem Coding.land (gang op : Nat) : Coding.Statement (.land gang op) := Coding.none _ rfl rfl

theorem Coding.phase (owner bar : Nat) : Coding.Statement (.phase owner bar) := Coding.none _ rfl rfl

theorem Coding.deliver (src dst lane : Nat) : Coding.Statement (.deliver src dst lane) := Coding.none _ rfl rfl

theorem Coding.gangRetire (gang : Nat) : Coding.Statement (.gangRetire gang) := Coding.none _ rfl rfl

theorem Coding.blockRetire (block : Nat) : Coding.Statement (.blockRetire block) := Coding.none _ rfl rfl

theorem Coding.clusterRetire (cluster : Nat) : Coding.Statement (.clusterRetire cluster) := Coding.none _ rfl rfl

theorem Coding.blockCompletionEvent (block : Nat) : Coding.Statement (.blockCompletionEvent block) := Coding.none _ rfl rfl

theorem Coding.trapEntry (gang : Nat) : Coding.Statement (.trapEntry gang) := Coding.none _ rfl rfl

theorem Coding.atsCompletion (pasid page : Nat) (ans : Bool × AtsAnswer) : Coding.Statement (.atsCompletion pasid page ans) := Coding.none _ rfl rfl

theorem Coding.priResponse (pasid page : Nat) (ans : Bool × PriAnswer) : Coding.Statement (.priResponse pasid page ans) := Coding.none _ rfl rfl

theorem Coding.invalidation (pasid lo hi : Nat) : Coding.Statement (.invalidation pasid lo hi) := Coding.none _ rfl rfl

theorem Coding.invalidationCompletion (pasid lo hi : Nat) : Coding.Statement (.invalidationCompletion pasid lo hi) := Coding.none _ rfl rfl

theorem Coding.preemptRequest (pasid : Nat) (queue : Option Nat) : Coding.Statement (.preemptRequest pasid queue) := Coding.none _ rfl rfl

theorem Coding.contextSave (block : Nat) : Coding.Statement (.contextSave block) := Coding.none _ rfl rfl

theorem Coding.blockRestore (die : Nat) : Coding.Statement (.blockRestore die) := Coding.none _ rfl rfl

theorem Coding.mstart (core part : Nat) : Coding.Statement (.mstart core part) := Coding.none _ rfl rfl

theorem Coding.rqmove (core req unit : Nat) : Coding.Statement (.rqmove core req unit) := Coding.none _ rfl rfl

theorem Coding.rqsignal (core req : Nat) : Coding.Statement (.rqsignal core req) := Coding.none _ rfl rfl

theorem Coding.rqlistBlockFetch (core : Nat) : Coding.Statement (.rqlistBlockFetch core) := Coding.none _ rfl rfl

theorem Coding.kick (queue : Nat) (x : BitVec 64) : Coding.Statement (.kick queue x) := Coding.none _ rfl rfl

theorem Coding.packetComplete (queue idx : Nat) : Coding.Statement (.packetComplete queue idx) := Coding.none _ rfl rfl

theorem Coding.pendscanWake (comp : Nat) : Coding.Statement (.pendscanWake comp) := Coding.none _ rfl rfl

theorem Coding.signalRecheck (comp : Nat) : Coding.Statement (.signalRecheck comp) := Coding.none _ rfl rfl

theorem Coding.bankSwitch (comp : Nat) : Coding.Statement (.bankSwitch comp) := Coding.none _ rfl rfl

theorem Coding.fwVerifyDone (sigOk : Bool) : Coding.Statement (.fwVerifyDone sigOk) := Coding.none _ rfl rfl

theorem Coding.unlockVerifyDone (sigOk : Bool) : Coding.Statement (.unlockVerifyDone sigOk) := Coding.none _ rfl rfl

theorem Coding.pull (gang : Nat) : Coding.Statement (.pull gang) := Coding.none _ rfl rfl

theorem Coding.guestReturn (gang : Nat) : Coding.Statement (.guestReturn gang) := Coding.none _ rfl rfl

theorem Coding.arrivalMessage (gang : Nat) : Coding.Statement (.arrivalMessage gang) := Coding.none _ rfl rfl

theorem Coding.releaseMessage (gang : Nat) : Coding.Statement (.releaseMessage gang) := Coding.none _ rfl rfl

theorem Coding.clauseCountMessage (guest gang : Nat) : Coding.Statement (.clauseCountMessage guest gang) := Coding.none _ rfl rfl

theorem Coding.debugHandlerEntry (core : Nat) : Coding.Statement (.debugHandlerEntry core) := Coding.none _ rfl rfl

theorem Coding.traceDrain (core : Nat) : Coding.Statement (.traceDrain core) := Coding.none _ rfl rfl

theorem Coding.frameArrival (port : Nat) (bytes : List (BitVec 8)) (fcsOk : Bool) : Coding.Statement (.frameArrival port bytes fcsOk) := Coding.none _ rfl rfl

theorem Coding.framePublish (port : Nat) : Coding.Statement (.framePublish port) := Coding.none _ rfl rfl

theorem Coding.portDown (port : Nat) : Coding.Statement (.portDown port) := Coding.none _ rfl rfl

theorem Coding.linkRetryTimeout (dev : Nat) : Coding.Statement (.linkRetryTimeout dev) := Coding.none _ rfl rfl

theorem Coding.domainTableInstall : Coding.Statement (.domainTableInstall) := Coding.none _ rfl rfl

theorem Coding.powerOnStart (fails : List Nat) : Coding.Statement (.powerOnStart fails) := Coding.none _ rfl rfl

theorem Coding.functionLevelReset : Coding.Statement (.functionLevelReset) := Coding.none _ rfl rfl

theorem Coding.correctedError (unit : Nat) : Coding.Statement (.correctedError unit) := Coding.none _ rfl rfl

theorem Coding.errorWindow (owner : Nat) : Coding.Statement (.errorWindow owner) := Coding.none _ rfl rfl

theorem Coding.thermalLimit (die : Nat) : Coding.Statement (.thermalLimit die) := Coding.none _ rfl rfl

theorem Coding.thermalStop (die : Nat) : Coding.Statement (.thermalStop die) := Coding.none _ rfl rfl

theorem Coding.featAccWrite (x : BitVec 128) : Coding.Statement (.featAccWrite x) := Coding.none _ rfl rfl

theorem Coding.registerQueue (tag : BitVec 8) (arg : BitVec 48) : Coding.Statement (.registerQueue tag arg) := Coding.none _ rfl rfl

theorem Coding.teardownPasid (tag : BitVec 8) (arg : BitVec 48) : Coding.Statement (.teardownPasid tag arg) := Coding.none _ rfl rfl

theorem Coding.destroyCtx (tag : BitVec 8) (arg : BitVec 48) : Coding.Statement (.destroyCtx tag arg) := Coding.none _ rfl rfl

theorem Coding.preempt (tag : BitVec 8) (arg : BitVec 48) : Coding.Statement (.preempt tag arg) := Coding.none _ rfl rfl

theorem Coding.loadFw (tag : BitVec 8) (arg : BitVec 48) : Coding.Statement (.loadFw tag arg) := Coding.none _ rfl rfl

theorem Coding.keyslotWrite (tag : BitVec 8) (arg : BitVec 48) (sigOk : Bool) : Coding.Statement (.keyslotWrite tag arg sigOk) := Coding.none _ rfl rfl

theorem Coding.unlock (tag : BitVec 8) (arg : BitVec 48) : Coding.Statement (.unlock tag arg) := Coding.none _ rfl rfl

theorem Coding.domainSet (tag : BitVec 8) (arg : BitVec 48) : Coding.Statement (.domainSet tag arg) := Coding.none _ rfl rfl

theorem Coding.streamSet (tag : BitVec 8) (arg : BitVec 48) : Coding.Statement (.streamSet tag arg) := Coding.none _ rfl rfl

theorem Coding.streamMap (tag : BitVec 8) (arg : BitVec 48) : Coding.Statement (.streamMap tag arg) := Coding.none _ rfl rfl

theorem Coding.startClear (tag : BitVec 8) (arg : BitVec 48) : Coding.Statement (.startClear tag arg) := Coding.none _ rfl rfl

theorem Coding.hcmdUnknownOp (op tag : BitVec 8) (arg : BitVec 48) : Coding.Statement (.hcmdUnknownOp op tag arg) := Coding.none _ rfl rfl

theorem Coding.hcmdIgnored (w : BitVec 64) : Coding.Statement (.hcmdIgnored w) := Coding.none _ rfl rfl

theorem Coding.commandDone : Coding.Statement (.commandDone) := Coding.none _ rfl rfl

theorem Coding.dbgAttnWrite (w : BitVec 64) : Coding.Statement (.dbgAttnWrite w) := Coding.none _ rfl rfl

theorem Coding.dbgRevokeWrite (w : BitVec 64) : Coding.Statement (.dbgRevokeWrite w) := Coding.none _ rfl rfl

theorem Coding.triggerRegisterWrite (core trig reg : Nat) (w : BitVec 64) : Coding.Statement (.triggerRegisterWrite core trig reg w) := Coding.none _ rfl rfl

theorem Coding.ptpsecRead (port : Nat) : Coding.Statement (.ptpsecRead port) := Coding.none _ rfl rfl

theorem Coding.ptpadjWrite (port : Nat) (w : BitVec 64) : Coding.Statement (.ptpadjWrite port w) := Coding.none _ rfl rfl

theorem Coding.registerWrite (off : Nat) (w : BitVec 64) : Coding.Statement (.registerWrite off w) := Coding.none _ rfl rfl

theorem Coding.childLaunch (gang op : Nat) : Coding.Statement (.childLaunch gang op) := Coding.none _ rfl rfl

theorem Coding.powerAverageWindow (watts : Nat) : Coding.Statement (.powerAverageWindow watts) := Coding.none _ rfl rfl

theorem Coding.powerLoss (torn : Option Bool) : Coding.Statement (.powerLoss torn) := Coding.none _ rfl rfl

end Sys2Proof.Laws
end

