-- ==== Sys2Proof/Machine/AsmTable.lean ====
section
/-!
DEFINITION. The tables of the assembler `ghas`: how each format is written key by key (R33, R73, R230, R249, R281, R307), the
SEL keys and their values (R71, R77 and the chapters' own tables), and the compact form of every instruction (R36).
Nothing of the device depends on this file: it says how the words that the device reads are written.
-/
namespace Sys2Proof.Machine

/-! ## Fields -/

/-- A choice that compact text writes as one suffix; a choice with a default may be left out. -/
structure SfxGroup where
  alts : List (String × Nat)
  dflt : Option Nat
deriving DecidableEq, Repr, Inhabited

/-- The formats that hold keys (R73, R230, R249, R281, R307); `q` is MQ, CP and DB. -/
inductive AsmFmt
  | a3 | f2 | a2 | a2s | a3s | cv | s | i | b | bl | k | m | ma | y | mx | rq | q
deriving DecidableEq, Repr, Inhabited

/-- What a field holds, and so how its value is written. -/
inductive FieldKind
  /-- An operand code (R66, R67). -/
  | opd
  /-- TYPE (R70); DTYPE and STYPE (R72). -/
  | ty | cty
  /-- A field whose values have names: the verbose names, and the suffixes whose values add up to them. -/
  | named (names : List (String × Nat)) (groups : List SfxGroup)
  /-- MASK (R70). -/
  | mask
  /-- TARGET (R74): a label, or a signed count of words. -/
  | target
  /-- BASE and VOFF (R74). -/
  | base | voff
  /-- IMM of format M: signed, 16 bits. -/
  | off
  /-- IMM of formats I and K: 32 bits. -/
  | imm
  /-- The count of `skip` and the number of `trap`: 0 to 65,535 (R79, R113). -/
  | count
  /-- A of `skip`, with the condition-present bit (R79). -/
  | skipCond
  /-- BAR of the barrier forms: a number, written with C before it when the commit bit is set, where it may be (R182). -/
  | bar (commit : Bool)
  /-- BAR with BV of format RQ (R249). -/
  | rqBar
deriving DecidableEq, Repr, Inhabited

/-- One key of an instruction: where its value stands in the word. -/
structure KeyField where
  key : String
  lo : Nat
  width : Nat
  kind : FieldKind
deriving DecidableEq, Repr, Inhabited

/-- Names that stand for 0, 1, 2 and so on; a suffix is the name in lower case. -/
def counted (l : List String) : List (String × Nat) := l.zipIdx

def lowerAscii (s : String) : String := String.ofList (s.toList.map Char.toLower)
def upperAscii (s : String) : String := String.ofList (s.toList.map Char.toUpper)

/-- A named field of one suffix. -/
def nameds (names : List (String × Nat)) (dflt : Option Nat := none) : FieldKind :=
  .named names [⟨names.map (fun x => (lowerAscii x.1, x.2)), dflt⟩]

/-- A field of one bit that a suffix sets; verbose text writes 0 or 1. -/
def flagKind (sfx : String) : FieldKind := .named [("0", 0), ("1", 1)] [⟨[(sfx, 1)], some 0⟩]

def rndKind : FieldKind := nameds (counted ["RNE", "RTZ", "RDN", "RUP"]) (some 0)
def gangKind : FieldKind := .named [("cur", 0), ("all", 1)] [⟨[("all", 1)], some 0⟩]
def condKind : FieldKind := .named [("Z", 0), ("NZ", 1)] [⟨[("z", 0)], some 1⟩]
def scopeKind : FieldKind := nameds (counted ["BLOCK", "CLUSTER", "DEVICE", "DOMAIN"]) (some 2)
def lvlNames : List (String × Nat) := counted ["GANG", "BLOCK", "CLUSTER", "DEVICE", "DOMAIN"]

/-- LVL of `mark` and `abort`: the suffix names the galley (R167). -/
def lvlGalley : FieldKind := .named lvlNames [⟨[("block", 1), ("cluster", 2)], some 0⟩]
/-- LVL of the commits: the suffix names the target (R167); `commit` alone has `.domain`. -/
def lvlCommit : FieldKind := .named lvlNames [⟨[("cluster", 1), ("device", 2), ("domain", 3)], some 0⟩]
/-- LVL of `commitc`, and of a barrier form with `.c` (R167, R182). -/
def lvlTarget : FieldKind := .named lvlNames [⟨[("cluster", 1), ("device", 2)], some 0⟩]
/-- LVL of a barrier form that takes no commit: no suffix (R182). -/
def lvlNone : FieldKind := .named lvlNames [⟨[], some 0⟩]

/-- The keys of a format in the order verbose text writes them. A SEL key is replaced by the row's own (R77). -/
def AsmFmt.layout : AsmFmt → List KeyField
  | .a3 => [⟨"TYPE", 10, 4, .ty⟩, ⟨"RND", 8, 2, rndKind⟩, ⟨"SAT", 7, 1, flagKind "sat"⟩, ⟨"MASK", 2, 5, .mask⟩,
      ⟨"GANG", 1, 1, gangKind⟩, ⟨"KEEP", 0, 1, flagKind "keep"⟩, ⟨"DST", 44, 10, .opd⟩, ⟨"A", 34, 10, .opd⟩,
      ⟨"B", 24, 10, .opd⟩, ⟨"C", 14, 10, .opd⟩]
  | .f2 => [⟨"TYPE", 10, 4, .ty⟩, ⟨"RND", 8, 2, rndKind⟩, ⟨"SAT", 7, 1, flagKind "sat"⟩, ⟨"MASK", 2, 5, .mask⟩,
      ⟨"GANG", 1, 1, gangKind⟩, ⟨"KEEP", 0, 1, flagKind "keep"⟩, ⟨"DST", 44, 10, .opd⟩, ⟨"A", 34, 10, .opd⟩,
      ⟨"B", 24, 10, .opd⟩]
  | .a2 => [⟨"TYPE", 10, 4, .ty⟩, ⟨"SAT", 7, 1, flagKind "sat"⟩, ⟨"MASK", 2, 5, .mask⟩, ⟨"GANG", 1, 1, gangKind⟩,
      ⟨"DST", 44, 10, .opd⟩, ⟨"A", 34, 10, .opd⟩, ⟨"B", 24, 10, .opd⟩]
  | .a2s => [⟨"TYPE", 10, 4, .ty⟩, ⟨"SEL", 18, 6, .opd⟩, ⟨"SAT", 7, 1, flagKind "sat"⟩, ⟨"MASK", 2, 5, .mask⟩,
      ⟨"GANG", 1, 1, gangKind⟩, ⟨"DST", 44, 10, .opd⟩, ⟨"A", 34, 10, .opd⟩, ⟨"B", 24, 10, .opd⟩]
  | .a3s => [⟨"TYPE", 10, 4, .ty⟩, ⟨"SEL", 6, 4, .opd⟩, ⟨"MASK", 1, 5, .mask⟩, ⟨"GANG", 0, 1, gangKind⟩,
      ⟨"DST", 44, 10, .opd⟩, ⟨"A", 34, 10, .opd⟩, ⟨"B", 24, 10, .opd⟩, ⟨"C", 14, 10, .opd⟩]
  | .cv => [⟨"DTYPE", 19, 5, .cty⟩, ⟨"STYPE", 14, 5, .cty⟩, ⟨"RND", 8, 2, rndKind⟩, ⟨"SAT", 7, 1, flagKind "sat"⟩,
      ⟨"MASK", 2, 5, .mask⟩, ⟨"GANG", 1, 1, gangKind⟩, ⟨"DST", 44, 10, .opd⟩, ⟨"A", 34, 10, .opd⟩, ⟨"B", 24, 10, .opd⟩]
  | .s => [⟨"TYPE", 10, 4, .ty⟩, ⟨"SEL", 4, 6, .opd⟩, ⟨"DST", 44, 10, .opd⟩, ⟨"A", 34, 10, .opd⟩, ⟨"B", 24, 10, .opd⟩,
      ⟨"C", 14, 10, .opd⟩]
  | .i => [⟨"TYPE", 32, 4, .ty⟩, ⟨"MASK", 39, 5, .mask⟩, ⟨"GANG", 38, 1, gangKind⟩, ⟨"DST", 44, 10, .opd⟩,
      ⟨"IMM", 0, 32, .imm⟩]
  | .b => [⟨"COND", 26, 3, condKind⟩, ⟨"MASK", 29, 5, .mask⟩, ⟨"A", 34, 10, .opd⟩, ⟨"TARGET", 0, 24, .target⟩]
  | .bl => [⟨"DST", 44, 10, .opd⟩, ⟨"TARGET", 0, 24, .target⟩]
  | .k => [⟨"GANG", 32, 1, gangKind⟩, ⟨"A", 34, 10, .opd⟩, ⟨"IMM", 0, 32, .imm⟩]
  | .m => [⟨"TYPE", 22, 4, .ty⟩, ⟨"MASK", 17, 5, .mask⟩, ⟨"GANG", 16, 1, gangKind⟩, ⟨"DST", 44, 10, .opd⟩,
      ⟨"BASE", 35, 9, .base⟩, ⟨"VOFF", 26, 9, .voff⟩, ⟨"IMM", 0, 16, .off⟩]
  | .ma => [⟨"TYPE", 12, 4, .ty⟩, ⟨"SEL", 8, 4, .opd⟩, ⟨"SCOPE", 6, 2, scopeKind⟩, ⟨"MASK", 1, 5, .mask⟩,
      ⟨"DST", 44, 10, .opd⟩, ⟨"BASE", 35, 9, .base⟩, ⟨"VOFF", 26, 9, .voff⟩, ⟨"B", 16, 10, .opd⟩]
  | .y => [⟨"SEL", 18, 6, .opd⟩, ⟨"LVL", 15, 3, lvlCommit⟩, ⟨"DST", 44, 10, .opd⟩, ⟨"A", 34, 10, .opd⟩,
      ⟨"B", 24, 10, .opd⟩]
  | .mx => [⟨"SAT", 3, 1, flagKind "sat"⟩, ⟨"REUSE", 2, 1, flagKind "reuse"⟩, ⟨"DST", 44, 10, .opd⟩, ⟨"A", 34, 10, .opd⟩,
      ⟨"B", 24, 10, .opd⟩, ⟨"C", 14, 10, .opd⟩, ⟨"E", 4, 10, .opd⟩]
  | .rq => [⟨"SEL", 8, 6, .opd⟩, ⟨"REL", 1, 1, flagKind "rel"⟩, ⟨"BAR", 2, 6, .rqBar⟩, ⟨"DST", 44, 10, .opd⟩,
      ⟨"A", 34, 10, .opd⟩, ⟨"B", 24, 10, .opd⟩, ⟨"C", 14, 10, .opd⟩]
  | .q => [⟨"SEL", 8, 6, .opd⟩, ⟨"DST", 44, 10, .opd⟩, ⟨"A", 34, 10, .opd⟩, ⟨"B", 24, 10, .opd⟩, ⟨"C", 14, 10, .opd⟩]

/-! ## Instructions -/

/-- A positional operand of a compact form: the key it becomes; one that is optional may be left out. `MEM` stands for a
memory operand (R25). -/
structure Slot where
  key : String
  opt : Bool := false
deriving DecidableEq, Repr, Inhabited

/-- How one instruction is written. -/
structure AsmRow where
  /-- The mnemonic in lower case. -/
  mn : String
  cls : Cls
  op : Nat
  fmt : AsmFmt
  /-- The positional operands of the compact form, in order. -/
  slots : List Slot
  /-- The keys the instruction does not use, written `-`. -/
  unused : List String
  /-- The keys that SEL is written as, with their places in the word. -/
  sel : List KeyField
  /-- Keys whose kind the instruction narrows (TRAP's IMM, SKIP's A). -/
  kinds : List (String × FieldKind)
  /-- Keys that may be `-` although the instruction has a use for them. -/
  opt : List String
  /-- The suffixes of SEL come before the type (`atom.add.n32`). -/
  selFirst : Bool
deriving DecidableEq, Repr, Inhabited

/-- The keys of an instruction in order: SEL as its own keys, or unused; DST of the stores as DATA (R74). -/
def AsmRow.keys (r : AsmRow) : List KeyField :=
  r.fmt.layout.flatMap fun f =>
    if f.key == "SEL" && !r.sel.isEmpty then r.sel
    else
      let f := match r.kinds.lookup f.key with
        | some k => { f with kind := k }
        | none => f
      if f.key == "DST" && (r.mn == "st" || r.mn == "sts") then [{ f with key := "DATA" }] else [f]

/-- Is a key unused? An unnamed SEL always is (R75). -/
def AsmRow.isUnused (r : AsmRow) (key : String) : Bool := r.unused.contains key || key == "SEL"

def slotList (l : List String) : List Slot := l.map (fun k => ⟨k, false⟩)

/-- A row with nothing particular. -/
def plainRow (cls : Cls) (fmt : AsmFmt) (op : Nat) (mn : String) (slots unused : List String) : AsmRow :=
  { mn, cls, op, fmt, slots := slotList slots, unused, sel := [], kinds := [], opt := [], selFirst := false }

def pRow : AsmFmt → Nat → String → List String → List String → AsmRow := plainRow .press

/-- The same row with a SEL key of its own at the place of SEL. -/
def AsmRow.withSel (r : AsmRow) (key : String) (k : FieldKind) : AsmRow :=
  match r.fmt.layout.find? (fun f => f.key == "SEL") with
  | some f => { r with sel := [{ f with key := key, kind := k }] }
  | none => r

/-- Several keys in SEL, each at its bits of the field. -/
def AsmRow.withSels (r : AsmRow) (l : List (String × Nat × Nat × FieldKind)) : AsmRow :=
  match r.fmt.layout.find? (fun f => f.key == "SEL") with
  | some f => { r with sel := l.map (fun x => ⟨x.1, f.lo + x.2.1, x.2.2.1, x.2.2.2⟩) }
  | none => r

def AsmRow.withKind (r : AsmRow) (key : String) (k : FieldKind) : AsmRow := { r with kinds := (key, k) :: r.kinds }
def AsmRow.withOpt (r : AsmRow) (l : List String) : AsmRow :=
  { r with opt := l, slots := r.slots.map (fun s => { s with opt := s.opt || l.contains s.key }) }
def AsmRow.first (r : AsmRow) : AsmRow := { r with selFirst := true }

/-- CMP (R71). -/
def cmpKind : FieldKind := nameds (counted ["EQ", "NE", "LT", "LE", "GT", "GE", "ORD", "UNO"])
def shuffleModes : List String := ["IDX", "UP", "DOWN", "XOR"]
/-- MODE of `vshflx`: the segment in [3:2], the mode of `vshfl` in [1:0] (R145). Its verbose names are the model's. -/
def segKind : FieldKind :=
  .named ((counted ["S8", "S16", "S32", "S64"]).flatMap (fun s => (counted shuffleModes).map (fun m =>
      (s.1 ++ "_" ++ m.1, 4 * s.2 + m.2))))
    [⟨[("s8", 0), ("s16", 4), ("s32", 8), ("s64", 12)], none⟩, ⟨[("idx", 0), ("up", 1), ("down", 2), ("xor", 3)], none⟩]
def redOps : List String := ["ADD", "MIN", "MAX", "AND", "OR", "XOR"]
/-- OP of `vscan` (R145); the verbose names of the exclusive scans are the model's. -/
def scanKind : FieldKind :=
  .named (counted redOps ++ (counted redOps).map (fun x => (x.1 ++ "_EX", 8 + x.2)))
    [⟨(counted redOps).map (fun x => (lowerAscii x.1, x.2)), none⟩, ⟨[("ex", 8)], some 0⟩]

/-- Scalar, control, mask and special-register instructions (R77, R106, R108, R112, R113, R123). -/
def scalarRows : List AsmRow :=
  [pRow .s 0x000 "smov" ["DST", "A"] ["B", "C"], pRow .i 0x001 "smovi" ["DST", "IMM"] ["MASK", "GANG"]] ++
  (["sadd", "ssub", "smul", "smulh", "sand", "sor", "sxor", "sshl", "sshr", "ssra", "smin", "smax"].zipIdx.map (fun x =>
    pRow .s (0x002 + x.2) x.1 ["DST", "A", "B"] ["C"])) ++
  [(pRow .s 0x00E "scmp" ["DST", "A", "B"] ["C"]).withSel "CMP" cmpKind,
   pRow .s 0x00F "ssel" ["DST", "A", "B", "C"] [],
   pRow .s 0x010 "sclz" ["DST", "A"] ["B", "C"], pRow .s 0x011 "spopc" ["DST", "A"] ["B", "C"],
   pRow .s 0x012 "sbfe" ["DST", "A", "B"] ["C"], pRow .s 0x013 "sbfi" ["DST", "A", "B", "C"] [],
   pRow .b 0x080 "bra" ["TARGET"] ["COND", "MASK", "A"], pRow .b 0x081 "bru" ["A", "TARGET"] ["MASK"],
   pRow .b 0x082 "brv" ["A", "TARGET"] ["MASK"], pRow .b 0x083 "brau" ["A", "TARGET"] ["MASK"],
   (((pRow .k 0x084 "skip" ["A", "IMM"] ["GANG"]).withKind "A" .skipCond).withKind "IMM" .count).withOpt ["A"],
   pRow .bl 0x085 "call" ["DST", "TARGET"] [], pRow .b 0x086 "ret" ["A"] ["COND", "MASK", "TARGET"],
   pRow .b 0x087 "join" ["TARGET"] ["COND", "MASK", "A"], pRow .k 0x088 "gang" [] ["A", "IMM"],
   pRow .k 0x089 "exit" [] ["GANG", "A", "IMM"], (pRow .k 0x08A "trap" ["IMM"] ["GANG", "A"]).withKind "IMM" .count,
   pRow .b 0x08B "yield" ["A", "TARGET"] ["COND", "MASK"], pRow .k 0x08C "nop" [] ["GANG", "A", "IMM"]] ++
  (["mand", "mor", "mxor"].zipIdx.map (fun x => pRow .s (0x090 + x.2) x.1 ["DST", "A", "B"] ["TYPE", "C"])) ++
  (["mnot", "mmov", "mpopc", "mfirst"].zipIdx.map (fun x => pRow .s (0x093 + x.2) x.1 ["DST", "A"] ["TYPE", "B", "C"])) ++
  [pRow .s 0x097 "measure" ["DST"] ["TYPE", "A", "B", "C"], pRow .s 0x098 "srd" ["DST", "A"] ["TYPE", "B", "C"],
   pRow .s 0x099 "swr" ["DST", "A"] ["TYPE", "B", "C"]]

/-- Vector instructions (R77, R132, R135, R136, R139, R142, R145). -/
def vectorRows : List AsmRow :=
  [pRow .a2 0x100 "vadd" ["DST", "A", "B"] [], pRow .a2 0x101 "vsub" ["DST", "A", "B"] [],
   pRow .a2 0x102 "vmul" ["DST", "A", "B"] [], pRow .a2 0x103 "vmulh" ["DST", "A", "B"] ["SAT"],
   pRow .a3 0x104 "vmad" ["DST", "A", "B", "C"] ["RND"], pRow .a2 0x105 "vand" ["DST", "A", "B"] ["SAT"],
   pRow .a2 0x106 "vor" ["DST", "A", "B"] ["SAT"], pRow .a2 0x107 "vxor" ["DST", "A", "B"] ["SAT"],
   pRow .a2 0x108 "vnot" ["DST", "A"] ["SAT", "B"], pRow .a2 0x109 "vshl" ["DST", "A", "B"] [],
   pRow .a2 0x10A "vshr" ["DST", "A", "B"] ["SAT"], pRow .a2 0x10B "vsra" ["DST", "A", "B"] ["SAT"],
   pRow .a2 0x10C "vmin" ["DST", "A", "B"] ["SAT"], pRow .a2 0x10D "vmax" ["DST", "A", "B"] ["SAT"],
   pRow .a2 0x10E "vabs" ["DST", "A"] ["B"], pRow .a2 0x10F "vclz" ["DST", "A"] ["SAT", "B"],
   pRow .a2 0x110 "vpopc" ["DST", "A"] ["SAT", "B"], pRow .a3 0x111 "vbfe" ["DST", "A", "B"] ["RND", "SAT", "C"],
   pRow .a3 0x112 "vbfi" ["DST", "A", "B", "C"] ["RND", "SAT"], pRow .a3 0x113 "vsel" ["DST", "A", "B", "C"] ["RND", "SAT"],
   (pRow .a2s 0x114 "vcmp" ["DST", "A", "B"] ["SAT"]).withSel "CMP" cmpKind,
   pRow .a2 0x115 "vmov" ["DST", "A"] ["SAT", "B"], pRow .i 0x116 "vmovi" ["DST", "IMM"] [],
   pRow .a2 0x120 "vadd2" ["DST", "A", "B"] [], pRow .a2 0x121 "vsub2" ["DST", "A", "B"] [],
   pRow .a3 0x122 "vmac2" ["DST", "A", "B", "C"] ["RND"], pRow .a3 0x123 "vdot4" ["DST", "A", "B", "C"] ["RND"],
   pRow .a2 0x124 "vqadd" ["DST", "A", "B"] ["SAT"], pRow .a2 0x125 "vqsub" ["DST", "A", "B"] ["SAT"],
   pRow .a2 0x126 "vshrr" ["DST", "A", "B"] [], pRow .a2 0x127 "vpack" ["DST", "A", "B"] [],
   (pRow .a2s 0x128 "vunpack" ["DST", "A"] ["SAT", "B"]).withSel "PART" (nameds (counted ["LO", "HI"])),
   pRow .f2 0x180 "vfadd" ["DST", "A", "B"] [], pRow .f2 0x181 "vfsub" ["DST", "A", "B"] [],
   pRow .f2 0x182 "vfmul" ["DST", "A", "B"] [], pRow .a3 0x183 "vfma" ["DST", "A", "B", "C"] [],
   pRow .f2 0x184 "vfmin" ["DST", "A", "B"] ["RND", "SAT"], pRow .f2 0x185 "vfmax" ["DST", "A", "B"] ["RND", "SAT"]] ++
  (["vfrcp", "vfrsq", "vfsqrt", "vfexp2", "vflog2"].zipIdx.map (fun x => pRow .f2 (0x186 + x.2) x.1 ["DST", "A"] ["B"])) ++
  [(pRow .a2s 0x18B "vfcmp" ["DST", "A", "B"] ["SAT"]).withSel "CMP" cmpKind,
   pRow .a2 0x18C "vfclass" ["DST", "A"] ["SAT", "B"],
   (pRow .cv 0x190 "vcvt" ["DST", "A", "B"] ["RND"]).withOpt ["B"], (pRow .cv 0x191 "vfcvt" ["DST", "A", "B"] []).withOpt ["B"],
   (pRow .cv 0x192 "vftoi" ["DST", "A", "B"] ["SAT"]).withOpt ["B"], (pRow .cv 0x193 "vitof" ["DST", "A", "B"] []).withOpt ["B"],
   (pRow .a3s 0x200 "vshfl" ["DST", "A", "B", "C"] []).withSel "MODE" (nameds (counted shuffleModes)),
   (pRow .a3s 0x201 "vshflx" ["DST", "A", "B", "C"] []).withSel "MODE" segKind,
   (pRow .a3s 0x202 "vslide" ["DST", "A", "B", "C"] []).withSel "MODE" (nameds (counted ["DOWN", "UP"])),
   (pRow .a3s 0x203 "vbcast" ["DST", "A", "B", "C"] []).withSel "MODE" (nameds (counted ["GROUP", "SLICE"])),
   ((pRow .a2s 0x204 "vvote" ["DST", "A"] ["SAT", "B"]).withSel "OP"
     (nameds (counted ["COLLECT", "SOME", "EVERY", "EQUAL", "COUNT"]))).first,
   ((pRow .a2s 0x205 "vreduce" ["DST", "A"] ["B"]).withSel "OP" (nameds (counted redOps))).first,
   ((pRow .a2s 0x206 "vscan" ["DST", "A"] ["B"]).withSel "OP" scanKind).first]

/-- Memory, galley, atomic and barrier instructions, and those of chapter 10 (R77, R163, R167, R174, R182, R199, R203, R215,
R218). -/
def memoryRows : List AsmRow :=
  [pRow .m 0x280 "ld" ["DST", "MEM"] [], pRow .m 0x281 "st" ["MEM", "DATA"] [],
   pRow .m 0x282 "lds" ["DST", "MEM"] ["MASK", "GANG", "VOFF"], pRow .m 0x283 "sts" ["MEM", "DATA"] ["MASK", "GANG", "VOFF"],
   pRow .m 0x284 "prefetch" ["MEM"] ["TYPE", "GANG", "DST"],
   ((pRow .ma 0x288 "atom" ["DST", "MEM", "B"] []).withSel "OP" (nameds (counted (redOps ++ ["SWAP"])))).first,
   ((pRow .ma 0x289 "atomf" ["DST", "MEM", "B"] []).withSel "OP" (nameds (counted ["ADD", "MIN", "MAX"]))).first,
   pRow .ma 0x28A "atomcas" ["DST", "MEM", "B"] [],
   pRow .y 0x300 "commit" [] ["DST", "A", "B"], (pRow .y 0x301 "commitc" ["DST"] ["A", "B"]).withKind "LVL" lvlTarget,
   ((pRow .y 0x302 "mark" [] ["DST", "A", "B"]).withSel "RSET"
     (.named [("NONE", 0), ("READS", 1)] [⟨[("reads", 1)], some 0⟩])).withKind "LVL" lvlGalley,
   ((pRow .y 0x303 "abort" [] ["DST", "A", "B"]).withSel "TO"
     (.named [("TOP", 0), ("ALL", 1)] [⟨[("all", 1)], some 0⟩])).withKind "LVL" lvlGalley,
   (pRow .y 0x304 "waitcnt" ["CNT", "A"] ["LVL", "DST", "B"]).withSel "CNT"
     (.named (counted ["LD", "ST", "REQ", "MX", "GX", "COLL"]) []),
   ((pRow .y 0x308 "bara" ["BAR"] ["DST", "A", "B"]).withSel "BAR" (.bar true)).withKind "LVL" lvlTarget,
   ((pRow .y 0x309 "barw" ["BAR"] ["DST", "A", "B"]).withSel "BAR" (.bar false)).withKind "LVL" lvlNone,
   ((pRow .y 0x30A "bars" ["BAR"] ["DST", "A", "B"]).withSel "BAR" (.bar true)).withKind "LVL" lvlTarget,
   ((pRow .y 0x30B "barx" ["BAR", "A"] ["DST", "B"]).withSel "BAR" (.bar false)).withKind "LVL" lvlNone,
   (pRow .s 0x380 "vralloc" ["DST", "A"] ["TYPE", "B", "C"]).withSel "MODE" (nameds (counted ["SHRINK", "GROW"])),
   pRow .k 0x381 "rte" [] ["GANG", "A", "IMM"],
   pRow .s 0x382 "launch" ["DST", "A"] ["TYPE", "B", "C"],
   ((pRow .s 0x383 "sigop" ["DST", "A", "B"] ["TYPE", "C"]).withSel "OP"
     (nameds (counted ["ADD", "STORE", "READ"]))).withOpt ["B"]]

/-- Matrix-class instructions (R231). -/
def matrixRows : List AsmRow :=
  [plainRow .matrix .mx 0x000 "mma" ["DST", "A", "B", "C"] ["E"],
   plainRow .matrix .mx 0x001 "mmas" ["DST", "A", "B", "C", "E"] [],
   plainRow .matrix .mx 0x002 "mmac" ["DST", "A", "B", "C"] ["E"],
   plainRow .matrix .mx 0x003 "mmag" ["DST", "A", "B", "C", "E"] [],
   (plainRow .matrix .q 0x010 "qhist" ["DST", "A", "B"] ["C"]).withSel "SRC" (nameds (counted ["F16", "BF16", "F32"])),
   (plainRow .matrix .q 0x011 "qscale" ["DST", "A", "B"] ["C"]).withSel "FMT"
     (.named [("0x01", 0x01), ("0x0D", 0x0D), ("0x0E", 0x0E), ("0x0F", 0x0F), ("0x11", 0x11)]
       [⟨[("i8", 0x01), ("e4m3", 0x0D), ("e5m2", 0x0E), ("e2m1", 0x0F), ("o4", 0x11)], none⟩]),
   (plainRow .matrix .q 0x012 "qcvt" ["DST", "A", "B", "C"] []).withSels
     [("STYPE", 4, 2, nameds (counted ["F16", "BF16", "F32"])),
      ("DFMT", 1, 3, nameds (counted ["E4M3", "E5M2", "E2M1", "I8", "O4"])), ("BLK", 0, 1, flagKind "b16")],
   plainRow .matrix .q 0x013 "qclr" ["DST"] ["A", "B", "C"]]

def rRow (op : Nat) (mn : String) (slots unused : List String) : AsmRow :=
  { plainRow .request .rq op mn slots unused with
    slots := slotList slots ++ [⟨"BAR", true⟩], opt := ["BAR"] }

/-- SIZE of the gathers: the values' spellings are the model's (R250 gives bytes). -/
def sizeKind : FieldKind := nameds (counted ["4", "8", "16", "32", "64", "128"])

/-- Request-class instructions (R249, R250). -/
def requestRows : List AsmRow :=
  [rRow 0x000 "rqcopy" ["DST", "A", "B"] ["C"], rRow 0x001 "rqfill" ["DST", "A", "B"] ["C"],
   (rRow 0x002 "rqgather" ["DST", "A", "B", "C"] []).withSel "SIZE" sizeKind,
   (rRow 0x003 "rqscatter" ["DST", "A", "B", "C"] []).withSel "SIZE" sizeKind,
   (rRow 0x004 "rqputs" ["DST", "A", "B", "C"] []).withSel "SIG" (nameds (counted ["ADD", "STORE"]) (some 0)),
   ((rRow 0x005 "rqred" ["DST", "A", "B", "C"] []).withSels
     [("OP", 3, 3, nameds (counted redOps)), ("ET", 0, 3, nameds (counted ["I32", "N32", "F32", "BF16", "F16"]))]).withOpt
     ["C", "BAR"],
   { plainRow .request .rq 0x006 "rqlist" ["A", "B"] ["BAR", "DST", "C"] with opt := ["BAR"] },
   (rRow 0x007 "rqswap" ["DST", "A"] ["B", "C"]).withSel "PAGE" (nameds (counted ["4K", "2M"]))]

/-- Debug-class instructions (R307). -/
def debugRows : List AsmRow :=
  [plainRow .debug .q 0x000 "dbgrd" ["DST", "A"] ["B", "C"], plainRow .debug .q 0x001 "dbgwr" ["A", "B"] ["DST", "C"],
   plainRow .debug .q 0x002 "dstep" ["A"] ["DST", "B", "C"], plainRow .debug .q 0x003 "dresume" ["A"] ["DST", "B", "C"],
   plainRow .debug .q 0x004 "dreturn" ["A"] ["DST", "B", "C"],
   (plainRow .debug .q 0x005 "wpset" ["A", "B"] ["DST", "C"]).withSel "KIND" (nameds (counted ["PC", "MEM", "REG"])),
   (plainRow .debug .q 0x006 "trctl" ["A"] ["DST", "B", "C"]).withSel "OP"
     (nameds (counted ["OFF", "ON", "FLUSH", "MARK"])),
   plainRow .debug .q 0x007 "vhrd" ["DST", "A"] ["B", "C"]]

/-- Compositor-class instructions (R281). -/
def compositorRows : List AsmRow :=
  [plainRow .compositor .q 0x000 "pktld" ["DST", "A"] ["B", "C"],
   (plainRow .compositor .q 0x001 "pktdone" ["DST", "A"] ["B", "C"]).withSel "CODE"
     (nameds (counted ["OK", "ABORTED", "MALFORMED"])),
   ((plainRow .compositor .q 0x002 "sigrmw" ["DST", "A", "B"] ["C"]).withSels
     [("OP", 0, 2, nameds (counted ["ADD", "STORE", "READ"])),
      ("REL", 2, 2, .named (counted ["NONE", "DEVICE", "SYSTEM"]) [⟨[("dev", 1), ("sys", 2)], some 0⟩])]).withOpt ["B"],
   plainRow .compositor .q 0x003 "qsave" ["A"] ["DST", "B", "C"],
   plainRow .compositor .q 0x004 "qload" ["DST", "A"] ["B", "C"],
   (plainRow .compositor .q 0x005 "dispatch" ["DST", "A"] ["B", "C"]).withSel "KIND" (nameds (counted ["LAUNCH", "COPY"])),
   ((plainRow .compositor .q 0x006 "pendscan" ["DST", "A"] ["B", "C"]).withSels
     [("WHICH", 0, 1, nameds (counted ["Q", "LANES"])), ("WAIT", 1, 1, flagKind "wait")]).withOpt ["A"],
   (plainRow .compositor .q 0x007 "qarm" ["DST"] ["A", "B", "C"]).withSel "ARM" (nameds (counted ["OFF", "ON"]))]

/-- Every instruction that can be written. -/
def asmRows : List AsmRow :=
  scalarRows ++ vectorRows ++ memoryRows ++ matrixRows ++ requestRows ++ debugRows ++ compositorRows

/-- The row of a mnemonic in lower case. -/
def findRow (mn : String) : Option AsmRow := asmRows.find? (fun r => r.mn == mn)

/-! ## Operand classes of R78 and R15 -/

/-- The branches (R78). -/
def AsmRow.isBranch (r : AsmRow) : Bool := ["bra", "bru", "brv", "brau", "call", "ret", "exit", "yield"].contains r.mn

/-- Memory long-latency, covered by flag A (R30, R164, R167, R216, R219, R249, R281). -/
def AsmRow.llMem (r : AsmRow) : Bool :=
  r.cls == .request ||
    ["ld", "st", "lds", "sts", "atom", "atomf", "atomcas", "commit", "commitc", "launch", "sigop", "pktld", "pktdone",
      "sigrmw", "qsave", "qload", "dispatch"].contains r.mn

/-- The other long-latency instructions, covered by flag B (R130, R233). -/
def AsmRow.llOther (r : AsmRow) : Bool :=
  r.cls == .matrix ||
    ["vfrcp", "vfrsq", "vfsqrt", "vfexp2", "vflog2", "vshfl", "vshflx", "vslide", "vbcast", "vvote", "vreduce",
      "vscan"].contains r.mn

/-- The counter of an instruction by the CNT name of `waitcnt` (R15). -/
def AsmRow.counter (r : AsmRow) : Option String :=
  if ["ld", "lds", "atom", "atomf", "atomcas"].contains r.mn then some "LD"
  else if ["st", "sts", "commit", "commitc"].contains r.mn then some "ST"
  else if ["rqcopy", "rqfill", "rqputs", "rqswap", "rqlist"].contains r.mn then some "REQ"
  else if r.cls == .matrix then some "MX"
  else if ["rqgather", "rqscatter"].contains r.mn then some "GX"
  else if r.mn == "rqred" then some "COLL"
  else none

end Sys2Proof.Machine
end

