-- ==== Sys2Proof/Machine/AsmText.lean ====
section
/-!
DEFINITION. The text of the assembler `ghas`: lines and symbols (R22, R26), registers (R23), literals (R24), memory operands
(R25), compact and verbose instructions and their conversion (R33, R36, R37), and the word of each instruction.
-/
namespace Sys2Proof.Machine

/-- Why `ghas` refuses a file. -/
inductive AsmError
  /-- A character or a token that no line may hold. -/
  | badToken
  | badLiteral | badRegister | badPair | badOperand | badMemory | badSymbol
  | unknownMnemonic | unknownDirective | badSuffix | badKey | missingKey | repeatedKey | extraKey | badValue
  | outOfRange | undefinedSymbol | duplicateSymbol
  | badClause | skipBroken | flagsUnsettled
  | badNesting | missingEntry | roleCount | badOverlap | badAlign | badPacket | badLaunch | badQueue | localTooLarge
deriving DecidableEq, Repr, Inhabited

/-! ## Tokens -/

/-- A word (a symbol, mnemonic, register or key), a number as written, or a single character. -/
inductive Tok
  | word (s : String)
  | num (s : String)
  | p (c : Char)
deriving DecidableEq, Repr, Inhabited

/-- A first character of a symbol: a letter, `_` or `.`; of the letters of UTF-8 those of ASCII alone, which the spec leaves open (R26;
log 49). -/
def isSymStart (c : Char) : Bool := c.isAlpha || c == '_' || c == '.'
def isSymChar (c : Char) : Bool := isSymStart c || c.isDigit

/-- What the lexer is inside: nothing, a word or a number (its characters so far, last first). -/
inductive LexState
  | idle
  | word (l : List Char)
  | num (l : List Char)
deriving DecidableEq, Repr, Inhabited

def LexState.flush : LexState → List Tok
  | .idle => []
  | .word l => [.word (String.ofList l.reverse)]
  | .num l => [.num (String.ofList l.reverse)]

/-- Does the number go on with this sign? Only after the exponent letter of a decimal literal (R24). -/
def expSign (l : List Char) (c : Char) : Bool :=
  (c == '+' || c == '-') && (match l with
    | e :: _ => e == 'e' || e == 'E'
    | [] => false) && !(l.contains 'x' || l.contains 'X')

/-- The token that is being read with one more character, if the character belongs to it. -/
def LexState.more (st : LexState) (c : Char) : Option LexState :=
  match st with
  | .idle => none
  | .word l => if isSymChar c then some (.word (c :: l)) else none
  | .num l => if isSymChar c || expSign l c then some (.num (c :: l)) else none

/-- The tokens of one line; a comment runs from `//` to its end (R22). -/
def lexGo : List Char → LexState → Except AsmError (List Tok)
  | [], st => .ok st.flush
  | c :: cs, st =>
    match st.more c with
    | some st => lexGo cs st
    | none =>
      if c == '/' && cs.head? == some '/' then .ok st.flush
      else if c == ' ' || c == '\t' || c == '\r' then (lexGo cs .idle).map (st.flush ++ ·)
      else if isSymStart c then (lexGo cs (.word [c])).map (st.flush ++ ·)
      else if c.isDigit then (lexGo cs (.num [c])).map (st.flush ++ ·)
      else if [',', '[', ']', '+', '-', '(', ')', ':', '=', '%'].contains c then
        (lexGo cs .idle).map (st.flush ++ .p c :: ·)
      else .error .badToken

def lexLine (l : List Char) : Except AsmError (List Tok) := lexGo l .idle

/-- The parts of a list between the elements that separate them. -/
def splitAll {α : Type} (sep : α → Bool) (l : List α) : List (List α) :=
  l.foldr (fun x parts => if sep x then [] :: parts else (x :: parts.headD []) :: parts.drop 1) [[]]

/-- The lines of a file. -/
def splitLines (l : List Char) : List (List Char) := splitAll (· == '\n') l

/-! ## UTF-8 (R22) -/

/-- The character of a lead byte's bits and its continuation bytes, the least number that so many bytes may hold given. -/
def utf8Char (lead least : Nat) (more : List Byte) : Option Char :=
  let n := more.foldl (fun a b => a * 64 + b.toNat % 64) lead
  if more.all (fun b => b.toNat / 64 == 2) && least ≤ n && (n < 0xD800 || (0xDFFF < n && n < 0x110000)) then some (Char.ofNat n)
  else none

/-- The characters of a source file's bytes; `none` where they are no UTF-8. -/
def decodeUtf8 : List Byte → Option (List Char)
  | [] => some []
  | a :: rest =>
    let one (least lead : Nat) (more : List Byte) (tail : Option (List Char)) : Option (List Char) :=
      (utf8Char lead least more).bind (fun c => tail.map (c :: ·))
    let n := a.toNat
    if n < 0x80 then (decodeUtf8 rest).map (Char.ofNat n :: ·)
    else match rest with
      | b :: rest =>
        if 0xC0 ≤ n && n < 0xE0 then one 0x80 (n - 0xC0) [b] (decodeUtf8 rest)
        else match rest with
          | c :: rest =>
            if 0xE0 ≤ n && n < 0xF0 then one 0x800 (n - 0xE0) [b, c] (decodeUtf8 rest)
            else match rest with
              | d :: rest => if 0xF0 ≤ n && n < 0xF8 then one 0x10000 (n - 0xF0) [b, c, d] (decodeUtf8 rest) else none
              | [] => none
          | [] => none
      | [] => none

/-! ## Numbers (R24) -/

/-- A literal: an integer (decimal or not), a decimal fraction m × 10^e, an infinity or a NaN. -/
inductive Lit
  | int (dec : Bool) (neg : Bool) (n : Nat)
  | float (neg : Bool) (m : Nat) (e : Int)
  | inf (neg : Bool)
  | nan
deriving DecidableEq, Repr, Inhabited

/-- The sixteen digits, each at the place of its value. -/
def digitChars : List Char := ['0', '1', '2', '3', '4', '5', '6', '7', '8', '9', 'a', 'b', 'c', 'd', 'e', 'f']

def digitVal (c : Char) : Option Nat := digitChars.idxOf? c.toLower

/-- The value of digits of a base; an underscore may stand between two digits. -/
def digitsVal (base : Nat) : List Char → Option Nat → Option Nat
  | [], acc => acc
  | '_' :: c :: cs, some a => match digitVal c with
    | some d => if d < base then digitsVal base cs (some (a * base + d)) else none
    | none => none
  | c :: cs, acc => match digitVal c with
    | some d => if d < base then digitsVal base cs (some (acc.getD 0 * base + d)) else none
    | none => none

/-- The part of a list before the first of two characters, and the part after it. -/
def cutAt (a b : Char) : List Char → List Char × Option (List Char)
  | [] => ([], none)
  | c :: cs => if c == a || c == b then ([], some cs) else match cutAt a b cs with
    | (x, y) => (c :: x, y)

/-- A signed decimal exponent. -/
def expVal (l : List Char) : Option Int :=
  match l with
  | '-' :: cs => (digitsVal 10 cs none).map (fun n => -(n : Int))
  | '+' :: cs => (digitsVal 10 cs none).map (fun n => (n : Int))
  | cs => (digitsVal 10 cs none).map (fun n => (n : Int))

/-- A number token as a literal without its sign. -/
def numLit (neg : Bool) (s : String) : Except AsmError Lit :=
  let r : Option Lit := match s.toList with
    | '0' :: 'x' :: cs | '0' :: 'X' :: cs => (digitsVal 16 cs none).map (.int false neg)
    | '0' :: 'b' :: cs | '0' :: 'B' :: cs => (digitsVal 2 cs none).map (.int false neg)
    | cs => match cutAt 'e' 'E' cs with
      | (m, ex) => match cutAt '.' '.' m, ex with
        | (w, none), none => (digitsVal 10 w none).map (.int true neg)
        | (w, fr), ex =>
          let fr := fr.getD []
          let digits := fr.filter (· != '_')
          match digitsVal 10 w none, (if fr.isEmpty then some 0 else digitsVal 10 fr none), (match ex with
              | none => some 0
              | some x => expVal x) with
          | some a, some b, some e => some (.float neg (a * 10 ^ digits.length + b) (e - digits.length))
          | _, _, _ => none
  match r with
  | some l => .ok l
  | none => .error .badLiteral

/-- An integer literal's value. -/
def Lit.toInt? : Lit → Option Int
  | .int _ neg n => some (if neg then -(n : Int) else n)
  | _ => none

/-- A decimal value in a float format, rounded RNE (R24, R27). -/
def decimalBits (f : FFmt) (neg : Bool) (m : Nat) (e : Int) : Nat :=
  match e with
  | .ofNat k => (f.rne (.fin neg (m * 10 ^ k) 0)).1
  | .negSucc k =>
    let d := 10 ^ (k + 1)
    let sh := extraBits + 4 * (k + 1)
    (f.rne (sticky neg (m * 2 ^ sh / d) (-(sh : Int)) (m * 2 ^ sh % d != 0))).1

/-- A literal as the bits of a float format: a decimal literal by value, any other integer literal as raw bits (R24), which
take no minus (log 49). -/
def Lit.floatBits (f : FFmt) : Lit → Option Nat
  | .int true neg n => some (decimalBits f neg n 0)
  | .int false neg n => if neg then none else some n
  | .float neg m e => some (decimalBits f neg m e)
  | .inf neg => some (f.infBits + f.signBit neg)
  | .nan => some f.canonNaN

/-! ## Registers (R23) -/

/-- A register number without leading zeros, below a bound. -/
def regIndex (l : List Char) (bound : Nat) : Option Nat :=
  if l.isEmpty || (l.length > 1 && l.head? == some '0') || !l.all Char.isDigit then none
  else match digitsVal 10 l none with
    | some n => if n < bound then some n else none
    | none => none

/-- A register name in lower case: vector, scalar, mask, `em`. -/
def regName (s : String) : Option Opd :=
  match s.toList with
  | 'v' :: ds => (regIndex ds 256).map (fun n => .v (BitVec.ofNat 8 n))
  | 's' :: ds => (regIndex ds 512).map (fun n => .s (BitVec.ofNat 9 n))
  | 'm' :: ds => (regIndex ds 16).map (fun n => .m (BitVec.ofNat 4 n))
  | ['e', 'm'] => some .em
  | _ => none

/-- A flag name `w0` to `w11`, in either case (R22, R23). -/
def flagName (s : String) : Option Nat :=
  match (lowerAscii s).toList with
  | 'w' :: ds => regIndex ds 12
  | _ => none

def sregNames : List (String × SReg) :=
  [("laneid", .laneid), ("gangid", .gangid), ("blockid", .blockid), ("clusterid", .clusterid), ("role", .role),
   ("measure", .measure), ("gangmask", .gangmask), ("launchw", .launchw), ("coreid", .coreid), ("dieid", .dieid),
   ("cycles", .cycles), ("astatus", .astatus), ("tvec", .tvec), ("tcause", .tcause), ("tval", .tval), ("tret", .tret),
   ("pendmask", .pendmask), ("crank", .crank)]

/-- May a symbol be spelt so? It must not be spelt like a register of R23, whose names are the same in either case (R22, R26). -/
def symbolOk (s : String) : Bool :=
  (match s.toList with
    | c :: cs => isSymStart c && cs.all isSymChar
    | [] => false) && (regName (lowerAscii s)).isNone && (flagName s).isNone

/-! ## Values and instructions -/

/-- The value of a key. -/
inductive Val
  | dash
  | reg (o : Opd)
  /-- A pair by its even register. -/
  | pair (o : Opd)
  | lit (l : Lit)
  | sym (s : String)
  /-- A symbol with a minus before it, in a memory operand (R25). -/
  | minus (s : String)
  /-- A named value, as verbose text writes it. -/
  | name (s : String)
  /-- BAR of a barrier form, with its commit bit. -/
  | bar (c : Bool) (n : Nat)
deriving DecidableEq, Repr, Inhabited

/-- An instruction as written: its row and the value of every key, in key order; and the allotment of its role, 256 where none
is known (R43, R247). -/
structure Ins where
  row : AsmRow
  vals : List (String × Val)
  cap : Nat
deriving DecidableEq, Repr, Inhabited

def Ins.get (i : Ins) (key : String) : Val := (i.vals.lookup key).getD .dash

/-- A pair N:M: N even and M = N + 1 (R23). -/
def pairOf (o : Opd) (m : String) : Except AsmError Val :=
  let n := match o with
    | .v n => some n.toNat
    | .s n => some n.toNat
    | _ => none
  match n, digitsVal 10 m.toList none with
  | some n, some k => if n % 2 == 0 && k == n + 1 then .ok (.pair o) else .error .badPair
  | _, _ => .error .badPair

/-- One value from its tokens. -/
def parseVal (ts : List Tok) : Except AsmError Val :=
  match ts with
  | [.word w] => match regName (lowerAscii w) with
    | some o => .ok (.reg o)
    | none =>
      if w == "inf" then .ok (.lit (.inf false)) else if w == "nan" then .ok (.lit .nan) else .ok (.sym w)
  | [.word w, .p ':', .num m] => match regName (lowerAscii w) with
    | some o => pairOf o m
    | none => .error .badRegister
  | [.num n] => (numLit false n).map .lit
  | [.p '-', .num n] => (numLit true n).map .lit
  | [.p '-', .word w] => if w == "inf" then .ok (.lit (.inf true)) else .error .badOperand
  | [.p '%', .word w] => match sregNames.lookup (lowerAscii w) with
    | some r => .ok (.reg (.sr r))
    | none => .error .badRegister
  | _ => .error .badOperand

/-! ## Compact text (R22 to R25, R36) -/

/-- Split a token list at commas. -/
def splitCommas (ts : List Tok) : List (List Tok) := splitAll (· == .p ',') ts

/-- The terms after the base, each with its sign: a minus may stand in place of the plus, and an immediate after the plus may
have a sign of its own (R25). -/
def memTerms : List Tok → Option (List Val)
  | [] => some []
  | .p '+' :: .p '-' :: .num n :: ts | .p '-' :: .num n :: ts =>
    (numLit true n).toOption.bind (fun l => (memTerms ts).map (.lit l :: ·))
  | .p '+' :: .num n :: ts => (numLit false n).toOption.bind (fun l => (memTerms ts).map (.lit l :: ·))
  | .p '+' :: .word w :: ts =>
    (memTerms ts).map ((match regName (lowerAscii w) with
      | some o => .reg o
      | none => .sym w) :: ·)
  | .p '-' :: .word w :: ts => if (regName (lowerAscii w)).isSome then none else (memTerms ts).map (.minus w :: ·)
  | _ => none

/-- A memory operand [base + voff + imm] as BASE, VOFF and IMM (R25). -/
def parseMem (ts : List Tok) : Except AsmError (List (String × Val)) :=
  let zero : Val := .lit (.int true false 0)
  match ts with
  | .p '[' :: b :: c :: d :: rest =>
    if rest.getLast? != some (.p ']') then .error .badMemory
    else match parseVal [b, c, d], memTerms rest.dropLast with
      | .ok (.pair (.s n)), some terms =>
        let parts : Option (Val × Val) := match terms with
          | [] => some (.dash, zero)
          | [.reg (.v x)] => some (.reg (.v x), zero)
          | [.reg _, .reg _] => none
          | [.reg (.v x), i] => some (.reg (.v x), i)
          | [.reg _] => none
          | [i] => some (.dash, i)
          | _ => none
        (match parts with
        | some (v, i) => .ok [("BASE", .pair (.s n)), ("VOFF", v), ("IMM", i)]
        | none => .error .badMemory)
      | _, _ => .error .badMemory
  | _ => .error .badMemory

/-- Split a word at its full stops. -/
def splitDots (s : String) : List String := (splitAll (· == '.') s.toList).map String.ofList

def tyNames : List (String × Nat) :=
  counted ["B8", "B16", "B32", "B64", "I8", "I16", "I32", "I64", "N8", "N16", "N32", "N64", "F16", "BF16", "F32", "F64"]
def ctyNames : List (String × Nat) :=
  counted ["I4", "I8", "I16", "I32", "I64", "N8", "N16", "N32", "N64", "F64", "F32", "F16", "BF16", "E4M3", "E5M2",
    "E2M1", "E8M0", "O4"]

/-- A choice already made: the key, which of its groups, and the value. -/
structure Chosen where
  key : String
  group : Nat
  val : Nat
deriving DecidableEq, Repr, Inhabited

/-- The first group of the keys, not chosen yet, that a suffix belongs to. -/
def findGroup (done : List Chosen) (sfx : String) : List KeyField → Option Chosen
  | [] => none
  | f :: fs =>
    let here : Option Chosen := match f.kind with
      | .named _ groups => (groups.zipIdx).findSome? (fun g =>
          if done.any (fun c => c.key == f.key && c.group == g.2) then none
          else (g.1.alts.lookup sfx).map (fun v => ⟨f.key, g.2, v⟩))
      | .ty => if done.any (fun c => c.key == f.key) then none
          else (tyNames.lookup (upperAscii sfx)).map (fun v => ⟨f.key, 0, v⟩)
      | .cty => if done.any (fun c => c.key == f.key) then none
          else (ctyNames.lookup (upperAscii sfx)).map (fun v => ⟨f.key, 0, v⟩)
      | .bar commit => if commit && sfx == "c" && !done.any (fun c => c.key == f.key) then some ⟨f.key, 0, 1⟩ else none
      | _ => none
    match here with
    | some c => some c
    | none => findGroup done sfx fs

/-- The suffixes of a mnemonic, each given to a key of its row: SEL's own keys first. -/
def takeSuffixes (r : AsmRow) : List String → List Chosen → Except AsmError (List Chosen)
  | [], done => .ok done
  | s :: ss, done =>
    let keys := (r.sel ++ r.keys.filter (fun f => !r.sel.contains f)).filter (fun f => !r.isUnused f.key)
    match findGroup done s keys with
    | some c => takeSuffixes r ss (done ++ [c])
    | none => .error .badSuffix

/-- The value a named key takes from the chosen suffixes: the sum over its groups. -/
def namedVal (key : String) (groups : List SfxGroup) (done : List Chosen) : Option Nat :=
  (groups.zipIdx.mapM (fun (g : SfxGroup × Nat) =>
    match done.find? (fun (c : Chosen) => c.key == key && c.group == g.2) with
    | some c => some c.val
    | none => g.1.dflt)).map List.sum

def nameOf (names : List (String × Nat)) (v : Nat) : Option String := (names.find? (fun x => x.2 == v)).map (·.1)

/-- Does a value fit an optional place? The optional operands are C of `rqred`, a scalar, and BAR, a plain number. -/
def fitsSlot (r : AsmRow) (s : Slot) (v : Val) : Bool :=
  match v with
  | .lit _ => s.key != "C" || r.cls != .request
  | .sym _ => s.key != "C" || r.cls != .request
  | _ => s.key != "BAR"

/-- Positional operands in their places (R36 step 5). A `trap`, `smovi` or `vmovi` without its IMM is refused: R76 gives IMM a default,
R108, R113 and R135 show an operand (log 49). -/
def placeSlots (r : AsmRow) : List Slot → List (List Tok) → Except AsmError (List (String × Val))
  | [], [] => .ok []
  | [], _ => .error .badOperand
  | s :: ss, ops =>
    let needed := (ss.filter (fun x => !x.opt)).length
    if s.opt && (ops.length ≤ needed) then placeSlots r ss ops
    else match ops with
      | [] => .error .badOperand
      | o :: os =>
        if s.key == "MEM" then
          match parseMem o, placeSlots r ss os with
          | .ok m, .ok l => .ok (m ++ l)
          | .error e, _ => .error e
          | _, .error e => .error e
        else if s.key == "CNT" then
          match o, placeSlots r ss os with
          | [.word w], .ok l => .ok ((s.key, .name (upperAscii w)) :: l)
          | _, .error e => .error e
          | _, _ => .error .badOperand
        else match parseVal o with
          | .error e => .error e
          | .ok v =>
            if s.opt && !fitsSlot r s v then placeSlots r ss ops
            else (placeSlots r ss os).map ((s.key, v) :: ·)

/-- Every key of a compact instruction (R36 steps 2 to 7, R76). The barrier number after `.c` is a literal, where `bars N` takes a
constant symbol too (log 49). -/
def fillKeys (r : AsmRow) (mask : Option Opd) (done : List Chosen) (ops : List (String × Val)) :
    Except AsmError (List (String × Val)) :=
  r.keys.mapM fun f =>
    if r.isUnused f.key then .ok (f.key, .dash)
    else match f.kind with
      | .ty => .ok (f.key, .name ((nameOf tyNames ((done.find? (fun c => c.key == f.key)).elim 2 Chosen.val)).getD "B32"))
      | .cty => match done.find? (fun c => c.key == f.key) with
        | some c => .ok (f.key, .name ((nameOf ctyNames c.val).getD ""))
        | none => .error .missingKey
      | .named names groups => match ops.lookup f.key with
        | some v => .ok (f.key, v)
        | none => match (namedVal f.key groups done).bind (nameOf names) with
          | some n => .ok (f.key, .name n)
          | none => .error .missingKey
      | .mask => .ok (f.key, .reg (mask.getD .em))
      | .bar _ => match ops.lookup f.key with
        | some (.lit (.int _ false n)) => .ok (f.key, .bar (done.any (fun c => c.key == f.key)) n)
        | some (.sym s) => if done.any (fun c => c.key == f.key) then .error .badOperand else .ok (f.key, .sym s)
        | some _ => .error .badOperand
        | none => .error .missingKey
      | _ => match ops.lookup f.key with
        | some v => .ok (f.key, v)
        | none =>
          if f.kind == .opd && r.fmt == .cv then .ok (f.key, .lit (.int true false 0))
          else if r.opt.contains f.key then .ok (f.key, .dash) else .error .missingKey

/-- The tokens of a compact line from its mnemonic on. -/
def parseCompact (mask : Option Opd) (mn : String) (ts : List Tok) : Except AsmError Ins :=
  match splitDots (lowerAscii mn) with
  | [] => .error .unknownMnemonic
  | m :: sfx => match findRow m with
    | none => .error .unknownMnemonic
    | some r =>
      let ops := if ts.isEmpty then [] else splitCommas ts
      -- a mask operand needs a MASK key to go to
      if mask.isSome && !r.keys.any (fun f => f.key == "MASK" && !r.isUnused "MASK") then .error .badOperand
      else match takeSuffixes r sfx [], placeSlots r r.slots ops with
        | .ok done, .ok vals =>
          -- the atomics have no immediate term, the scalar forms no vector one; a level names what a commit moves
          if r.fmt == .ma && vals.lookup "IMM" != some (.lit (.int true false 0)) then .error .badMemory
          else if vals.any (fun v => r.isUnused v.1 && v.2 != .dash) then .error .badMemory
          else if r.sel.any (fun f => f.kind == .bar true) && done.any (fun c => c.key == "LVL") &&
              !done.any (fun c => c.key == "BAR") then .error .badSuffix
          else if !(["srd", "swr"].contains r.mn) && vals.any (fun v => match v.2 with
              | .reg (.sr _) => true
              | _ => false) then .error .badOperand
          else (fillKeys r mask done vals).map (fun vs => ⟨r, vs, 256⟩)
        | .error e, _ => .error e
        | _, .error e => .error e

/-- A compact instruction with its leading mask, if any: `(mk)` is MASK (R36 step 4). -/
def parseCompactLine (ts : List Tok) : Except AsmError Ins :=
  match ts with
  | .p '(' :: .word m :: .p ')' :: .word mn :: rest => match regName (lowerAscii m) with
    | some (.m n) => parseCompact (some (.m n)) mn rest
    | some .em => parseCompact (some .em) mn rest
    | _ => .error .badRegister
  | .word mn :: rest => parseCompact none mn rest
  | _ => .error .badToken

/-! ## Verbose text (R33) -/

/-- KEY=value pairs: each key with the tokens up to the next key. -/
def keyPairs : List Tok → Option (String × List Tok) → Except AsmError (List (String × List Tok))
  | [], none => .ok []
  | [], some k => .ok [k]
  | t :: ts, cur =>
    match t, ts with
    | .word k, .p '=' :: _ =>
      match keyPairs ts (some (k, [])) with
      | .ok l => .ok (match cur with
        | some c => c :: l
        | none => l)
      | .error e => .error e
    | .p '=', _ => match cur with
      | some (k, []) => keyPairs ts (some (k, []))
      | _ => .error .badKey
    | t, _ => match cur with
      | some (k, v) => keyPairs ts (some (k, v ++ [t]))
      | none => .error .badKey

/-- A key's value as verbose text writes it. -/
def verboseVal (r : AsmRow) (f : KeyField) (ts : List Tok) : Except AsmError Val :=
  if ts == [.p '-'] then
    (if r.isUnused f.key || r.opt.contains f.key || f.kind == .voff then .ok .dash else .error .badValue)
  else if r.isUnused f.key then .error .badValue
  else match f.kind with
    | .named names _ => match ts with
      | [.word w] => if (names.lookup w).isSome then .ok (.name w) else .error .badValue
      | [.num w] =>
        -- a name as it stands, or the number that a name is
        let int (t : String) : Option Int := (numLit false t).toOption.bind Lit.toInt?
        match names.find? (fun x => x.1 == w || ((int x.1).isSome && int x.1 == int w)) with
        | some x => .ok (.name x.1)
        | none => .error .badValue
      | _ => .error .badValue
    | .ty => match ts with
      | [.word w] => if (tyNames.lookup w).isSome then .ok (.name w) else .error .badValue
      | _ => .error .badValue
    | .cty => match ts with
      | [.word w] => if (ctyNames.lookup w).isSome then .ok (.name w) else .error .badValue
      | _ => .error .badValue
    | .bar commit => match ts with
      | [.num n] => match numLit false n with
        | .ok (.int _ _ k) => .ok (.bar false k)
        | _ => .error .badValue
      | [.word w] => match w.toList with
        | 'C' :: ds => match digitsVal 10 ds none with
          | some k => if commit then .ok (.bar true k) else .error .badValue
          | none => .ok (.sym w)
        | _ => .ok (.sym w)
      | _ => .error .badValue
    | _ => match parseVal ts with
      | .ok (.reg (.sr x)) => if ["srd", "swr"].contains r.mn then .ok (.reg (.sr x)) else .error .badOperand
      | v => v

/-- Does a list name something twice? -/
def hasTwice : List String → Bool
  | [] => false
  | x :: xs => xs.contains x || hasTwice xs

/-- Are these the keys that are wanted, in their order (R33)? -/
def keysAre (want got : List String) : Except AsmError Unit :=
  if got == want then .ok ()
  else if hasTwice got then .error .repeatedKey
  else if got.any (fun k => !want.contains k) then .error .extraKey
  else if want.any (fun k => !got.contains k) then .error .missingKey
  else .error .badKey

/-- A verbose instruction word (R33). -/
def parseVerbose (ts : List Tok) : Except AsmError Ins :=
  match ts with
  | .word mn :: rest =>
    if upperAscii mn != mn then .error .unknownMnemonic
    else match findRow (lowerAscii mn), keyPairs rest none with
      | none, _ => .error .unknownMnemonic
      | _, .error e => .error e
      | some r, .ok ps => match keysAre (r.keys.map (·.key)) (ps.map (·.1)) with
        | .error e => .error e
        | .ok _ => ((r.keys.zip ps).mapM (fun (x : KeyField × String × List Tok) =>
            (verboseVal r x.1 x.2.2).map (fun v => (x.1.key, v)))).map (fun vs => ⟨r, vs, 256⟩)
  | _ => .error .badToken

/-! ## The word of an instruction -/

/-- What the word of an instruction depends on beside its text: the values of symbols, and the distance to a label. -/
structure AsmEnv where
  value : String → Option Int
  distance : String → Option Int

/-- An integer into a field of so many bits, written as a signed or an unsigned value. -/
def fitBits (width : Nat) (n : Int) : Except AsmError Nat :=
  if -(2 ^ (width - 1) : Nat) ≤ n && n < (2 ^ width : Nat) then .ok (n % (2 ^ width : Nat)).toNat else .error .outOfRange

/-- The integer a value stands for. -/
def AsmEnv.int (env : AsmEnv) (v : Val) : Except AsmError Int :=
  match v with
  | .lit l => match l.toInt? with
    | some n => .ok n
    | none => .error .badLiteral
  | .sym s => match env.value s with
    | some n => .ok n
    | none => .error .undefinedSymbol
  | .minus s => match env.value s with
    | some n => .ok (-n)
    | none => .error .undefinedSymbol
  | _ => .error .badOperand

/-- An operand code (R66, R67): a literal becomes a small immediate where the range holds it (R24). -/
def AsmEnv.opdCode (env : AsmEnv) (v : Val) : Except AsmError Nat :=
  match v with
  | .dash => .ok 0
  | .reg o | .pair o => .ok (encOpd o).toNat
  | v => match env.int v with
    | .ok n => if -64 ≤ n && n < 64 then .ok (0x300 + (n % 128).toNat) else .error .outOfRange
    | .error e => .error e

/-- IMM of format I: the literal of a float TYPE is a value (R24, R135), of a 16-bit TYPE it has 16 bits. -/
def AsmEnv.immBits (env : AsmEnv) (i : Ins) (v : Val) : Except AsmError Nat :=
  let fmt : Option FFmt := if i.row.mn != "vmovi" then none else match i.get "TYPE" with
    | .name "F16" => some fmt16
    | .name "BF16" => some fmtB16
    | .name "F32" => some fmt32
    | .name "F64" => some fmt32
    | _ => none
  match fmt, v with
  | some f, .lit l => match l.floatBits f with
    | some n => fitBits 32 n
    | none => .error .badLiteral
  | _, v => match env.int v with
    | .ok n =>
      let short := match i.get "TYPE" with
        | .name t => ["B16", "I16", "N16"].contains t
        | _ => false
      if short && n < 0 then fitBits 16 n else fitBits 32 n
    | .error e => .error e

/-- The bits of one key. -/
def AsmEnv.fieldBits (env : AsmEnv) (i : Ins) (f : KeyField) : Except AsmError Nat :=
  match i.get f.key, f.kind with
  | .dash, _ => .ok 0
  | .name n, .named names _ => match names.lookup n with
    | some k => .ok k
    | none => .error .badValue
  | .name n, .ty => match tyNames.lookup n with
    | some k => .ok k
    | none => .error .badValue
  | .name n, .cty => match ctyNames.lookup n with
    | some k => .ok k
    | none => .error .badValue
  | .reg .em, .mask => .ok 0
  | .reg (.m n), .mask => .ok (16 + n.toNat)
  | .sym l, .target => match env.distance l with
    | some d => if -(2 ^ 23 : Nat) ≤ d && d < (2 ^ 23 : Nat) then .ok (d % (2 ^ 24 : Nat)).toNat else .error .outOfRange
    | none => .error .undefinedSymbol
  | .lit l, .target => match l.toInt? with
    | some d => if -(2 ^ 23 : Nat) ≤ d && d < (2 ^ 23 : Nat) then .ok (d % (2 ^ 24 : Nat)).toNat else .error .outOfRange
    | none => .error .badLiteral
  | .pair (.s n), .base => .ok n.toNat
  | .reg (.v n), .voff => .ok (256 + n.toNat)
  | v, .off => match env.int v with
    | .ok n => if -32768 ≤ n && n < 32768 then .ok (n % 65536).toNat else .error .outOfRange
    | .error e => .error e
  | v, .imm => env.immBits i v
  | v, .count => match env.int v with
    | .ok n => if 0 ≤ n && n < 65536 then .ok n.toNat else .error .outOfRange
    | .error e => .error e
  | v, .opd | v, .skipCond => env.opdCode v
  | .bar c n, .bar _ => if n ≤ 21 then .ok (n + if c then 32 else 0) else .error .outOfRange
  | v, .bar _ => match env.int v with
    | .ok n => if 0 ≤ n && n ≤ 21 then .ok n.toNat else .error .outOfRange
    | .error e => .error e
  | v, .rqBar => match env.int v with
    | .ok n => if 0 ≤ n && n ≤ 21 then .ok (2 * n.toNat + 1) else .error .outOfRange
    | .error e => .error e
  | _, _ => .error .badValue

/-- The word of an instruction. A condition of `skip` sets IMM[16] (R79); `vralloc` takes 1 to 32 only (R203). -/
def AsmEnv.word (env : AsmEnv) (i : Ins) : Except AsmError W64 :=
  let extra := if i.row.mn == "skip" && i.get "A" != .dash then 0x10000 else 0
  let badAlloc := i.row.mn == "vralloc" && (match env.int (i.get "A") with
    | .ok n => n < 1 || 32 < n
    | .error _ => false)
  if badAlloc then .error .outOfRange
  else (i.row.keys.mapM (fun f => (env.fieldBits i f).map (fun n => n * 2 ^ f.lo))).map
    (fun l => BitVec.ofNat 64 (i.row.op * 2 ^ 54 + l.sum + extra))

/-! ## Printing -/

def opdText : Opd → String
  | .v n => "v" ++ toString n.toNat
  | .s n => "s" ++ toString n.toNat
  | .m n => "m" ++ toString n.toNat
  | .em => "em"
  | .imm i => toString i.toInt
  | .sr r => "%" ++ ((sregNames.find? (fun x => x.2 == r)).elim "" (·.1))

def hexDigits (n : Nat) : String := String.ofList (Nat.toDigits 16 n)

def Lit.text : Lit → String
  | .int true neg n => (if neg then "-" else "") ++ toString n
  | .int false neg n => (if neg then "-" else "") ++ "0x" ++ upperAscii (hexDigits n)
  | .float neg m e => (if neg then "-" else "") ++ toString m ++ ".0e" ++ toString e
  | .inf neg => if neg then "-inf" else "inf"
  | .nan => "nan"

def Val.text : Val → String
  | .dash => "-"
  | .reg o => opdText o
  | .pair o => opdText o ++ ":" ++ (match o with
    | .v n => toString (n.toNat + 1)
    | .s n => toString (n.toNat + 1)
    | _ => "")
  | .lit l => l.text
  | .sym s | .name s => s
  | .minus s => "-" ++ s
  | .bar c n => (if c then "C" else "") ++ toString n

/-- A verbose word: every key with its value (R33). -/
def Ins.verbose (i : Ins) : String :=
  upperAscii i.row.mn ++ String.join (i.vals.map (fun v => " " ++ v.1 ++ "=" ++ v.2.text))

/-- Suffixes whose values add up to a value, a group that holds its default written with none. -/
def splitGroups : List SfxGroup → Nat → Option (List String)
  | [], v => if v == 0 then some [] else none
  | g :: gs, v =>
    let bare : Option (List String) := match g.dflt with
      | some d => if d ≤ v then splitGroups gs (v - d) else none
      | none => none
    match bare with
    | some l => some l
    | none => g.alts.findSome? (fun a => if a.2 ≤ v then (splitGroups gs (v - a.2)).map (a.1 :: ·) else none)

/-- The suffixes of one key. TYPE is always written, as the spec's worked conversion writes it. -/
def Ins.suffixOf (i : Ins) (f : KeyField) : List String :=
  match f.kind, i.get f.key with
  | .named names groups, .name n => ((names.lookup n).bind (splitGroups groups)).getD []
  | .ty, .name n => [lowerAscii n]
  | .cty, .name n => [lowerAscii n]
  | .bar _, .bar true _ => ["c"]
  | _, _ => []

/-- A memory operand; an absent or zero term is left out. -/
def Ins.memText (i : Ins) : String :=
  "[" ++ (i.get "BASE").text ++ (match i.get "VOFF" with
    | .dash => ""
    | v => " + " ++ v.text) ++ (match i.get "IMM" with
    | .dash => ""
    | .lit (.int d neg n) => if n == 0 then "" else (if neg then " - " else " + ") ++ (Lit.int d false n).text
    | .minus s => " - " ++ s
    | v => " + " ++ v.text) ++ "]"

/-- The compact text of an instruction (R37 step 1): SEL's suffixes before the type where the compact form has them there. -/
def Ins.compact (i : Ins) : String :=
  let keys := i.row.keys.filter (fun f => !i.row.isUnused f.key)
  let types := keys.filter (fun f => f.kind == .ty || f.kind == .cty)
  let others := keys.filter (fun f => f.kind != .ty && f.kind != .cty && !i.row.sel.contains f)
  let sel := if i.row.mn == "qcvt" then i.row.sel.filter (fun f => f.key == "DFMT") ++
    i.row.sel.filter (fun f => f.key != "DFMT") else i.row.sel
  let order := if i.row.selFirst then sel ++ types ++ others else types ++ sel ++ others
  let sfx := order.flatMap i.suffixOf
  let mask := match i.get "MASK" with
    | .reg (.m n) => "(" ++ opdText (.m n) ++ ") "
    | _ => ""
  let ops := i.row.slots.filterMap (fun s =>
    if s.key == "MEM" then some i.memText
    else match i.get s.key with
      | .dash => none
      | .name n => some (lowerAscii n)
      | .bar _ n => some (toString n)
      | .lit (.int d neg n) =>
        if i.row.fmt == .cv && s.key == "B" && n == 0 then none else some (Lit.int d neg n).text
      | v => some v.text)
  mask ++ String.intercalate "." (i.row.mn :: sfx) ++ (if ops.isEmpty then "" else " " ++ String.intercalate ", " ops)

/-- The same number, however it is written: a zero that compact text leaves out is one, in any spelling. -/
def Lit.same : Lit → Lit → Bool
  | .int d n k, .int e m j => k == j && (k == 0 || (d == e && n == m))
  | .float n m e, .float k p f => n == k && m * 10 ^ (e - f).toNat == p * 10 ^ (f - e).toNat
  | a, b => a == b

def Val.same : Val → Val → Bool
  | .lit a, .lit b => a.same b
  | a, b => a == b

/-- Does an instruction's compact text give the same instruction again? Not where a key holds a value that no suffix writes. -/
def Ins.turnsBack (i : Ins) : Bool :=
  match (lexLine i.compact.toList).bind parseCompactLine with
  | .ok j => j.row.mn == i.row.mn && j.vals.length == i.vals.length &&
      (j.vals.zip i.vals).all (fun x => x.1.1 == x.2.1 && x.1.2.same x.2.2)
  | .error _ => false

end Sys2Proof.Machine
end

