-- ==== Sys2Proof/Machine/AsmClause.lean ====
section
/-!
DEFINITION. How the assembler `ghas` forms clauses and names flags: compact clauses (R30, R31), completion flags (R32, with R222,
R235 and R247), verbose clauses among them (R34, R35), the allotment of a kernel without roles (R221), the code words and the
start map (R64), and the conversion of whole kernels between the two ways of writing (R36, R37).
-/
namespace Sys2Proof.Machine

/-! ## Registers an instruction touches (R30, R247) -/

/-- The registers a value names: one, or a pair (R23). `s0` holds nothing (R69). -/
def Val.regs : Val → List Opd
  | .reg (.sr _) => []
  | .reg (.imm _) => []
  | .reg o => if o == .s 0 then [] else [o]
  | .pair (.v n) => [.v n, .v (n + 1)]
  | .pair (.s n) => (if n == 0 then [] else [.s n]) ++ [.s (n + 1)]
  | _ => []

/-- A run of k registers from a register, up to the last there is. -/
def runOf (k : Nat) : Val → List Opd
  | .reg (.v n) | .pair (.v n) => ((List.range k).filter (fun j => n.toNat + j < 256)).map (fun j => .v (BitVec.ofNat 8 (n.toNat + j)))
  | .reg (.s n) | .pair (.s n) => ((List.range k).filter (fun j => n.toNat + j < 512)).map (fun j => .s (BitVec.ofNat 9 (n.toNat + j)))
  | _ => []

/-- Source and destination registers of `qcvt` at their widest (R244, R247). -/
def qcvtRuns (i : Ins) : Nat × Nat :=
  let four := i.get "DFMT" == .name "E2M1" || i.get "DFMT" == .name "O4"
  ((if four then 16 else 8) * (if i.get "STYPE" == .name "F32" then 2 else 1), 4)

/-- The source registers of `qhist`: n of them, or 32 where n is a scalar register, as far as the role's allotment goes. -/
def qhistRun (i : Ins) : List Opd :=
  match i.get "B" with
  | .lit (.int _ false n) => runOf n (i.get "A")
  | _ => (runOf 32 (i.get "A")).filter (fun o => match o with
    | .v n => n.toNat < i.cap
    | _ => true)

/-- The engine operands of a matrix instruction: D of the product forms, the histogram of `qhist` and `qscale` (R233). -/
def Ins.engine (i : Ins) : List Opd :=
  if ["mma", "mmas", "mmac", "mmag"].contains i.row.mn then runOf 8 (i.get "DST")
  else if i.row.mn == "qhist" then runOf 2 (i.get "DST")
  else if i.row.mn == "qscale" then runOf 2 (i.get "A")
  else []

/-- The ranges of an instruction by key, where it touches more than it names. -/
def Ins.run (i : Ins) (key : String) : Option (List Opd) :=
  let v := i.get key
  match i.row.mn, key with
  | "mma", "DST" | "mmas", "DST" | "mmac", "DST" | "mmag", "DST" => some (runOf 8 v)
  | "mma", "A" | "mmac", "A" | "mmag", "A" => some (runOf 4 v)
  | "mmas", "A" => some (runOf 8 v)
  | "qhist", "DST" | "qclr", "DST" => some (runOf 2 v)
  | "qhist", "A" => some (qhistRun i)
  | "qscale", "A" => some (runOf 2 v)
  | "qcvt", "DST" => some (runOf (qcvtRuns i).2 v)
  | "qcvt", "A" => some (runOf (qcvtRuns i).1 v)
  | "pktld", "DST" => some (runOf 64 v)
  | "rqputs", "C" | "rqred", "C" => some (runOf 4 v)
  | "wpset", "B" | "vhrd", "DST" => some (runOf 8 v)
  | _, _ => none

/-- The symbols of an instruction, its label apart, as the integers they stand for (R27: `.equ`). -/
def Ins.resolve (value : String → Option Int) (i : Ins) : Ins :=
  { i with vals := i.vals.map (fun x => match x.2 with
    | .sym s => if x.1 == "TARGET" then x else match value s with
      | some n => (x.1, .lit (.int false (n < 0) n.natAbs))
      | none => x
    | .minus s => match value s with
      | some n => (x.1, .lit (.int false (0 < n) n.natAbs))
      | none => x
    | _ => x) }

/-- Does a field take a 64-bit pair (R69): by its type, or always? Then its even register names both (R106, R129, R142, R215,
R218, R231, R250, R281). -/
def Ins.wide (i : Ins) (key : String) : Bool :=
  let wide (v : Val) : Bool := match v with
    | .name t => ["B64", "I64", "N64", "F64"].contains t
    | _ => false
  let special (v : Val) : Bool := match v with
    | .reg (.sr r) => r == .cycles || r == .tvec || r == .tval || r == .tret
    | _ => false
  match i.row.mn, key with
  | "srd", "DST" => special (i.get "A")
  | "swr", "A" => special (i.get "DST")
  | "launch", "A" | "call", "DST" | "ret", "A" | "qsave", "A" | "qload", "A" | "mmas", "E" => true
  | "sigop", _ | "sigrmw", _ => true
  | "rqfill", "A" | "rqlist", _ => false
  | "sshl", "B" | "sshr", "B" | "ssra", "B" | "scmp", "DST" | "ssel", "C" | "sclz", "DST" | "spopc", "DST" | "sbfe", "B"
  | "sbfi", "C" | "vshl", "B" | "vshr", "B" | "vsra", "B" | "vclz", "DST" | "vpopc", "DST" | "vbfe", "B" | "vbfi", "C"
  | "vsel", "C" | "vcmp", "DST" | "vfcmp", "DST" | "vfclass", "DST" | "vshfl", "B" | "vshflx", "B" | "vslide", "B"
  | "vbcast", "B" | "vvote", "DST" => false
  | _, _ =>
    if i.row.cls == .matrix then i.row.fmt == .mx && key == "C"
    else if i.row.cls == .request then key == "DST" || key == "A"
    else if i.row.fmt == .cv then (key == "DST" && wide (i.get "DTYPE")) || (key == "A" && wide (i.get "STYPE"))
    else ["DST", "DATA", "A", "B", "C"].contains key && wide (i.get "TYPE")

/-- The registers of one key. -/
def Ins.keyRegs (i : Ins) (key : String) : List Opd :=
  match i.run key with
  | some l => l
  | none => match i.get key with
    | .reg (.v n) => (if i.wide key then Val.pair (.v n) else .reg (.v n)).regs
    | .reg (.s n) => (if i.wide key then Val.pair (.s n) else .reg (.s n)).regs
    | v => v.regs

/-- Every register an instruction reads or writes. -/
def Ins.touches (i : Ins) : List Opd := i.row.keys.flatMap (fun f => i.keyRegs f.key)

/-- The registers it touches other than as engine operands. -/
def Ins.others (i : Ins) : List Opd :=
  i.row.keys.flatMap (fun f =>
    let l := i.keyRegs f.key
    if (f.key == "DST" && ["mma", "mmas", "mmac", "mmag", "qhist"].contains i.row.mn) || (f.key == "A" && i.row.mn == "qscale")
    then [] else l)

/-- The registers a long-latency instruction writes, each with whether a matrix instruction does (R235). -/
def Ins.lateWrites (i : Ins) : List (Opd × Bool) :=
  if !i.row.llMem && !i.row.llOther then []
  else if ["st", "sts"].contains i.row.mn || i.row.cls == .request then []
  else
    let dst := i.keyRegs "DST"
    let mask := if i.row.mn == "pktld" then (i.get "A").regs else []
    (dst ++ mask).map (fun o => (o, i.row.cls == .matrix))

/-- Does an instruction touch one of the registers that are still to be written, engine operands written by a matrix
instruction apart (R30, R235)? -/
def Ins.waitsFor (i : Ins) (due : List (Opd × Bool)) : Bool :=
  due.any (fun d => (i.others).contains d.1 || (i.engine.contains d.1 && !d.2))

/-! ## Clauses -/

/-- One thing in a kernel's code. -/
inductive AsmItem
  | label (s : String)
  | ins (i : Ins)
  | brk (yield : Bool)
  | clause (h : Header) (ws : List Ins)
deriving DecidableEq, Repr, Inhabited

/-- A clause of a kernel: the labels at its header, its words, and its header where verbose text gives it. -/
structure AsmClause where
  labels : List String
  cls : Cls
  words : List Ins
  yield : Bool
  fixed : Option Header
deriving DecidableEq, Repr, Inhabited

/-- How many items after a skip of n are bound to it: n, and as many more as the skips among them ask for. -/
def skipExtent : List AsmItem → Nat → Nat
  | _, 0 => 0
  | [], n + 1 => n + 1
  | x :: xs, n + 1 =>
    let m := match x with
      | .ins i => if i.row.mn == "skip" then (match i.get "IMM" with
        | .lit (.int _ false k) => max n k
        | _ => n) else n
      | _ => n
    match xs, m with
    | _, 0 => 1
    | xs, m + 1 => 1 + skipExtent xs (m + 1)

/-- The count of a skip as a literal. -/
def Ins.skipCount (i : Ins) : Nat :=
  match i.get "IMM" with
  | .lit (.int _ false n) => n
  | _ => 0

/-- The instructions of a list of items, if they are all press-class instructions and no branch (R31). -/
def skippable (l : List AsmItem) : Option (List Ins) :=
  l.mapM (fun x => match x with
    | .ins i => if i.row.cls == .press && !i.row.isBranch then some i else none
    | _ => none)

/-- The clause that is being filled: its labels and its words, last first. -/
structure OpenClause where
  labels : List String
  words : List Ins
deriving DecidableEq, Repr, Inhabited

def OpenClause.close (o : OpenClause) (yield : Bool) : List AsmClause :=
  match o.words with
  | [] => []
  | w :: _ => [{ labels := o.labels, cls := w.row.cls, words := o.words.reverse, yield, fixed := none }]

def OpenClause.due (o : OpenClause) : List (Opd × Bool) := o.words.flatMap (fun i => i.lateWrites)

/-- The clauses of a kernel's items (R30, R31, R34, R35). `labels` are those waiting for the next header, `bound` is how many
of the next instructions a skip keeps in the open clause. A label with no instruction behind it is an error (log 50). -/
def formClauses : List AsmItem → (labels : List String) → (o : OpenClause) → (bound : Nat) →
    Except AsmError (List AsmClause)
  | [], labels, o, bound =>
    if bound != 0 then .error .skipBroken else if !labels.isEmpty then .error .badNesting else .ok (o.close false)
  | .label s :: rest, labels, o, bound =>
    if bound != 0 then .error .skipBroken
    else (formClauses rest (labels ++ [s]) ⟨[], []⟩ 0).map (o.close false ++ ·)
  | .brk y :: rest, labels, o, bound =>
    if bound != 0 then .error .skipBroken
    else (formClauses rest labels ⟨[], []⟩ 0).map (o.close y ++ ·)
  | .clause h ws :: rest, labels, o, bound =>
    if bound != 0 then .error .skipBroken
    else if h.count != ws.length || !ws.all (fun w => w.row.cls == h.cls) || ws.dropLast.any (fun w => w.row.isBranch) ||
        (h.fa.isSome && h.fa == h.fb) then .error .badClause
    else (formClauses rest [] ⟨[], []⟩ 0).map
      (o.close false ++ { labels, cls := h.cls, words := ws, yield := h.yield, fixed := some h } :: ·)
  | .ins i :: rest, labels, o, bound =>
    let skip := i.row.mn == "skip"
    let n := i.skipCount
    let extent := if skip then skipExtent rest n else 0
    let group := if skip then skippable (rest.take extent) else some []
    match group with
    | none => .error .skipBroken
    | some g =>
      if skip && (n + 1 > 16 || (rest.take extent).length < extent) then .error .skipBroken
      else
        let due := o.due
        let full := o.words.length + 1 + extent > 16
        let other := match o.words with
          | [] => false
          | w :: _ => w.row.cls != i.row.cls
        let ends := !o.words.isEmpty && (full || other || i.waitsFor due || g.any (fun j => j.waitsFor due))
        if ends && bound != 0 then .error .skipBroken
        else if extent + 1 > 16 then .error .skipBroken
        else
          let before := if ends then o.close false else []
          -- labels wait for the first instruction of their clause
          let o1 : OpenClause := if ends || o.words.isEmpty then ⟨labels, [i]⟩ else ⟨o.labels, i :: o.words⟩
          let bound := max (bound - 1) (if skip then n else 0)
          if i.row.isBranch || o1.words.length == 16 then
            (formClauses rest [] ⟨[], []⟩ bound).map (before ++ o1.close false ++ ·)
          else (formClauses rest [] o1 bound).map (before ++ ·)

/-! ## Flags (R32, R35) -/

/-- An entry of the pending set: a flag, the registers it covers (`none`: all), the counters its instructions count on, and
the clause that named it. -/
structure PendEntry where
  flag : Nat
  regs : Option (List (Opd × Bool))
  ctrs : List (Option String)
  born : Nat
deriving DecidableEq, Repr, Inhabited

abbrev PendSet := List PendEntry

/-- Entries in order of the clauses that named them, then of their flags. -/
def insertEntry (e : PendEntry) : PendSet → PendSet
  | [] => [e]
  | x :: xs =>
    if e == x then x :: xs
    else if e.born < x.born || (e.born == x.born && e.flag < x.flag) then e :: x :: xs
    else x :: insertEntry e xs

/-- Union of sets (R32 step 6). -/
def unionSets (l : List PendSet) : PendSet := l.flatten.foldl (fun acc e => insertEntry e acc) []

def PendSet.held (s : PendSet) (f : Nat) : Bool := s.any (fun e => e.flag == f)

/-- The lowest flag that no entry holds and that is not another. -/
def PendSet.free (s : PendSet) (skip : Option Nat) : Option Nat :=
  (List.range 12).find? (fun f => !s.held f && some f != skip)

/-- The flag of the oldest entry, another flag apart. -/
def PendSet.oldest (s : PendSet) (skip : Option Nat) : Option Nat := (s.find? (fun e => some e.flag != skip)).map (·.flag)

/-- Choose a flag (R32 step 3): the flag, the set left, and the flag to wait for. -/
def PendSet.choose (s : PendSet) (skip : Option Nat) : Nat × PendSet × List Nat :=
  match s.free skip with
  | some f => (f, s, [])
  | none => match s.oldest skip with
    | some f => (f, s.filter (fun e => e.flag != f), [f])
    | none => (0, s, [])

def PendEntry.touched (e : PendEntry) (ws : List Ins) : Bool :=
  match e.regs with
  | none => ws.any (fun i => !(i.touches).isEmpty)
  | some l => ws.any (fun i => i.waitsFor l)

/-- One instruction's effect on the set: a long-latency one adds its registers to its flag's entry, taking over engine
operands (R235); `waitcnt c, 0` drops what its counter covers (R32 step 5). -/
def PendSet.afterIns (k : Nat) (fa fb : Option Nat) (s : PendSet) (i : Ins) : PendSet :=
  if i.row.mn == "waitcnt" then
    (match i.get "CNT", i.get "A" with
    | .name c, .lit (.int _ _ 0) => s.filter (fun e => !(e.ctrs.all (fun x => x == some c)))
    | _, _ => s)
  else
    let flag := if i.row.llMem then fa else if i.row.llOther then fb else none
    match flag with
    | none => s
    | some f =>
      let taken := if i.row.cls == .matrix then
          i.engine.filter (fun o => s.any (fun e => match e.regs with
            | some l => l.contains (o, true)
            | none => false)) else []
      let s := s.map (fun e => { e with regs := e.regs.map (fun l => l.filter (fun d => !(d.2 && taken.contains d.1))) })
      let late := i.lateWrites
      let late := late ++ (taken.map (fun o => (o, true))).filter (fun d => !late.contains d)
      let mine := s.find? (fun e => e.flag == f && e.born == k)
      let new : PendEntry := match mine with
        | some e => { e with regs := e.regs.map (· ++ late), ctrs := e.ctrs ++ [i.row.counter] }
        | none => { flag := f, regs := some late, ctrs := [i.row.counter], born := k }
      insertEntry new (s.filter (fun e => !(e.flag == f && e.born == k)))

/-- Which instructions of a list stand under a `skip`, with n bound to one before them (R79). -/
def underSkip : List Ins → (n : Nat) → List (Ins × Bool)
  | [], _ => []
  | i :: is, n => (i, n != 0) :: underSkip is (max (n - 1) (if i.row.mn == "skip" then i.skipCount else 0))

/-- The words of a clause, each with whether a `skip` may pass it over. -/
def AsmClause.marked (c : AsmClause) : List (Ins × Bool) := underSkip c.words 0

/-- The set after a clause's words, and the sets at its `join`s with the labels they name: behind a `join` that no `skip` passes over no
word issues (R79, R222). -/
def PendSet.afterWords (k : Nat) (fa fb : Option Nat) : PendSet → List (Ins × Bool) → PendSet × List (Val × PendSet)
  | s, [] => (s, [])
  | s, (i, skipped) :: is =>
    let s := s.afterIns k fa fb i
    if i.row.mn != "join" then PendSet.afterWords k fa fb s is
    else if skipped then
      let r := PendSet.afterWords k fa fb s is
      (r.1, (i.get "TARGET", s) :: r.2)
    else (s, [(i.get "TARGET", s)])

/-- What one clause does: its header, the set at its end, and the sets at its `join`s. -/
structure FlagState where
  header : Header
  out : PendSet
  joins : List (Val × PendSet)
deriving DecidableEq, Repr, Inhabited

def waitBits (l : List Nat) : BitVec 12 := BitVec.ofNat 12 (((List.range 12).filter (fun f => l.contains f)).map (2 ^ ·)).sum

def headerFlags (h : Header) : List Nat :=
  (List.range 12).filter (fun f => h.wait.getLsbD f || h.fa == some f || h.fb == some f)

/-- Flags and pending set of clause k, entered with a set (R32 steps 2 to 5, R35). -/
def AsmClause.flags (k : Nat) (c : AsmClause) (s : PendSet) : FlagState :=
  match c.fixed with
  | some h =>
    let s := s.filter (fun e => !(headerFlags h).contains e.flag)
    -- each flag that SETA or SETB names is held, whether or not an instruction stands under it
    let s := (h.fa.toList ++ h.fb.toList).foldl (fun s f => insertEntry { flag := f, regs := some [], ctrs := [], born := k } s) s
    match PendSet.afterWords k h.fa h.fb s c.marked with
    | (o, j) => ⟨h, o, j⟩
  | none =>
    let needA := c.words.any (fun i => i.row.llMem)
    let needB := c.words.any (fun i => i.row.llOther)
    let a : Option Nat × PendSet × List Nat := if needA then (match s.choose none with
      | (f, s, w) => (some f, s, w)) else (none, s, [])
    let b : Option Nat × PendSet × List Nat := if needB then (match a.2.1.choose a.1 with
      | (f, s, w) => (some f, s, w)) else (none, a.2.1, [])
    let s := b.2.1
    let touched := s.filter (fun e => e.touched c.words)
    let waits := a.2.2 ++ b.2.2 ++ touched.map (·.flag)
    let h : Header := { cls := c.cls, count := c.words.length, wait := waitBits waits, fa := a.1, fb := b.1, yield := c.yield }
    -- a flag that has been waited for covers nothing any more
    match PendSet.afterWords k a.1 b.1 (s.filter (fun e => !waits.contains e.flag)) c.marked with
    | (o, j) => ⟨h, o, j⟩

/-- The last instruction of a clause. -/
def AsmClause.last (c : AsmClause) : Option Ins := c.words.getLast?

/-- Does the last word of a clause ever issue: no `join` before it ends the way (R222)? -/
def AsmClause.reached (c : AsmClause) : Bool := !c.marked.any (fun x => x.1.row.mn == "join" && !x.2)

/-- Does the way go on from a clause to the next one? Not after a branch that is always taken (R78, R113), nor after a `join`
(R222) or an `rte`, which resumes at `%tret` (R200), unless a `skip` may pass the word over (R79); a `trap` is taken for no transfer
(log 50). -/
def AsmClause.falls (c : AsmClause) : Bool :=
  c.reached && !c.marked.any (fun x => x.1.row.mn == "rte" && !x.2) && (match c.marked.getLast? with
    | some (i, skipped) => skipped || !(["bra", "ret", "exit", "yield", "call"].contains i.row.mn)
    | none => true)

/-- The pending set where anything may be pending: every flag the kernel names, covering all registers (R32 step 7). A header
names flags in its wait mask too (R35). -/
def everyFlag (fs : List (Option FlagState)) : PendSet :=
  let named := fs.flatMap (fun x => match x with
    | some f => headerFlags f.header
    | none => [])
  ((List.range 12).filter (fun f => named.contains f)).map (fun f => { flag := f, regs := none, ctrs := [none], born := 0 })

/-- The set at the header of clause k: from the clause before it, and from every transfer that names one of its labels. -/
def enterSet (every : PendSet) (cs : List AsmClause) (fs : List (Option FlagState)) (k : Nat) (c : AsmClause) : PendSet :=
  let before : PendSet := match k with
    | 0 => []
    | j + 1 => match cs[j]?, (fs[j]?).join with
      | some p, some f => match p.last with
        | some i =>
          if !p.reached then []
          else if i.row.mn == "call" then every
          else if p.falls then f.out else []
        | none => f.out
      | _, _ => []
  let jumps : List PendSet := (cs.zip fs).flatMap (fun x => match x.2 with
    | none => []
    | some f =>
      let here := f.joins.filterMap (fun j => match j with
        | (.sym l, s) => if c.labels.contains l then some s else none
        | _ => none)
      let there := match x.1.last with
        | some i => match i.get "TARGET" with
          | .sym l =>
            if !c.labels.contains l || !x.1.reached then []
            else if i.row.mn == "call" || i.row.mn == "yield" then [every]
            else [f.out]
          | _ => []
        | none => []
      here ++ there)
  unionSets (before :: jumps)

/-- One sweep over the kernel in source order; `every` is the set of R32 step 7 by the sweep before. -/
def flagSweep (every : PendSet) (cs : List AsmClause) : List AsmClause → Nat → List (Option FlagState) → List (Option FlagState)
  | [], _, fs => fs
  | c :: rest, k, fs =>
    flagSweep every cs rest (k + 1) (fs.set k (some (c.flags k (enterSet every cs fs k c))))

/-- Sweeps until nothing changes (R32 step 6). -/
def flagsFix (cs : List AsmClause) : Nat → List (Option FlagState) → Except AsmError (List FlagState)
  | 0, _ => .error .flagsUnsettled
  | n + 1, fs =>
    let next := flagSweep (everyFlag fs) cs cs 0 fs
    if next == fs then .ok (next.filterMap id) else flagsFix cs n next

/-- The headers of a kernel's clauses. -/
def clauseHeaders (cs : List AsmClause) : Except AsmError (List Header) :=
  (flagsFix cs (64 + 16 * cs.length) (cs.map (fun _ => none))).map (fun l => l.map (·.header))

/-! ## The allotment (R221) -/

/-- The vector registers R221 counts: those named, with pairs, and the ranges of R247; the source of a `qhist` whose n is a
scalar register counts its named register only. -/
def Ins.allotRegs (i : Ins) : List Nat :=
  let scalarCount := i.row.mn == "qhist" && (match i.get "B" with
    | .reg (.s _) => true
    | _ => false)
  let l := i.row.keys.flatMap (fun f => (i.get f.key).regs) ++ if scalarCount then i.engine else i.touches
  l.filterMap (fun o => match o with
    | .v n => some n.toNat
    | _ => none)

def AsmItem.inss : AsmItem → List Ins
  | .ins i => [i]
  | .clause _ ws => ws
  | _ => []

/-- The allotment of a kernel without roles: the smallest multiple of 8 above its highest vector register, 8 to 256. -/
def allotOf (items : List AsmItem) : Nat :=
  let regs := (items.flatMap AsmItem.inss).flatMap Ins.allotRegs
  match regs with
  | [] => 8
  | l => min 256 (8 * (l.foldl max 0 / 8 + 1))

/-! ## Code words and the start map (R64) -/

/-- Where each clause's header stands. -/
def headerIndexes : List AsmClause → Nat → List Nat
  | [], _ => []
  | c :: cs, k => k :: headerIndexes cs (k + 1 + c.words.length)

/-- The labels of a kernel with the code word each names. -/
def labelIndexes (cs : List AsmClause) : List (String × Nat) :=
  (cs.zip (headerIndexes cs 0)).flatMap (fun x => x.1.labels.map (fun l => (l, x.2)))

/-- The words of one clause, its header at code word k. -/
def AsmClause.code (value : String → Option Int) (labels : List (String × Nat)) (k : Nat) (c : AsmClause) (h : Header) :
    Except AsmError (List W64) :=
  (c.words.zipIdx.mapM (fun (x : Ins × Nat) =>
    AsmEnv.word { value, distance := fun l => (labels.lookup l).map (fun t => (t : Int) - (k + 1 + x.2 : Nat)) } x.1)).map
    (encodeHeader h :: ·)

/-- The code words of a kernel. -/
def kernelWords (value : String → Option Int) (cs : List AsmClause) (hs : List Header) : Except AsmError (List W64) :=
  let labels := labelIndexes cs
  (((cs.zip hs).zip (headerIndexes cs 0)).mapM (fun (x : (AsmClause × Header) × Nat) => x.1.1.code value labels x.2 x.1.2)).map List.flatten

/-- The words of the start map: bit b of word j is set where code word 64j + b is a header. -/
def startMap (n : Nat) (headers : List Nat) : List W64 :=
  (List.range ((n + 63) / 64)).map (fun j =>
    BitVec.ofNat 64 ((headers.filter (fun k => k / 64 == j)).map (fun k => 2 ^ (k % 64))).sum)

/-- The bytes of a code image: preface, code words, start map (R64). -/
def codeImage (words : List W64) (headers : List Nat) : List Byte :=
  wordBytes 8 words.length ++ List.replicate 56 0 ++ (words ++ startMap words.length headers).flatMap (fun w => wordBytes 8 w.toNat)

/-! ## Conversion of kernels (R36, R37) -/

def flagText : Option Nat → String
  | none => "-"
  | some n => "w" ++ toString n

def clsNames : List (String × Cls) :=
  [("press", .press), ("matrix", .matrix), ("request", .request), ("debug", .debug), ("compositor", .compositor)]

/-- A header line (R34). -/
def headerText (h : Header) : String :=
  let wait := (List.range 12).filter (fun f => h.wait.getLsbD f)
  ".clause CLASS=" ++ ((clsNames.find? (fun x => x.2 == h.cls)).elim "" (·.1)) ++ " COUNT=" ++ toString h.count ++
    " WAIT=" ++ (if wait.isEmpty then "-" else String.intercalate "," (wait.map (fun f => "w" ++ toString f))) ++
    " SETA=" ++ flagText h.fa ++ " SETB=" ++ flagText h.fb ++ " YIELD=" ++ (if h.yield then "1" else "0")

/-- Compact to verbose: each clause with its header written out (R36). -/
def verboseItems (cs : List AsmClause) (hs : List Header) : List AsmItem :=
  (cs.zip hs).flatMap (fun x => x.1.labels.map .label ++ [.clause x.2 x.1.words])

/-- Does the greedy rule end a clause where it ends, before the clause that follows (R37 step 2)? -/
def AsmClause.endsItself (c : AsmClause) (next : Option AsmClause) : Bool :=
  match next with
  | none => false
  | some d => match formClauses (c.words.map .ins ++ d.labels.map .label ++ d.words.map .ins) [] ⟨[], []⟩ 0 with
    | .ok (e :: _) => e.words == c.words
    | _ => false

/-- The items that write one clause compactly, ended by a break where the greedy rule does not end it. -/
def AsmClause.compactItems (c : AsmClause) (ends : Bool) : List AsmItem :=
  c.labels.map .label ++ c.words.map .ins ++ (if ends then [] else [.brk c.yield])

/-- The items that write one clause as it stands. -/
def AsmClause.verboseItem (c : AsmClause) (h : Header) : List AsmItem := c.labels.map .label ++ [.clause h c.words]

/-- The clauses as items: those marked stay verbose. -/
def mixedItems : List (AsmClause × Header × Bool) → List AsmItem
  | [] => []
  | x :: rest =>
    (if x.2.2 then x.1.verboseItem x.2.1 else x.1.compactItems (x.1.endsItself (rest.head?.map (·.1)))) ++ mixedItems rest

/-- May compact text write a clause by itself: each word turns back into itself, and the greedy rule keeps them together? -/
def AsmClause.compacts (c : AsmClause) : Bool :=
  c.words.all Ins.turnsBack && (match formClauses (c.compactItems false) [] ⟨[], []⟩ 0 with
    | .ok [d] => d.words == c.words
    | _ => false)

/-- The first compact clause whose header the rules of compact text do not give (R37 step 3). -/
def firstWrong (l : List (AsmClause × Header × Bool)) : Option Nat :=
  match (formClauses (mixedItems l) [] ⟨[], []⟩ 0).bind clauseHeaders with
  | .ok hs => if hs.length == l.length then (l.zip hs).findIdx? (fun x => !x.1.2.2 && x.2 != x.1.2.1)
    else l.findIdx? (fun x => !x.2.2)
  | .error _ => l.findIdx? (fun x => !x.2.2)

/-- One clause is to be verbose, or compact. -/
def markAt (l : List (AsmClause × Header × Bool)) (k : Nat) (verbose : Bool) : List (AsmClause × Header × Bool) :=
  l.mapIdx (fun j x => if j == k then (x.1, x.2.1, verbose) else x)

/-- Verbose to compact: one clause after another is left verbose, the first whose header would differ, until every compact one gets
the header it had. -/
def compactFix : Nat → List (AsmClause × Header × Bool) → List (AsmClause × Header × Bool)
  | 0, l => l.map (fun x => (x.1, x.2.1, true))
  | n + 1, l => match firstWrong l with
    | some k => compactFix n (markAt l k true)
    | none => l

/-- A clause that differed only on account of one left verbose after it is compact again. -/
def compactMore (l : List (AsmClause × Header × Bool)) : List (AsmClause × Header × Bool) :=
  (List.range l.length).foldl (fun l k =>
    let m := markAt l k false
    if (l[k]?).any (fun x => x.2.2 && x.1.compacts) && (firstWrong m).isNone then m else l) l

/-- Take out every break that the greedy rule does not need (R37 step 2). -/
def dropBreaks (goal : List (List Ins)) : List AsmItem → List AsmItem → List AsmItem
  | done, [] => done.reverse
  | done, .brk false :: rest =>
    match formClauses (done.reverse ++ rest) [] ⟨[], []⟩ 0 with
    | .ok cs => if cs.map (·.words) == goal then dropBreaks goal done rest
      else dropBreaks goal (.brk false :: done) rest
    | .error _ => dropBreaks goal (.brk false :: done) rest
  | done, x :: rest => dropBreaks goal (x :: done) rest

/-- The compact text of a kernel's clauses (R37); a clause that compact text cannot write by itself is verbose from the start. -/
def compactOf (cs : List AsmClause) (hs : List Header) : List AsmItem :=
  let l := compactMore <| compactFix (cs.length + 2) ((cs.zip hs).map (fun x => ({ x.1 with yield := x.2.yield, fixed := none }, x.2, !x.1.compacts)))
  dropBreaks (cs.map (·.words)) [] (mixedItems l)

/-- The lines of items. -/
def AsmItem.lines : AsmItem → List String
  | .label s => [s ++ ":"]
  | .ins i => ["    " ++ i.compact]
  | .brk y => [if y then "    .break yield" else "    .break"]
  | .clause h ws => headerText h :: ws.map Ins.verbose

end Sys2Proof.Machine
end

