-- ==== Sys2Proof/Machine/AsmFile.lean ====
section
/-!
DEFINITION. Whole files of the assembler `ghas`: the directives (R27), data images, signals and queues (R28, R261), packets (R29,
R262), launch descriptors (R29, R39, R276, R286, R312) and kernels. `assembleFile` gives the images a loader stores.
-/
namespace Sys2Proof.Machine

/-! ## Declarations -/

/-- An operand of a directive: its key, if it has one, and its value. -/
abbrev DirArg := Option String × Val

inductive DataItem
  | label (s : String)
  | ints (bits : Nat) (vs : List Val)
  | floats (f : FFmt) (vs : List Val)
  | align (v : Val)
  | launch (name : String) (args : List DirArg)
deriving DecidableEq, Repr, Inhabited

inductive QueueItem
  | label (s : String)
  | packet (args : List DirArg)
  | align (v : Val)
deriving DecidableEq, Repr, Inhabited

/-- A role, with the first of its items and the first behind them. -/
structure RoleDecl where
  regs : Val
  prio : Val
  entry : Option String
  lo : Nat
  hi : Nat
deriving DecidableEq, Repr, Inhabited

/-- Block local memory reserved by `.local`, with the labels that stand before it. -/
structure LocalDecl where
  name : String
  bytes : Val
  labels : List String
deriving DecidableEq, Repr, Inhabited

structure KernelDecl where
  name : String
  locals : List LocalDecl
  roles : List RoleDecl
  entry : Option String
  items : List AsmItem
deriving DecidableEq, Repr, Inhabited

inductive Decl
  | equ (name : String) (v : Val)
  | signal (name : String) (addr v : Val)
  | launch (name : String) (args : List DirArg)
  | data (addr : Val) (items : List DataItem)
  | queue (args : List DirArg) (items : List QueueItem)
  | kernel (k : KernelDecl)
deriving DecidableEq, Repr, Inhabited

/-! ## Reading lines -/

/-- What is open while a file is read; items last first. A verbose clause that still wants words stands in `want`. -/
inductive AsmCtx
  | top
  | data (addr : Val) (items : List DataItem)
  | queue (args : List DirArg) (items : List QueueItem)
  | kernel (k : KernelDecl) (inRole : Bool) (labels : List String) (want : Option (Header × List Ins))
deriving DecidableEq, Repr, Inhabited

structure AsmState where
  decls : List Decl
  ctx : AsmCtx
deriving DecidableEq, Repr, Inhabited

/-- A value in a directive: a word is a symbol there, never a register. -/
def dirVal (ts : List Tok) : Except AsmError Val :=
  match ts with
  | [.word w] => .ok (.sym w)
  | ts => parseVal ts

def dirArg (ts : List Tok) : Except AsmError DirArg :=
  match ts with
  | .word k :: .p '=' :: rest => (dirVal rest).map (fun v => (some (lowerAscii k), v))
  | ts => (dirVal ts).map (fun v => (none, v))

def dirArgs (ts : List Tok) : Except AsmError (List DirArg) :=
  if ts.isEmpty then .ok [] else (splitCommas ts).mapM dirArg

/-- A flag list of a header key: `-`, or flags separated by commas. -/
def flagList (ts : List Tok) : Except AsmError (List Nat) :=
  if ts == [.p '-'] then .ok []
  else (splitCommas ts).mapM (fun x => match x with
    | [.word w] => match flagName w with
      | some n => .ok n
      | none => .error .badClause
    | _ => .error .badClause)

/-- A clause header (R34). -/
def parseHeader (ts : List Tok) : Except AsmError Header :=
  match keyPairs ts none with
  | .error e => .error e
  | .ok ps => match keysAre ["CLASS", "COUNT", "WAIT", "SETA", "SETB", "YIELD"] (ps.map (·.1)) with
    | .error e => .error e
    | .ok _ => match (ps.map (fun p => p.2) : List (List Tok)) with
      | [[.word c], [.num n], w, a, b, [.num y]] =>
        match clsNames.lookup c, numLit false n, flagList w, flagList a, flagList b, numLit false y with
        | some cls, .ok (.int _ _ n), .ok w, .ok a, .ok b, .ok (.int _ _ y) =>
          if 1 ≤ n && n ≤ 16 && a.length ≤ 1 && b.length ≤ 1 && y ≤ 1 && (a.isEmpty || a != b) then
            .ok { cls, count := n, wait := waitBits w, fa := a.head?, fb := b.head?, yield := y == 1 }
          else .error .badClause
        | _, _, _, _, _, _ => .error .badClause
      | _ => .error .badClause

/-- The labels that wait in a kernel become code labels. -/
def flushLabels (k : KernelDecl) (labels : List String) : KernelDecl :=
  { k with items := k.items ++ labels.map .label }

/-- One more item of a kernel's code, after the labels that wait. -/
def KernelDecl.add (k : KernelDecl) (labels : List String) (x : AsmItem) : KernelDecl :=
  { k with items := (flushLabels k labels).items ++ [x] }

/-- A label at the start of a line (R26). -/
def AsmState.label (s : AsmState) (l : String) : Except AsmError AsmState :=
  if !symbolOk l then .error .badSymbol
  else match s.ctx with
    | .top => .error .badNesting
    | .data a items => .ok { s with ctx := .data a (.label l :: items) }
    | .queue a items => .ok { s with ctx := .queue a (.label l :: items) }
    | .kernel k r ls none => .ok { s with ctx := .kernel k r (ls ++ [l]) none }
    | .kernel _ _ _ (some _) => .error .badClause

/-- A directive that stands anywhere but inside a kernel's verbose clause, or one of the open kind (R27). -/
def AsmState.directive (s : AsmState) (d : String) (ts : List Tok) : Except AsmError AsmState :=
  match dirArgs ts with
  | .error e => if d == ".clause" then .error .badNesting else .error e
  | .ok args =>
    let named : Option String := match args with
      | (none, .sym n) :: _ => some n
      | _ => none
    match s.ctx, d, args with
    | _, ".equ", [(none, .sym n), (none, v)] => .ok { s with decls := s.decls ++ [.equ n v] }
    | _, ".signal", [(none, .sym n), (none, a), (none, v)] => .ok { s with decls := s.decls ++ [.signal n a v] }
    | .top, ".kernel", [(none, .sym n)] => .ok { s with ctx := .kernel ⟨n, [], [], none, []⟩ false [] none }
    | .top, ".data", [(none, a)] => .ok { s with ctx := .data a [] }
    | .top, ".queue", _ :: rest =>
      if named.isSome then .ok { s with ctx := .queue rest [] } else .error .badQueue
    | .top, ".launch", _ :: rest => match named with
      | some n => .ok { s with decls := s.decls ++ [.launch n rest] }
      | none => .error .badLaunch
    | .data a items, ".launch", _ :: rest => match named with
      | some n => .ok { s with ctx := .data a (.launch n rest :: items) }
      | none => .error .badLaunch
    | .data a items, ".align", [(none, v)] => .ok { s with ctx := .data a (.align v :: items) }
    | .queue q items, ".align", [(none, v)] => .ok { s with ctx := .queue q (.align v :: items) }
    | .queue q items, ".packet", _ => .ok { s with ctx := .queue q (.packet args :: items) }
    | .data a items, ".end", [] => .ok { decls := s.decls ++ [.data a items.reverse], ctx := .top }
    | .queue q items, ".end", [] => .ok { decls := s.decls ++ [.queue q items.reverse], ctx := .top }
    | .data a items, d, args =>
      if args.any (fun x => x.1.isSome) then .error .badKey
      else
        let vs := args.map (·.2)
        match [(".b8", 8), (".b16", 16), (".b32", 32), (".b64", 64)].lookup d with
        | some b => .ok { s with ctx := .data a (.ints b vs :: items) }
        | none =>
          if d == ".f16" then .ok { s with ctx := .data a (.floats fmt16 vs :: items) }
          else if d == ".f32" then .ok { s with ctx := .data a (.floats fmt32 vs :: items) }
          else .error .unknownDirective
    | .kernel k r ls none, ".entry", [(none, .sym l)] =>
      if r then match k.roles.getLast? with
        | some x => if x.entry.isSome then .error .badNesting
          else .ok { s with ctx := .kernel { k with roles := k.roles.dropLast ++ [{ x with entry := some l }] } r ls none }
        | none => .error .badNesting
      else if k.entry.isSome then .error .badNesting else .ok { s with ctx := .kernel { k with entry := some l } r ls none }
    | .kernel k r ls none, ".local", [(none, .sym n), (none, b)] =>
      .ok { s with ctx := .kernel { k with locals := k.locals ++ [⟨n, b, ls⟩] } r [] none }
    | .kernel k false ls none, ".role", _ :: rest =>
      let k := flushLabels k ls
      let regs := (rest.find? (fun x => x.1 == some "regs")).map (·.2)
      let prio := (rest.find? (fun x => x.1 == some "prio")).map (·.2)
      if named.isNone || hasTwice (rest.filterMap (·.1)) ||
          rest.any (fun x => x.1 != some "regs" && x.1 != some "prio") then .error .badKey
      else match regs with
        | none => .error .missingKey
        | some v =>
          let k := k.add [] (.brk false)
          let role : RoleDecl := ⟨v, prio.getD (.lit (.int true false 0)), none, k.items.length, k.items.length⟩
          .ok { s with ctx := .kernel { k with roles := k.roles ++ [role] } true [] none }
    | .kernel k r ls none, ".break", [] => .ok { s with ctx := .kernel (k.add ls (.brk false)) r [] none }
    | .kernel k r ls none, ".break", [(none, .sym y)] =>
      if lowerAscii y == "yield" then .ok { s with ctx := .kernel (k.add ls (.brk true)) r [] none }
      else .error .badOperand
    | .kernel k true ls none, ".end", [] =>
      let k := k.add ls (.brk false)
      .ok { s with ctx := .kernel { k with roles := k.roles.dropLast ++ (k.roles.getLast?.map (fun (x : RoleDecl) =>
        { x with hi := k.items.length })).toList } false [] none }
    | .kernel k false ls none, ".end", [] => .ok { decls := s.decls ++ [.kernel (flushLabels k ls)], ctx := .top }
    | _, d, _ =>
      if [".kernel", ".role", ".entry", ".data", ".local", ".align", ".b8", ".b16", ".b32", ".b64", ".f16", ".f32", ".equ",
          ".queue", ".packet", ".signal", ".launch", ".clause", ".break", ".end"].contains d then .error .badNesting
      else .error .unknownDirective

/-- What stands on a line after its label. -/
def AsmState.content (s : AsmState) (ts : List Tok) : Except AsmError AsmState :=
  match s.ctx, ts with
  | _, [] => .ok s
  | .kernel k r ls (some (h, ws)), ts =>
    -- the words of a verbose clause (R34)
    match ts with
    | .word d :: _ =>
      if d.toList.head? == some '.' then .error .badClause
      else match parseVerbose ts with
        | .error e => .error e
        | .ok i =>
          let ws := ws ++ [i]
          if ws.length == h.count then
            .ok { s with ctx := .kernel (k.add ls (.clause h ws)) r [] none }
          else .ok { s with ctx := .kernel k r ls (some (h, ws)) }
    | _ => .error .badClause
  | ctx, .word d :: rest =>
    if d.toList.head? == some '.' then
      match ctx with
      | .kernel k r ls none =>
        if lowerAscii d == ".clause" then
          (parseHeader rest).map (fun h => { s with ctx := .kernel k r ls (some (h, [])) })
        else s.directive (lowerAscii d) rest
      | _ => s.directive (lowerAscii d) rest
    else match ctx with
      | .kernel k r ls none => (parseCompactLine ts).map (fun i => { s with ctx := .kernel (k.add ls (.ins i)) r [] none })
      | _ => .error .badNesting
  | .kernel k r ls none, ts => (parseCompactLine ts).map (fun i => { s with ctx := .kernel (k.add ls (.ins i)) r [] none })
  | _, _ => .error .badToken

/-- One line (R22): a label, then an instruction or a directive. -/
def AsmState.line (s : AsmState) (l : List Char) : Except AsmError AsmState :=
  match lexLine l with
  | .error e => .error e
  | .ok (.word w :: .p ':' :: rest) =>
    (match s.label w with
    | .error e => .error e
    | .ok s => s.content rest)
  | .ok ts => s.content ts

/-- The declarations of a file. -/
def parseFile (src : List Char) : Except AsmError (List Decl) :=
  match (splitLines src).foldlM AsmState.line ⟨[], .top⟩ with
  | .error e => .error e
  | .ok s => if s.ctx == .top then .ok s.decls else .error .badNesting

/-! ## Symbols (R26) -/

abbrev SymTab := List (String × Int)

def SymTab.find (t : SymTab) (s : String) : Option Int := List.lookup s t

/-- A value with the symbols known so far. -/
def SymTab.val (t : SymTab) (v : Val) : Option Int :=
  match v with
  | .lit l => l.toInt?
  | .sym s => t.lookup s
  | _ => none

def SymTab.nat (t : SymTab) (v : Val) (d : Nat) : Nat := ((t.val v).map Int.toNat).getD d

/-- A value that must be known. -/
def SymTab.need (t : SymTab) (v : Val) : Except AsmError Int :=
  match t.val v, v with
  | some n, _ => .ok n
  | none, .sym _ => .error .undefinedSymbol
  | none, _ => .error .badLiteral

def SymTab.range (t : SymTab) (v : Val) (lo hi : Nat) (e : AsmError) : Except AsmError Nat :=
  match t.need v with
  | .error e => .error e
  | .ok n => if (lo : Int) ≤ n && n ≤ hi then .ok n.toNat else .error e

/-- Bytes to the next multiple of n. -/
def padding (pos n : Nat) : Nat := if n = 0 then 0 else (n - pos % n) % n

/-- The length of a data item that starts at an address. -/
def DataItem.size (t : SymTab) (pos : Nat) : DataItem → Nat
  | .label _ => 0
  | .ints b vs => b / 8 * vs.length
  | .floats f vs => f.width / 8 * vs.length
  | .align v => padding pos (t.nat v 0)
  | .launch _ _ => 256

/-- The symbols of a data image from an address on; a label before `.align` names the address before the padding (log 49). -/
def dataSyms (t : SymTab) : Nat → List DataItem → SymTab
  | _, [] => []
  | pos, x :: xs =>
    (match x with
    | .label s => [(s, (pos : Int))]
    | .launch n _ => [(n, (pos : Int))]
    | _ => []) ++ dataSyms t (pos + x.size t pos) xs

/-- The symbols of a queue image: a label names the address of the next slot. -/
def queueSyms (t : SymTab) : Nat → List QueueItem → SymTab
  | _, [] => []
  | pos, .label s :: xs => (s, (pos : Int)) :: queueSyms t pos xs
  | pos, .packet _ :: xs => queueSyms t (pos + 256) xs
  | pos, .align v :: xs => queueSyms t (pos + padding pos (max 256 (t.nat v 0))) xs

/-- Local memory: each area's offset, and the bytes used (R27). -/
def localOffsets (t : SymTab) : Nat → List LocalDecl → List (LocalDecl × Nat) × Nat
  | used, [] => ([], used)
  | used, l :: ls =>
    let off := used + padding used 16
    match localOffsets t (off + t.nat l.bytes 0) ls with
    | (r, n) => ((l, off) :: r, n)

def argOf (args : List DirArg) (key : String) : Option Val := (args.find? (fun x => x.1 == some key)).map (·.2)

/-- An item whose instructions are each changed. -/
def AsmItem.mapIns (f : Ins → Ins) : AsmItem → AsmItem
  | .ins i => .ins (f i)
  | .clause h ws => .clause h (ws.map f)
  | x => x

/-- A kernel's items with the values of their symbols, each instruction with the allotment it runs under (R221, R247): that of
its role, or of the larger role where it stands in neither (log 50). -/
def KernelDecl.resolved (k : KernelDecl) (t : SymTab) : List AsmItem :=
  let items := k.items.map (AsmItem.mapIns (Ins.resolve t.find))
  let capOf (j : Nat) : Nat :=
    if k.roles.isEmpty then allotOf items
    else match k.roles.find? (fun r => r.lo ≤ j && j < r.hi) with
      | some r => t.nat r.regs 0
      | none => (k.roles.map (fun r => t.nat r.regs 0)).foldl max 8
  items.zipIdx.map (fun x => x.1.mapIns (fun i => { i with cap := capOf x.2 }))

/-- A kernel's clauses. -/
def KernelDecl.clauses (k : KernelDecl) (t : SymTab) : Except AsmError (List AsmClause) :=
  formClauses (k.resolved t) [] ⟨[], []⟩ 0

/-- The symbols that declarations define, with the values that a table of symbols gives them. `codeAt n` is where the loader
places the n-th kernel. -/
def declSyms (codeAt : Nat → Nat) (t : SymTab) : Nat → List Decl → SymTab
  | _, [] => []
  | n, d :: ds =>
    match d with
    | .equ s v => (match t.val v with
      | some x => [(s, x)]
      | none => []) ++ declSyms codeAt t n ds
    | .signal s a _ => (match t.val a with
      | some x => [(s, x)]
      | none => []) ++ declSyms codeAt t n ds
    | .launch _ _ => declSyms codeAt t n ds
    | .data a items => (match t.val a with
      | some x => dataSyms t x.toNat items
      | none => []) ++ declSyms codeAt t n ds
    | .queue args items => (match (argOf args "base").bind t.val with
      | some x => queueSyms t x.toNat items
      | none => []) ++ declSyms codeAt t n ds
    | .kernel k =>
      let ls := (localOffsets t 0 k.locals).1
      let code : SymTab := match k.clauses t with
        | .ok cs => (labelIndexes cs).map (fun x => (x.1, ((codeAt n + 64 + 8 * x.2 : Nat) : Int)))
        | .error _ => []
      ls.map (fun x => (x.1.name, (x.2 : Int))) ++ ls.flatMap (fun x => x.1.labels.map (fun s => (s, (x.2 : Int)))) ++ code ++
        declSyms codeAt t (n + 1) ds

/-- Every name that a file defines as a symbol. -/
def symNames (ds : List Decl) : List String :=
  ds.flatMap fun d => match d with
    | .equ s _ => [s]
    | .signal s _ _ => [s]
    | .launch _ _ => []
    | .data _ items => items.filterMap (fun x => match x with
      | .label s => some s
      | .launch n _ => some n
      | _ => none)
    | .queue _ items => items.filterMap (fun x => match x with
      | .label s => some s
      | _ => none)
    | .kernel k => k.locals.flatMap (fun l => l.name :: l.labels) ++ k.items.filterMap (fun x => match x with
      | .label s => some s
      | _ => none)

/-- The table of symbols: as many rounds as there are names, since a symbol may be used before its definition. -/
def symRounds (codeAt : Nat → Nat) (ds : List Decl) : Nat → SymTab → SymTab
  | 0, t => t
  | n + 1, t =>
    let next := declSyms codeAt t 0 ds
    if next == t then t else symRounds codeAt ds n next

/-! ## Kernels -/

/-- An assembled kernel. -/
structure AsmKernel where
  name : String
  base : Nat
  words : List W64
  headers : List Nat
  roles : Bool
  /-- For each role (one without roles): entry clause, allotment, priority. -/
  parts : List (Nat × Nat × Nat)
  localBytes : Nat
deriving DecidableEq, Repr, Inhabited

def AsmKernel.image (k : AsmKernel) : List Byte := codeImage k.words k.headers

/-- A kernel's entry clause by its label. -/
def entryIndex (labels : List (String × Nat)) (entry : Option String) : Except AsmError Nat :=
  match entry with
  | none => .error .missingEntry
  | some l => match labels.lookup l with
    | some i => .ok i
    | none => .error .undefinedSymbol

def KernelDecl.assemble (k : KernelDecl) (t : SymTab) (base : Nat) : Except AsmError AsmKernel :=
  let allot := allotOf (k.items.map (AsmItem.mapIns (Ins.resolve t.find)))
  let locals := localOffsets t 0 k.locals
  if base % 256 != 0 then .error .badAlign
  else if k.roles.length != 0 && k.roles.length != 2 then .error .roleCount
  else if !k.roles.isEmpty && k.entry.isSome then .error .badNesting
  else if k.locals.any (fun l => match t.need l.bytes with
      | .ok n => n < 0
      | .error _ => true) then .error .badLiteral
  else if localBytes < locals.2 + padding locals.2 16 then .error .localTooLarge
  else match k.clauses t with
    | .error e => .error e
    | .ok cs => match clauseHeaders cs with
      | .error e => .error e
      | .ok hs => match kernelWords t.find cs hs with
        | .error e => .error e
        | .ok ws =>
          let labels := labelIndexes cs
          let parts : Except AsmError (List (Nat × Nat × Nat)) :=
            if k.roles.isEmpty then (entryIndex labels k.entry).map (fun e => [(e, allot, 0)])
            else k.roles.mapM (fun r => match entryIndex labels r.entry, t.range r.regs 8 256 .outOfRange, t.range r.prio 0 3 .outOfRange with
              | .ok e, .ok n, .ok p => if n % 8 == 0 then .ok (e, n, p) else .error .outOfRange
              | .error e, _, _ => .error e
              | _, .error e, _ => .error e
              | _, _, .error e => .error e)
          match parts with
          | .error e => .error e
          | .ok ps =>
            if ws.isEmpty || 2 ^ 24 < ws.length then .error .outOfRange
            else .ok { name := k.name, base, words := ws, headers := headerIndexes cs 0, roles := !k.roles.isEmpty, parts := ps,
                       localBytes := locals.2 + padding locals.2 16 }

/-! ## Launch descriptors (R29, R276, R312) -/

def launchKeys : List String :=
  ["kernel", "grid", "cluster", "lanes", "measure", "det", "fabx", "quantum", "args", "gangs", "live", "lastlive", "gangs0",
    "live0", "lastlive0", "gangs1", "live1", "lastlive1"]

/-- A key's value in its range, or the value `ghas` writes where it is omitted. -/
def keyRange (t : SymTab) (args : List DirArg) (key : String) (lo hi : Nat) (d : Nat) (e : AsmError) : Except AsmError Nat :=
  match argOf args key with
  | some v => t.range v lo hi e
  | none => .ok d

/-- A role's sixteen bytes: entry, gangs, live, last live, allotment, priority. -/
def roleBytes (p : Nat × Nat × Nat) (gangs live last : Nat) : List Byte :=
  wordBytes 4 p.1 ++ [BitVec.ofNat 8 gangs, BitVec.ofNat 8 live, BitVec.ofNat 8 last, BitVec.ofNat 8 (p.2.1 / 8),
    BitVec.ofNat 8 p.2.2] ++ List.replicate 7 0

/-- One role's shape from its keys: gangs, live, last live. -/
def roleShape (t : SymTab) (args : List DirArg) (sfx : String) (measure : Nat) : Except AsmError (Nat × Nat × Nat) :=
  match argOf args ("gangs" ++ sfx) with
  | none => .error .badLaunch
  | some v => match t.range v 1 (1024 / measure) .badLaunch, keyRange t args ("live" ++ sfx) 1 measure measure .badLaunch with
    | .ok g, .ok l => (keyRange t args ("lastlive" ++ sfx) 1 measure l .badLaunch).map (fun k => (g, l, k))
    | .error e, _ => .error e
    | _, .error e => .error e

/-- A launch descriptor's 256 bytes. LIVE of a launch of one gang is the remainder; `live=` and `lastlive=` without `gangs=` are held to
their limits and say nothing (R312); `fabx=1` without `det=1`, and two roles whose gangs pass 1,024 lanes, are refused here, which the
spec leaves open (log 49). -/
def launchBytes (t : SymTab) (ks : List AsmKernel) (args : List DirArg) : Except AsmError (List Byte) :=
  let keys := args.filterMap (·.1)
  let has (l : List String) : Bool := l.any keys.contains
  if keys.length != args.length || hasTwice keys || !keys.all launchKeys.contains then .error .badLaunch
  else match argOf args "kernel" with
    | some (.sym name) => match ks.find? (fun k => k.name == name) with
      | none => .error .badLaunch
      | some k =>
        match keyRange t args "grid" 1 (2 ^ 32 - 1) 1 .badLaunch, keyRange t args "cluster" 1 4 1 .badLaunch,
            keyRange t args "measure" 32 128 32 .badLaunch, keyRange t args "det" 0 1 0 .badLaunch,
            keyRange t args "fabx" 0 1 0 .badLaunch, keyRange t args "quantum" 50 10000 1000 .badLaunch,
            keyRange t args "args" 0 (2 ^ 64 - 1) 0 .badLaunch with
        | .ok grid, .ok cluster, .ok measure, .ok det, .ok fabx, .ok quantum, .ok argp =>
          if !([32, 64, 128].contains measure) || (fabx == 1 && det == 0) then .error .badLaunch
          else
            let shapes : Except AsmError (List (Nat × Nat × Nat)) :=
              if k.roles then
                if has ["lanes", "gangs", "live", "lastlive"] then .error .badLaunch
                else match roleShape t args "0" measure, roleShape t args "1" measure with
                  | .ok a, .ok b => if 1024 < (a.1 + b.1) * measure then .error .badLaunch else .ok [a, b]
                  | .error e, _ => .error e
                  | _, .error e => .error e
              else if has ["gangs0", "live0", "lastlive0", "gangs1", "live1", "lastlive1"] then .error .badLaunch
              else if has ["gangs"] then
                if has ["lanes"] then .error .badLaunch else (roleShape t args "" measure).map (fun a => [a])
              else match keyRange t args "live" 1 measure measure .badLaunch,
                  keyRange t args "lastlive" 1 measure measure .badLaunch with
                | .ok _, .ok _ => (keyRange t args "lanes" 1 1024 measure .badLaunch).map (fun n =>
                  let gangs := (n + measure - 1) / measure
                  let last := n - (gangs - 1) * measure
                  [(gangs, if gangs == 1 then last else measure, last)])
                | .error e, _ | _, .error e => .error e
            match shapes with
            | .error e => .error e
            | .ok sh =>
              let roles := (k.parts.zip sh).flatMap (fun x => roleBytes x.1 x.2.1 x.2.2.1 x.2.2.2)
              .ok (wordBytes 8 k.base ++ wordBytes 8 argp ++ List.replicate 16 0 ++ wordBytes 4 grid ++
                [BitVec.ofNat 8 measure, BitVec.ofNat 8 cluster, BitVec.ofNat 8 (det + 2 * fabx + if k.roles then 8 else 0), 0] ++
                wordBytes 4 quantum ++ wordBytes 4 k.localBytes ++ List.replicate 8 0 ++ roles ++
                List.replicate (32 - roles.length) 0 ++ List.replicate 88 0xFF ++ List.replicate 80 0)
        | .error e, _, _, _, _, _, _ => .error e
        | _, .error e, _, _, _, _, _ => .error e
        | _, _, .error e, _, _, _, _ => .error e
        | _, _, _, .error e, _, _, _ => .error e
        | _, _, _, _, .error e, _, _ => .error e
        | _, _, _, _, _, .error e, _ => .error e
        | _, _, _, _, _, _, .error e => .error e
    | _ => .error .badLaunch

/-! ## Images (R28) -/

structure AsmImage where
  base : Nat
  bytes : List Byte
deriving DecidableEq, Repr, Inhabited

/-- A float of a data directive: every literal by its value; a symbol `inf` or `nan` is the literal. -/
def floatVal (t : SymTab) (f : FFmt) (v : Val) : Except AsmError Nat :=
  let l : Option Lit := match v with
    | .lit (.int _ neg n) => some (.int true neg n)
    | .lit l => some l
    | .sym "inf" => some (.inf false)
    | .sym "nan" => some .nan
    | .sym s => (t.lookup s).map (fun n => .int true (n < 0) n.natAbs)
    | _ => none
  match l.bind (Lit.floatBits f) with
  | some n => if n < 2 ^ f.width then .ok n else .error .outOfRange
  | none => .error .badLiteral

/-- The bytes of a data item at an address. -/
def DataItem.bytes (t : SymTab) (ks : List AsmKernel) (pos : Nat) : DataItem → Except AsmError (List Byte)
  | .label _ => .ok []
  | .ints b vs => (vs.mapM (fun v => match t.need v with
      | .ok n => (fitBits b n).map (wordBytes (b / 8))
      | .error e => .error e)).map List.flatten
  | .floats f vs => (vs.mapM (fun v => (floatVal t f v).map (wordBytes (f.width / 8)))).map List.flatten
  | .align v => match t.range v 1 4096 .badAlign with
    | .ok n => if 2 ^ Nat.log2 n == n then .ok (List.replicate (padding pos n) 0) else .error .badAlign
    | .error e => .error e
  | .launch _ args => if pos % 64 != 0 then .error .badAlign else launchBytes t ks args

def dataBytes (t : SymTab) (ks : List AsmKernel) : Nat → List DataItem → Except AsmError (List Byte)
  | _, [] => .ok []
  | pos, x :: xs => match x.bytes t ks pos with
    | .error e => .error e
    | .ok b => (dataBytes t ks (pos + b.length) xs).map (b ++ ·)

/-- The type-specific keys of a packet: byte offset, size and key (R262). -/
def packetKeys : String → Option (Nat × List (Nat × Nat × String))
  | "LAUNCH" => some (1, [(8, 8, "desc"), (16, 8, "events"), (24, 8, "after")])
  | "BARRIER" => some (2, (List.range 6).map (fun k => (8 + 8 * k, 8, "dep" ++ toString k)))
  | "SIGNAL" => some (3, [(8, 8, "target"), (16, 8, "value"), (24, 1, "op")])
  | "COPY" => some (4, [(8, 8, "dst"), (16, 8, "src"), (24, 8, "bytes")])
  | "WAIT" => some (5, [(8, 8, "target"), (16, 8, "value")])
  | "RESUME" => some (6, [])
  | "NOP" => some (7, [])
  | _ => none

/-- A packet's 256 bytes (R29, R262): fields of the body, then the trailer. -/
def packetBytes (t : SymTab) (args : List DirArg) : Except AsmError (List Byte) :=
  let keys := args.filterMap (·.1)
  match argOf args "type" with
  | some (.sym ty) => match packetKeys (upperAscii ty) with
    | none => .error .badPacket
    | some (code, fields) =>
      let fields := (0, 8, "signal") :: fields
      let known := ["type", "ord", "fence", "barrier", "flags", "publish"] ++ fields.map (fun (f : Nat × Nat × String) => f.2.2)
      if keys.length != args.length || hasTwice keys || !keys.all known.contains then .error .badPacket
      else match keyRange t args "ord" 0 7 0 .badPacket, keyRange t args "fence" 0 15 0 .badPacket,
          keyRange t args "barrier" 0 1 0 .badPacket, keyRange t args "flags" 0 1 0 .badPacket,
          keyRange t args "publish" 0 1 1 .badPacket with
        | .ok ord, .ok fence, .ok bar, .ok flags, .ok pub =>
          let body : Except AsmError (List (List Byte)) := fields.mapM (fun (f : Nat × Nat × String) => match argOf args f.2.2 with
            | none => .ok (List.replicate f.2.1 (0 : Byte))
            | some v => match t.need v with
              | .ok n => (fitBits (8 * f.2.1) n).map (wordBytes f.2.1)
              | .error e => .error e)
          body.map (fun b =>
            let b := b.flatten
            b ++ List.replicate (252 - b.length) 0 ++
              wordBytes 4 (pub * 2 ^ 24 + code * 2 ^ 16 + ord * 2 ^ 13 + fence * 2 ^ 9 + bar * 2 ^ 8 + flags))
        | .error e, _, _, _, _ => .error e
        | _, .error e, _, _, _ => .error e
        | _, _, .error e, _, _ => .error e
        | _, _, _, .error e, _ => .error e
        | _, _, _, _, .error e => .error e
  | _ => .error .badPacket

/-- The slots of a queue that its items fill. -/
def queueBytes (t : SymTab) : Nat → List QueueItem → Except AsmError (List Byte)
  | _, [] => .ok []
  | pos, .label _ :: xs => queueBytes t pos xs
  | pos, .packet args :: xs => match packetBytes t args with
    | .error e => .error e
    | .ok b => (queueBytes t (pos + 256) xs).map (b ++ ·)
  | pos, .align v :: xs => match t.range v 1 4096 .badAlign with
    | .error e => .error e
    | .ok n =>
      if 2 ^ Nat.log2 n != n then .error .badAlign
      else (queueBytes t (pos + padding pos (max 256 n)) xs).map (List.replicate (padding pos (max 256 n)) 0 ++ ·)

/-- A queue's QCB (R261) and its ring. -/
def queueImages (t : SymTab) (args : List DirArg) (items : List QueueItem) : Except AsmError (List AsmImage) :=
  let keys := args.filterMap (·.1)
  if keys.length != args.length || hasTwice keys || !keys.all ["base", "slots", "prio"].contains then .error .badQueue
  else match argOf args "base", argOf args "slots", argOf args "prio" with
    | some b, some n, some p =>
      match t.range b 256 (2 ^ 64 - 1) .badQueue, t.range n 16 65536 .badQueue, t.range p 0 15 .badQueue with
      | .ok b, .ok n, .ok p =>
        if b % 256 != 0 || 2 ^ Nat.log2 n != n then .error .badQueue
        else match queueBytes t b items with
          | .error e => .error e
          | .ok ring =>
            if 256 * n < ring.length then .error .badQueue
            else .ok [⟨b - 128, wordBytes 8 b ++ List.replicate 16 0 ++ wordBytes 4 (Nat.log2 n + 256 * p) ++ List.replicate 100 0⟩,
              ⟨b, ring ++ List.replicate (256 * n - ring.length) 0⟩]
      | .error e, _, _ => .error e
      | _, .error e, _ => .error e
      | _, _, .error e => .error e
    | _, _, _ => .error .badQueue

/-- Do two images share a byte? -/
def AsmImage.meets (a b : AsmImage) : Bool :=
  !a.bytes.isEmpty && !b.bytes.isEmpty && a.base < b.base + b.bytes.length && b.base < a.base + a.bytes.length

def anyOverlap : List AsmImage → Bool
  | [] => false
  | x :: xs => xs.any x.meets || anyOverlap xs

/-- What a file assembles to: images at their addresses, kernels where the loader places them, and the descriptors of
launches that stand outside any image (R286). -/
structure AsmOutput where
  images : List AsmImage
  kernels : List AsmKernel
  launches : List (String × List Byte)
  symbols : SymTab
deriving DecidableEq, Repr, Inhabited

def kernelsOf (codeAt : Nat → Nat) (t : SymTab) : Nat → List Decl → Except AsmError (List AsmKernel)
  | _, [] => .ok []
  | n, .kernel k :: ds => match k.assemble t (codeAt n), kernelsOf codeAt t (n + 1) ds with
    | .ok x, .ok l => .ok (x :: l)
    | .error e, _ => .error e
    | _, .error e => .error e
  | n, _ :: ds => kernelsOf codeAt t n ds

/-- The images of a declaration (R27 to R29, R40). A `.signal` value from 2^63 to 2^64 − 1 is taken as the same 64 bits, which the spec
leaves open (log 49). -/
def declImages (t : SymTab) (ks : List AsmKernel) : Decl → Except AsmError (List AsmImage)
  | .data a items => match t.range a 0 (2 ^ 64 - 1) .outOfRange with
    | .ok b => (dataBytes t ks b items).map (fun l => [⟨b, l⟩])
    | .error e => .error e
  | .signal _ a v => match t.range a 0 (2 ^ 64 - 1) .outOfRange, t.need v with
    | .ok b, .ok n => if b % 8 != 0 then .error .badAlign else (fitBits 64 n).map (fun x => [⟨b, wordBytes 8 x⟩])
    | .error e, _ => .error e
    | _, .error e => .error e
  | .queue args items => queueImages t args items
  | _ => .ok []

/-- `ghas` on a whole file; `codeAt n` is the address the loader gives the n-th kernel's image. -/
def assembleFile (codeAt : Nat → Nat) (src : List Char) : Except AsmError AsmOutput :=
  match parseFile src with
  | .error e => .error e
  | .ok ds =>
    let names := symNames ds
    let kernelNames := ds.filterMap (fun d => match d with
      | .kernel k => some k.name
      | _ => none)
    if hasTwice names || hasTwice kernelNames then .error .duplicateSymbol
    else if !names.all symbolOk then .error .badSymbol
    else
      let t := symRounds codeAt ds (names.length + 2) []
      if names.any (fun n => (t.lookup n).isNone) && ds.all (fun d => match d with
          | .kernel k => match k.clauses t with
            | .ok _ => true
            | .error _ => false
          | _ => true) then .error .undefinedSymbol
      else match kernelsOf codeAt t 0 ds with
        | .error e => .error e
        | .ok ks => match ds.mapM (declImages t ks), (ds.filterMap (fun d => match d with
              | .launch n args => some (n, args)
              | _ => none)).mapM (fun x => (launchBytes t ks x.2).map (fun b => (x.1, b))) with
          | .ok im, .ok ls =>
            if anyOverlap im.flatten then .error .badOverlap
            else .ok { images := im.flatten, kernels := ks, launches := ls, symbols := t }
          | .error e, _ => .error e
          | _, .error e => .error e

/-- `ghas` on the bytes of a source file, which are UTF-8 (R22). -/
def assembleSource (codeAt : Nat → Nat) (bytes : List Byte) : Except AsmError AsmOutput :=
  match decodeUtf8 bytes with
  | some src => assembleFile codeAt src
  | none => .error .badToken

end Sys2Proof.Machine
end

