-- ==== Sys2Proof/Tests/Slice0.lean ====
section
/-!
SUPPORT. The package's own tests: ill-formed terms that the check refuses, words written out from the spec's encodings and what they
decode to, the spec's worked results, and for every statement of Certificates/Slice0/Obligations.lean a state and operands that meet
its hypotheses. Every expected value comes from spec/, by hand or from the worked example that the test names.
-/
namespace Sys2Proof.Tests

set_option Elab.async false

open Sys2Proof Sys2Proof.Machine

/-! ## Small machines -/

def reads (c : Cls) (w : W64) : Option Instr :=
  match decodeWord c w with
  | .ok i => some i
  | .error _ => none

def rejects (c : Cls) (w : W64) (e : Reject) : Bool :=
  match decodeWord c w with
  | .ok _ => false
  | .error x => x == e

/-- A machine that holds one group in a clause of a class, the word w next and current. -/
def stand (k : Cls) (w : W64) : State := { State.reset.withWord { plainHeader with cls := k } w with cur := some (wordUid, 0) }

def s0 : State := stand .press 0

def here (s : State) : Ctx := s.ctx?.getD default

def gangOf (s : State) : Gang := (s.gang? wordUid).getD default

/-- The state with its gang changed, in a clock of its own (R105). -/
def edit (s : State) (f : Gang → Gang) : State := s.updGang wordUid (fun g => { f g with fresh := [] })

def editGroup (s : State) (f : Group → Group) : State := edit s (fun g => { g with groups := g.groups.map f })

def editRun (s : State) (f : Run → Run) : State := editGroup s (fun r => { r with run := r.run.map f })

/-- The collective wait of its word is over. -/
def sC : State := editRun s0 (fun u => { u with collected := true })

/-- Word 0, which comes next, is skipped in some lanes. -/
def sSkip : State := editRun s0 (fun u => { u with skips := [(0, 0xFF, false)] })

def nextOf (a : Answer) : Option State :=
  match a with
  | .next t => some t
  | _ => none

def isNext (a : Answer) : Bool := (nextOf a).isSome

/-- What a scalar, a vector element or a mask of the gang holds after an answer. -/
def sAfter (a : Answer) (n : Nat) : Option Nat := (nextOf a).map (fun t => ((gangOf t).rawS n).toNat)
def vAfter (a : Answer) (n k : Nat) : Option Nat := (nextOf a).map (fun t => ((gangOf t).rawV n k).toNat)
def mAfter (a : Answer) (n : Nat) : Option Nat := (nextOf a).map (fun t => ((gangOf t).rawM n).toNat)

def issuesB (s : State) (coll mask : Bool) : Bool :=
  s.ctx?.isSome && (here s).skipped mask == false && (!coll || (here s).run.collected)

theorem issues_of (s : State) (coll mask : Bool) (h : issuesB s coll mask = true) : Issues s (here s) coll mask := by
  simp only [issuesB, Bool.and_eq_true, beq_iff_eq, Bool.or_eq_true, Bool.not_eq_true'] at h
  refine ⟨?_, h.1.2, fun hc => ?_⟩
  · unfold here
    cases hx : s.ctx? with
    | none => simp [hx] at h
    | some c => rfl
  · rcases h.2 with h2 | h2
    · simp [hc] at h2
    · exact h2

theorem next_of (a : Answer) (h : isNext a = true) : ∃ t, a = .next t := by
  cases a with
  | next t => exact ⟨t, rfl⟩
  | fault f => simp [isNext, nextOf] at h
  | refused r => simp [isNext, nextOf] at h

/-! ## Ill-formed terms, one for each check (R66 to R79 and the operand tables) -/

theorem test_ill_formed_scalar :
    [Instr.sadd ⟨.s 4, .s 6, .s 8, .v 0, .f32, 0⟩, Instr.sadd ⟨.v 1, .s 6, .s 8, .v 0, .i32, 0⟩,
      Instr.sadd ⟨.s 5, .s 6, .s 8, .v 0, .i64, 0⟩, Instr.sadd ⟨.s 4, .em, .s 8, .v 0, .i32, 0⟩,
      Instr.sadd ⟨.s 4, .s 6, .v 1, .v 0, .i32, 0⟩, Instr.sadd ⟨.s 4, .s 6, .s 8, .s 1, .i32, 0⟩,
      Instr.sadd ⟨.s 4, .s 6, .s 8, .v 0, .i32, 1⟩, Instr.smulh ⟨.s 4, .s 6, .s 8, .v 0, .b32, 0⟩,
      Instr.smovi ⟨.s 4, .em, true, .i32, 0⟩, Instr.smovi ⟨.s 4, .em, false, .i16, 0⟩, Instr.sshl ⟨.s 4, .s 6, .s 8, .v 0, .f16, 0⟩,
      Instr.scmp ⟨.s 4, .s 6, .s 8, .v 0, .b32, 2⟩, Instr.scmp ⟨.s 4, .s 6, .s 8, .v 0, .i32, 6⟩,
      Instr.ssel ⟨.s 4, .s 6, .s 8, .v 1, .i32, 0⟩, Instr.sclz ⟨.s 4, .s 6, .s 1, .v 0, .i32, 0⟩].all (fun i => !i.wf) = true := by decide

theorem test_ill_formed_control :
    [Instr.bra ⟨.s 1, .em, .z, 0⟩, Instr.bra ⟨.v 0, .em, .nz, 0⟩, Instr.bru ⟨.em, .em, .z, 0⟩, Instr.bru ⟨.s 1, .m 1, .z, 0⟩,
      Instr.brv ⟨.s 1, .em, .z, 0⟩, Instr.skip ⟨.m 1, false, 1⟩, Instr.skip ⟨.imm 1, false, 65537⟩, Instr.skip ⟨.v 0, false, 131072⟩,
      Instr.call ⟨.s 5, 0⟩, Instr.ret ⟨.s 5, .em, .z, 0⟩, Instr.ret ⟨.s 4, .em, .z, 1⟩, Instr.join ⟨.s 1, .em, .z, 0⟩,
      Instr.gangAll ⟨.v 0, false, 0⟩, Instr.exit ⟨.v 0, false, 1⟩, Instr.trap ⟨.v 0, false, 65536⟩, Instr.yield ⟨.em, .em, .z, 0⟩].all (fun i => !i.wf) = true := by decide

theorem test_ill_formed_mask_words :
    [Instr.mand ⟨.s 1, .m 1, .m 2, .v 0, .b8, 0⟩, Instr.mand ⟨.m 1, .v 1, .m 2, .v 0, .b8, 0⟩,
      Instr.mand ⟨.m 1, .m 1, .imm 1, .v 0, .b8, 0⟩, Instr.mand ⟨.m 1, .m 1, .m 2, .v 0, .b32, 0⟩,
      Instr.mnot ⟨.m 1, .m 1, .m 2, .v 0, .b8, 0⟩, Instr.mpopc ⟨.m 1, .m 2, .v 0, .v 0, .b8, 0⟩,
      Instr.measure ⟨.s 1, .s 2, .v 0, .v 0, .b8, 0⟩, Instr.srd ⟨.s 5, .sr .cycles, .v 0, .v 0, .b8, 0⟩,
      Instr.srd ⟨.s 4, .sr .laneid, .v 0, .v 0, .b8, 0⟩, Instr.srd ⟨.s 4, .s 1, .v 0, .v 0, .b8, 0⟩,
      Instr.swr ⟨.s 1, .s 2, .v 0, .v 0, .b8, 0⟩].all (fun i => !i.wf) = true := by decide

theorem test_ill_formed_vector :
    [Instr.vadd ⟨.v 4, .v 6, .v 8, .f32, false, .em, false⟩, Instr.vadd ⟨.v 4, .v 6, .v 8, .b32, true, .em, false⟩,
      Instr.vadd ⟨.s 1, .v 6, .v 8, .i32, false, .em, false⟩, Instr.vadd ⟨.v 4, .em, .v 8, .i32, false, .em, false⟩,
      Instr.vadd ⟨.v 4, .v 6, .m 1, .i32, false, .em, false⟩, Instr.vadd ⟨.v 4, .v 5, .v 8, .i64, false, .em, false⟩,
      Instr.vmulh ⟨.v 4, .v 6, .v 8, .i32, true, .em, false⟩,
      Instr.vmad ⟨.v 4, .v 6, .v 8, .v 1, .i32, .rup, false, .em, false, false⟩,
      Instr.vmad ⟨.v 4, .v 6, .v 8, .em, .i32, .rne, false, .em, false, false⟩,
      Instr.vabs ⟨.v 4, .v 6, .v 0, .n32, false, .em, false⟩, Instr.vabs ⟨.v 4, .v 6, .v 8, .i32, false, .em, false⟩,
      Instr.vsel ⟨.v 4, .v 6, .v 8, .imm 1, .i32, .rne, false, .em, false, false⟩,
      Instr.vcmp ⟨.s 1, .v 6, .v 8, 0, .i32, false, .em, false⟩, Instr.vcmp ⟨.m 1, .v 6, .v 8, 0, .i32, true, .em, false⟩,
      Instr.vmovi ⟨.v 4, .em, false, .b8, 0⟩, Instr.vmovi ⟨.v 4, .em, false, .i16, 65536⟩].all (fun i => !i.wf) = true := by decide

theorem test_ill_formed_packed :
    [Instr.vadd2 ⟨.v 4, .v 6, .v 8, .i8, false, .em, false⟩,
      Instr.vmac2 ⟨.v 4, .v 6, .v 8, .v 1, .i16, .rtz, false, .em, false, false⟩,
      Instr.vmac2 ⟨.v 4, .imm 1, .v 8, .v 1, .i16, .rne, false, .em, false, false⟩,
      Instr.vqadd ⟨.v 4, .v 6, .v 8, .i64, false, .em, false⟩, Instr.vqadd ⟨.v 4, .v 6, .v 8, .i8, true, .em, false⟩,
      Instr.vshrr ⟨.v 4, .v 6, .v 8, .i8, false, .em, false⟩, Instr.vshrr ⟨.v 4, .imm 1, .v 8, .i16, false, .em, false⟩,
      Instr.vpack ⟨.v 4, .v 6, .imm 1, .i16, false, .em, false⟩, Instr.vunpack ⟨.v 4, .v 6, .v 0, 2, .i16, false, .em, false⟩,
      Instr.vunpack ⟨.v 4, .v 6, .v 0, 0, .i16, true, .em, false⟩].all (fun i => !i.wf) = true := by decide

theorem test_ill_formed_float :
    [Instr.vfadd ⟨.v 4, .v 6, .v 8, .i32, .rne, false, .em, false, false⟩,
      Instr.vfmin ⟨.v 4, .v 6, .v 8, .f32, .rup, false, .em, false, false⟩,
      Instr.vfmin ⟨.v 4, .v 6, .v 8, .f32, .rne, true, .em, false, false⟩,
      Instr.vfrcp ⟨.v 4, .v 6, .v 8, .f32, .rne, false, .em, false, false⟩,
      Instr.vfexp2 ⟨.v 4, .v 6, .v 0, .f64, .rne, false, .em, false, false⟩,
      Instr.vfcmp ⟨.m 1, .v 6, .v 8, 8, .f32, false, .em, false⟩, Instr.vfclass ⟨.v 4, .v 6, .v 0, .f32, true, .em, false⟩].all (fun i => !i.wf) = true := by decide

theorem test_ill_formed_conversion :
    [Instr.vcvt ⟨.v 4, .v 6, .imm 0, .i8, .f32, .rne, false, .em, false⟩,
      Instr.vcvt ⟨.v 4, .v 6, .imm 0, .i8, .i32, .rup, false, .em, false⟩,
      Instr.vftoi ⟨.v 4, .v 6, .imm 0, .i8, .f32, .rne, true, .em, false⟩,
      Instr.vcvt ⟨.v 4, .v 6, .v 1, .i8, .i32, .rne, false, .em, false⟩,
      Instr.vcvt ⟨.v 4, .v 6, .imm 127, .i8, .i32, .rne, false, .em, false⟩,
      Instr.vcvt ⟨.v 4, .v 6, .imm 4, .i8, .i32, .rne, false, .em, false⟩,
      Instr.vcvt ⟨.v 4, .v 6, .imm 8, .i8, .i32, .rne, false, .em, false⟩].all (fun i => !i.wf) = true := by decide

theorem test_ill_formed_cross_lane :
    [Instr.vshfl ⟨.v 4, .v 6, .imm 1, .imm 0, .b32, 4, .em, false⟩, Instr.vshfl ⟨.v 4, .v 6, .imm 1, .imm 0, .b16, 0, .em, false⟩,
      Instr.vshfl ⟨.v 4, .v 6, .v 1, .imm 0, .b32, 1, .em, false⟩, Instr.vshfl ⟨.v 4, .s 1, .imm 1, .imm 0, .b32, 0, .em, false⟩,
      Instr.vslide ⟨.v 4, .v 6, .imm 1, .imm 0, .b32, 2, .em, false⟩, Instr.vslide ⟨.v 4, .v 6, .imm 1, .imm 0, .i8, 0, .em, false⟩,
      Instr.vbcast ⟨.v 4, .v 6, .imm 1, .imm 0, .b16, 0, .em, false⟩, Instr.vvote ⟨.s 1, .m 1, .v 0, 5, .b32, false, .em, false⟩,
      Instr.vvote ⟨.s 1, .m 1, .v 0, 1, .b64, false, .em, false⟩, Instr.vvote ⟨.m 1, .m 1, .v 0, 1, .b32, false, .em, false⟩,
      Instr.vvote ⟨.s 1, .m 1, .v 0, 3, .b32, false, .em, false⟩, Instr.vreduce ⟨.v 4, .v 6, .v 0, 6, .i32, false, .em, false⟩,
      Instr.vreduce ⟨.v 4, .v 6, .v 0, 0, .b32, false, .em, false⟩, Instr.vreduce ⟨.v 4, .v 6, .v 0, 3, .f32, false, .em, false⟩,
      Instr.vscan ⟨.v 4, .v 6, .v 0, 6, .i32, false, .em, false⟩, Instr.vscan ⟨.v 4, .v 6, .v 0, 16, .i32, false, .em, false⟩,
      Instr.vscan ⟨.s 1, .v 6, .v 0, 0, .i32, false, .em, false⟩].all (fun i => !i.wf) = true := by decide

theorem test_ill_formed_memory :
    [Instr.ld ⟨.v 4, 9, none, .b32, .em, false, 0⟩, Instr.ld ⟨.v 5, 8, none, .b64, .em, false, 0⟩,
      Instr.st ⟨.em, 8, none, .b32, .em, false, 0⟩, Instr.lds ⟨.s 4, 8, some 1, .b32, .em, false, 0⟩,
      Instr.lds ⟨.s 4, 8, none, .b32, .m 1, false, 0⟩, Instr.lds ⟨.s 4, 8, none, .b32, .em, true, 0⟩,
      Instr.prefetch ⟨.v 1, 8, none, .b8, .em, false, 0⟩, Instr.prefetch ⟨.v 0, 8, none, .b32, .em, false, 0⟩,
      Instr.atom ⟨.v 4, 8, none, .v 1, .i32, 7, .block, .em⟩, Instr.atom ⟨.v 4, 8, none, .v 1, .b32, 0, .block, .em⟩,
      Instr.atom ⟨.v 4, 8, none, .v 1, .i16, 0, .block, .em⟩, Instr.atom ⟨.s 1, 8, none, .v 1, .i32, 0, .block, .em⟩,
      Instr.atomf ⟨.v 4, 8, none, .v 1, .i32, 0, .block, .em⟩, Instr.atomf ⟨.v 4, 8, none, .v 1, .f32, 3, .block, .em⟩,
      Instr.atomcas ⟨.s 0, 8, none, .v 1, .i32, 0, .block, .em⟩].all (fun i => !i.wf) = true := by decide

theorem test_ill_formed_sync :
    [Instr.commit ⟨.v 0, .v 0, .v 0, 0, .domain⟩, Instr.commit ⟨.v 0, .v 0, .v 0, 1, .gang⟩,
      Instr.commit ⟨.s 1, .v 0, .v 0, 0, .gang⟩, Instr.commitc ⟨.s 1, .v 0, .v 0, 0, .device⟩,
      Instr.mark ⟨.v 0, .v 0, .v 0, 1, .block⟩, Instr.mark ⟨.v 0, .v 0, .v 0, 0, .device⟩, Instr.abort ⟨.v 0, .v 0, .v 0, 2, .gang⟩,
      Instr.waitcnt ⟨.v 0, .imm 0, .v 0, 6, .gang⟩, Instr.waitcnt ⟨.v 0, .imm 0, .v 0, 0, .block⟩,
      Instr.bara ⟨.v 0, .v 0, .v 0, 22, .gang⟩, Instr.bara ⟨.v 0, .v 0, .v 0, 0, .block⟩, Instr.barw ⟨.v 0, .v 0, .v 0, 32, .gang⟩,
      Instr.barx ⟨.v 0, .v 1, .v 0, 0, .gang⟩, Instr.vralloc ⟨.s 1, .imm 0, .v 0, .v 0, .b8, 0⟩,
      Instr.vralloc ⟨.s 1, .imm 33, .v 0, .v 0, .b8, 0⟩, Instr.vralloc ⟨.s 1, .imm 1, .v 0, .v 0, .b8, 2⟩,
      Instr.launch ⟨.v 1, .imm 1, .v 0, .v 0, .b8, 0⟩, Instr.sigop ⟨.s 2, .s 4, .imm 1, .v 0, .b8, 3⟩,
      Instr.sigop ⟨.s 3, .s 4, .imm 1, .v 0, .b8, 0⟩, Instr.sigop ⟨.s 2, .s 4, .imm 1, .v 0, .b8, 2⟩].all (fun i => !i.wf) = true := by decide

theorem test_ill_formed_matrix :
    [Instr.mma ⟨.v 4, .v 4, .imm 0, .s 2, .v 0, false, false⟩, Instr.mma ⟨.v 8, .v 2, .imm 0, .s 2, .v 0, false, false⟩,
      Instr.mma ⟨.v 8, .v 4, .imm 0, .s 3, .v 0, false, false⟩, Instr.mma ⟨.v 8, .v 4, .imm 0, .s 2, .s 4, false, false⟩,
      Instr.mmac ⟨.v 8, .v 4, .imm 0, .s 2, .v 0, true, false⟩, Instr.mmas ⟨.v 8, .v 4, .imm 0, .s 2, .s 5, false, false⟩,
      Instr.qhist ⟨.v 2, .v 1, .imm 1, .v 0, 3⟩, Instr.qhist ⟨.v 3, .v 1, .imm 1, .v 0, 0⟩,
      Instr.qhist ⟨.v 2, .v 1, .imm 33, .v 0, 0⟩, Instr.qscale ⟨.s 1, .v 2, .imm 1, .v 0, 0⟩,
      Instr.qcvt ⟨.v 2, .v 1, .imm 1, .imm 0, 0⟩, Instr.qcvt ⟨.v 4, .v 1, .imm 1, .imm 0, 48⟩,
      Instr.qcvt ⟨.v 4, .v 1, .imm 1, .imm 0, 10⟩, Instr.qcvt ⟨.v 4, .v 1, .imm 1, .imm 0, 9⟩, Instr.qclr ⟨.v 2, .v 1, .v 0, .v 0, 0⟩].all (fun i => !i.wf) = true := by decide

theorem test_ill_formed_request :
    [Instr.rqcopy ⟨.s 2, .s 4, .s 6, .v 0, 0, 1, false, false⟩, Instr.rqcopy ⟨.s 2, .s 4, .s 6, .v 0, 0, 22, true, false⟩,
      Instr.rqcopy ⟨.s 2, .s 4, .s 6, .v 0, 1, 0, false, false⟩, Instr.rqcopy ⟨.s 3, .s 4, .s 6, .v 0, 0, 0, false, false⟩,
      Instr.rqfill ⟨.s 2, .v 1, .s 6, .v 0, 0, 0, false, false⟩, Instr.rqgather ⟨.s 2, .s 4, .s 6, .s 1, 6, 0, false, false⟩,
      Instr.rqputs ⟨.s 2, .s 4, .s 6, .s 6, 0, 0, false, false⟩, Instr.rqred ⟨.s 2, .s 4, .s 6, .v 0, 48, 0, false, false⟩,
      Instr.rqred ⟨.s 2, .s 4, .s 6, .v 0, 5, 0, false, false⟩, Instr.rqred ⟨.s 2, .s 4, .s 6, .v 0, 26, 0, false, false⟩,
      Instr.rqlist ⟨.v 0, .s 1, .imm 1, .v 0, 0, 0, true, false⟩, Instr.rqswap ⟨.s 2, .s 4, .v 0, .v 0, 0, 0, false, true⟩].all (fun i => !i.wf) = true := by decide

theorem test_ill_formed_compositor :
    [Instr.pktld ⟨.v 4, .m 1, .v 0, .v 0, 0⟩, Instr.pktld ⟨.v 8, .em, .v 0, .v 0, 0⟩, Instr.pktdone ⟨.v 1, .v 2, .v 0, .v 0, 3⟩,
      Instr.sigrmw ⟨.v 2, .v 4, .v 6, .v 0, 3⟩, Instr.sigrmw ⟨.v 2, .v 4, .v 6, .v 0, 12⟩, Instr.sigrmw ⟨.v 2, .v 4, .v 6, .v 0, 2⟩,
      Instr.qsave ⟨.v 1, .v 2, .v 0, .v 0, 0⟩, Instr.qload ⟨.v 1, .v 3, .v 0, .v 0, 0⟩, Instr.dispatch ⟨.v 1, .v 2, .v 0, .v 0, 2⟩,
      Instr.pendscan ⟨.s 1, .imm 0, .v 0, .v 0, 4⟩, Instr.pendscan ⟨.s 1, .s 1, .v 0, .v 0, 1⟩, Instr.qarm ⟨.v 1, .v 0, .v 0, .v 0, 2⟩].all (fun i => !i.wf) = true := by decide

theorem test_ill_formed_debug_words :
    [Instr.dbgrd ⟨.s 1, .imm 1, .v 0, .v 0, 0⟩, Instr.dbgwr ⟨.s 1, .s 2, .imm 0, .v 0, 0⟩, Instr.dstep ⟨.v 0, .v 1, .v 0, .v 0, 0⟩,
      Instr.wpset ⟨.v 0, .imm 0, .s 8, .v 0, 3⟩, Instr.wpset ⟨.v 0, .imm 0, .s 4, .v 0, 0⟩,
      Instr.trctl ⟨.v 0, .imm 0, .v 0, .v 0, 4⟩, Instr.vhrd ⟨.s 4, .imm 0, .v 0, .v 0, 0⟩].all (fun i => !i.wf) = true := by decide

/-! ## Words of the spec's encodings (R66 to R77, R230, R231, R249, R250, R281, R307), one for each instruction -/

theorem test_decode_scalar_moves :
    reads .press 0x0010842800000C00 = some (.smov ⟨.s 8, .s 10, .v 0, .v 0, .b64, 0⟩) ∧
    reads .press 0x00504006FFFF1234 = some (.smovi ⟨.s 4, .em, false, .i32, 4294906420⟩) ∧
    reads .press 0x0090441301001800 = some (.sadd ⟨.s 4, .s 4, .imm 1, .v 0, .i32, 0⟩) ∧
    reads .press 0x00D1C47301002800 = some (.ssub ⟨.s 28, .s 28, .imm 1, .v 0, .n32, 0⟩) ∧
    reads .press 0x011058B37D001400 = some (.smul ⟨.s 5, .s 300, .imm 125, .v 0, .i16, 0⟩) ∧
    reads .press 0x015064210A002C00 = some (.smulh ⟨.s 6, .s 8, .s 10, .v 0, .n64, 0⟩) ∧
    reads .press 0x0190140B3F000000 = some (.sand ⟨.s 1, .s 2, .imm 63, .v 0, .b8, 0⟩) ∧
    reads .press 0x01EFFD0200002400 = some (.sor ⟨.s 511, .imm 64, .s 256, .v 0, .n16, 0⟩) ∧
    reads .press 0x0210040502001000 = some (.sxor ⟨.s 0, .s 1, .s 2, .v 0, .i8, 0⟩) := by decide

theorem test_decode_scalar_shifts :
    reads .press 0x0250241107001C00 = some (.sshl ⟨.s 2, .s 4, .s 7, .v 0, .i64, 0⟩) ∧
    reads .press 0x029034171F000800 = some (.sshr ⟨.s 3, .s 5, .imm 31, .v 0, .b32, 0⟩) ∧
    reads .press 0x02D0942704001800 = some (.ssra ⟨.s 9, .s 9, .imm 4, .v 0, .i32, 0⟩) ∧
    reads .press 0x0310341105002000 = some (.smin ⟨.s 3, .s 4, .s 5, .v 0, .n8, 0⟩) ∧
    reads .press 0x0350C43B00001C00 = some (.smax ⟨.s 12, .s 14, .imm 0, .v 0, .i64, 0⟩) ∧
    reads .press 0x0390341106002C30 = some (.scmp ⟨.s 3, .s 4, .s 6, .v 0, .n64, 3⟩) ∧
    reads .press 0x03D0341307425800 = some (.ssel ⟨.s 3, .s 4, .imm 7, .s 9, .i32, 0⟩) ∧
    reads .press 0x0410341000002C00 = some (.sclz ⟨.s 3, .s 4, .v 0, .v 0, .n64, 0⟩) ∧
    reads .press 0x0450341000000400 = some (.spopc ⟨.s 3, .s 4, .v 0, .v 0, .b16, 0⟩) ∧
    reads .press 0x0490341105002800 = some (.sbfe ⟨.s 3, .s 4, .s 5, .v 0, .n32, 0⟩) ∧
    reads .press 0x04D034130541A800 = some (.sbfi ⟨.s 3, .s 4, .imm 5, .s 6, .n32, 0⟩) := by decide

theorem test_decode_control_words :
    reads .press 0x2000000000FFFFFD = some (.bra ⟨.v 0, .em, .z, 16777213⟩) ∧
    reads .press 0x204004600400000A = some (.bru ⟨.s 24, .em, .nz, 10⟩) ∧
    reads .press 0x20800E4404000006 = some (.brv ⟨.m 1, .em, .nz, 6⟩) ∧
    reads .press 0x20C00E00007FFFFF = some (.brau ⟨.em, .em, .z, 8388607⟩) ∧
    reads .press 0x21000E4800010003 = some (.skip ⟨.m 2, false, 65539⟩) := by decide

theorem test_decode_control_ends :
    reads .press 0x2151E00000000064 = some (.call ⟨.s 30, 100⟩) ∧
    reads .press 0x2180047800000000 = some (.ret ⟨.s 30, .em, .z, 0⟩) ∧
    reads .press 0x21C0000000000001 = some (.join ⟨.v 0, .em, .z, 1⟩) ∧
    reads .press 0x2200000100000000 = some (.gangAll ⟨.v 0, true, 0⟩) ∧
    reads .press 0x2240000000000000 = some (.exit ⟨.v 0, false, 0⟩) ∧
    reads .press 0x228000000000ABCD = some (.trap ⟨.v 0, false, 43981⟩) ∧
    reads .press 0x22C00C0800FFFFF8 = some (.yield ⟨.imm 2, .em, .z, 16777208⟩) ∧
    reads .press 0x2300000000000000 = some (.nop ⟨.v 0, false, 0⟩) := by decide

theorem test_decode_masks :
    reads .press 0x24391E039F000000 = some (.mand ⟨.m 1, .em, .m 15, .v 0, .b8, 0⟩) ∧
    reads .press 0x24780E4391000000 = some (.mor ⟨.em, .m 0, .m 1, .v 0, .b8, 0⟩) ∧
    reads .press 0x24B93E4F94000000 = some (.mxor ⟨.m 3, .m 3, .m 4, .v 0, .b8, 0⟩) ∧
    reads .press 0x24F93E5000000000 = some (.mnot ⟨.m 3, .m 4, .v 0, .v 0, .b8, 0⟩) ∧
    reads .press 0x25380E5C00000000 = some (.mmov ⟨.em, .m 7, .v 0, .v 0, .b8, 0⟩) ∧
    reads .press 0x25504E0000000000 = some (.mpopc ⟨.s 4, .em, .v 0, .v 0, .b8, 0⟩) ∧
    reads .press 0x25904E6400000000 = some (.mfirst ⟨.s 4, .m 9, .v 0, .v 0, .b8, 0⟩) := by decide

theorem test_decode_special_words :
    reads .press 0x25D0600000000000 = some (.measure ⟨.s 6, .v 0, .v 0, .v 0, .b8, 0⟩) ∧
    reads .press 0x26104F2800000000 = some (.srd ⟨.s 4, .sr .cycles, .v 0, .v 0, .b8, 0⟩) ∧
    reads .press 0x267CB40000000000 = some (.swr ⟨.sr .astatus, .s 0, .v 0, .v 0, .b8, 0⟩) := by decide

theorem test_decode_vector_sums :
    reads .press 0x4000300D14001800 = some (.vadd ⟨.v 3, .v 3, .s 20, .i32, false, .em, false⟩) ∧
    reads .press 0x404FFC04FE0020CA = some (.vsub ⟨.v 255, .imm 1, .v 254, .n8, true, .m 2, true⟩) ∧
    reads .press 0x4080100803000800 = some (.vmul ⟨.v 1, .v 2, .v 3, .b32, false, .em, false⟩) ∧
    reads .press 0x40C0100803001800 = some (.vmulh ⟨.v 1, .v 2, .v 3, .i32, false, .em, false⟩) ∧
    reads .press 0x4100201006421CCD = some (.vmad ⟨.v 2, .v 4, .v 6, .s 8, .i64, .rne, true, .m 3, false, true⟩) := by decide

theorem test_decode_vector_logic :
    reads .press 0x4140100907000800 = some (.vand ⟨.v 1, .v 2, .s 7, .b32, false, .em, false⟩) ∧
    reads .press 0x418020137F000C00 = some (.vor ⟨.v 2, .v 4, .imm 127, .b64, false, .em, false⟩) ∧
    reads .press 0x41C0100803002400 = some (.vxor ⟨.v 1, .v 2, .v 3, .n16, false, .em, false⟩) ∧
    reads .press 0x4200100800000800 = some (.vnot ⟨.v 1, .v 2, .v 0, .b32, false, .em, false⟩) ∧
    reads .press 0x4240100B05001480 = some (.vshl ⟨.v 1, .v 2, .imm 5, .i16, true, .em, false⟩) ∧
    reads .press 0x4280100803002800 = some (.vshr ⟨.v 1, .v 2, .v 3, .n32, false, .em, false⟩) ∧
    reads .press 0x42C0100903001800 = some (.vsra ⟨.v 1, .v 2, .s 3, .i32, false, .em, false⟩) ∧
    reads .press 0x4300100803001800 = some (.vmin ⟨.v 1, .v 2, .v 3, .i32, false, .em, false⟩) ∧
    reads .press 0x434010080300287C = some (.vmax ⟨.v 1, .v 2, .v 3, .n32, false, .m 15, false⟩) := by decide

theorem test_decode_vector_fields :
    reads .press 0x4380100800001080 = some (.vabs ⟨.v 1, .v 2, .v 0, .i8, true, .em, false⟩) ∧
    reads .press 0x43C0301000002C00 = some (.vclz ⟨.v 3, .v 4, .v 0, .n64, false, .em, false⟩) ∧
    reads .press 0x4400341000000800 = some (.vpopc ⟨.v 3, .s 4, .v 0, .b32, false, .em, false⟩) ∧
    reads .press 0x4440100903001800 = some (.vbfe ⟨.v 1, .v 2, .s 3, .v 0, .i32, .rne, false, .em, false, false⟩) ∧
    reads .press 0x4480100803410800 = some (.vbfi ⟨.v 1, .v 2, .v 3, .s 4, .b32, .rne, false, .em, false, false⟩) ∧
    reads .press 0x44C0100803E47800 = some (.vsel ⟨.v 1, .v 2, .v 3, .m 1, .f32, .rne, false, .em, false, false⟩) ∧
    reads .press 0x4539100708142800 = some (.vcmp ⟨.m 1, .v 1, .imm 8, 5, .n32, false, .em, false⟩) ∧
    reads .press 0x45401C0C00003402 = some (.vmov ⟨.v 1, .imm 3, .v 0, .bf16, false, .em, true⟩) ∧
    reads .press 0x458098CE3F800000 = some (.vmovi ⟨.v 9, .m 1, true, .f32, 1065353216⟩) := by decide

theorem test_decode_packed :
    reads .press 0x4800100803001480 = some (.vadd2 ⟨.v 1, .v 2, .v 3, .i16, true, .em, false⟩) ∧
    reads .press 0x4840100B01002400 = some (.vsub2 ⟨.v 1, .v 2, .imm 1, .n16, false, .em, false⟩) ∧
    reads .press 0x4880801914021480 = some (.vmac2 ⟨.v 8, .v 6, .s 20, .v 8, .i16, .rne, true, .em, false, false⟩) ∧
    reads .press 0x48C0801807C02000 = some (.vdot4 ⟨.v 8, .v 6, .v 7, .imm 0, .n8, .rne, false, .em, false, false⟩) ∧
    reads .press 0x4900100803001000 = some (.vqadd ⟨.v 1, .v 2, .v 3, .i8, false, .em, false⟩) ∧
    reads .press 0x4940100803002800 = some (.vqsub ⟨.v 1, .v 2, .v 3, .n32, false, .em, false⟩) ∧
    reads .press 0x4980100B04001480 = some (.vshrr ⟨.v 1, .v 2, .imm 4, .i16, true, .em, false⟩) ∧
    reads .press 0x49C0100803001080 = some (.vpack ⟨.v 1, .v 2, .v 3, .i8, true, .em, false⟩) ∧
    reads .press 0x4A00100800042000 = some (.vunpack ⟨.v 1, .v 2, .v 0, 1, .n8, false, .em, false⟩) := by decide

theorem test_decode_floats :
    reads .press 0x6000100803003AD3 = some (.vfadd ⟨.v 1, .v 2, .v 3, .f32, .rdn, true, .m 4, true, true⟩) ∧
    reads .press 0x6040201106003F00 = some (.vfsub ⟨.v 2, .v 4, .s 6, .f64, .rup, false, .em, false, false⟩) ∧
    reads .press 0x6080100B02003500 = some (.vfmul ⟨.v 1, .v 2, .imm 2, .bf16, .rtz, false, .em, false, false⟩) ∧
    reads .press 0x60C0500806017844 = some (.vfma ⟨.v 5, .v 2, .v 6, .v 5, .f32, .rne, false, .m 1, false, false⟩) ∧
    reads .press 0x6100100803003000 = some (.vfmin ⟨.v 1, .v 2, .v 3, .f16, .rne, false, .em, false, false⟩) ∧
    reads .press 0x6140201006003C00 = some (.vfmax ⟨.v 2, .v 4, .v 6, .f64, .rne, false, .em, false, false⟩) := by decide

theorem test_decode_float_unary :
    reads .press 0x6180100800003800 = some (.vfrcp ⟨.v 1, .v 2, .v 0, .f32, .rne, false, .em, false, false⟩) ∧
    reads .press 0x61C0100800003B00 = some (.vfrsq ⟨.v 1, .v 2, .v 0, .f32, .rup, false, .em, false, false⟩) ∧
    reads .press 0x6200201000003C00 = some (.vfsqrt ⟨.v 2, .v 4, .v 0, .f64, .rne, false, .em, false, false⟩) ∧
    reads .press 0x6240100800003000 = some (.vfexp2 ⟨.v 1, .v 2, .v 0, .f16, .rne, false, .em, false, false⟩) ∧
    reads .press 0x6280100800003480 = some (.vflog2 ⟨.v 1, .v 2, .v 0, .bf16, .rne, true, .em, false, false⟩) ∧
    reads .press 0x62F80004021C3800 = some (.vfcmp ⟨.em, .v 1, .v 2, 7, .f32, false, .em, false⟩) ∧
    reads .press 0x6300301000003C00 = some (.vfclass ⟨.v 3, .v 4, .v 0, .f64, false, .em, false⟩) := by decide

theorem test_decode_conversions :
    reads .press 0x6400100B0308C080 = some (.vcvt ⟨.v 1, .v 2, .imm 3, .i8, .i32, .rne, true, .em, false⟩) ∧
    reads .press 0x6440100B016A8100 = some (.vfcvt ⟨.v 1, .v 2, .imm 1, .e4m3, .f32, .rtz, false, .em, false⟩) ∧
    reads .press 0x6480200F0842C200 = some (.vftoi ⟨.v 2, .v 3, .imm 8, .n64, .f16, .rdn, false, .em, false⟩) ∧
    reads .press 0x64C0140B385000D6 = some (.vitof ⟨.v 1, .s 2, .imm 56, .f32, .i4, .rne, true, .m 5, true⟩) := by decide

theorem test_decode_cross_lane :
    reads .press 0x8000100B01C008C0 = some (.vshfl ⟨.v 1, .v 2, .imm 1, .imm 0, .b32, 3, .em, false⟩) ∧
    reads .press 0x8040201103018F41 = some (.vshflx ⟨.v 2, .v 4, .s 3, .v 6, .b64, 13, .em, true⟩) ∧
    reads .press 0x80C0100B07410864 = some (.vbcast ⟨.v 1, .v 2, .imm 7, .s 4, .b32, 1, .m 2, false⟩) ∧
    reads .press 0x81103E4400080800 = some (.vvote ⟨.s 3, .m 1, .v 0, 2, .b32, false, .em, false⟩) ∧
    reads .press 0x8150300800043880 = some (.vreduce ⟨.s 3, .v 2, .v 0, 1, .f32, true, .em, false⟩) ∧
    reads .press 0x8180100800201800 = some (.vscan ⟨.v 1, .v 2, .v 0, 8, .i32, false, .em, false⟩) ∧
    reads .press 0x8080701B01C00400 = some (.vslide ⟨.v 7, .v 6, .imm 1, .imm 0, .b16, 0, .em, false⟩) := by decide

theorem test_decode_memory :
    reads .press 0xA000204404800040 = some (.ld ⟨.v 2, 8, some 1, .b32, .em, false, 64⟩) ∧
    reads .press 0xA040403003E7FFF8 = some (.st ⟨.v 4, 6, none, .f64, .m 3, true, 65528⟩) ∧
    reads .press 0xA091405000800000 = some (.lds ⟨.s 20, 10, none, .b32, .em, false, 0⟩) ∧
    reads .press 0xA0F05FF000407FFF = some (.sts ⟨.imm 5, 510, none, .b16, .em, false, 32767⟩) ∧
    reads .press 0xA1000047FC000080 = some (.prefetch ⟨.v 0, 8, some 255, .b8, .em, false, 128⟩) := by decide

theorem test_decode_atomics :
    reads .press 0xA20050440404A000 = some (.atom ⟨.v 5, 8, some 1, .v 4, .n32, 0, .block, .em⟩) ∧
    reads .press 0xA25000400004F2A2 = some (.atomf ⟨.s 0, 8, none, .v 4, .f64, 2, .device, .m 1⟩) ∧
    reads .press 0xA2806044010430C0 = some (.atomcas ⟨.v 6, 8, some 0, .s 4, .b64, 0, .domain, .em⟩) := by decide

theorem test_decode_sync :
    reads .press 0xC000000000008000 = some (.commit ⟨.v 0, .v 0, .v 0, 0, .block⟩) ∧
    reads .press 0xC050600000000000 = some (.commitc ⟨.s 6, .v 0, .v 0, 0, .gang⟩) ∧
    reads .press 0xC080000000040000 = some (.mark ⟨.v 0, .v 0, .v 0, 1, .gang⟩) ∧
    reads .press 0xC0C0000000050000 = some (.abort ⟨.v 0, .v 0, .v 0, 1, .cluster⟩) ∧
    reads .press 0xC1000C0000000000 = some (.waitcnt ⟨.v 0, .imm 0, .v 0, 0, .gang⟩) ∧
    reads .press 0xC200000000540000 = some (.bara ⟨.v 0, .v 0, .v 0, 21, .gang⟩) ∧
    reads .press 0xC2400000000C0000 = some (.barw ⟨.v 0, .v 0, .v 0, 3, .gang⟩) ∧
    reads .press 0xC2800000008C0000 = some (.bars ⟨.v 0, .v 0, .v 0, 35, .gang⟩) ∧
    reads .press 0xC2C0041000040000 = some (.barx ⟨.v 0, .s 4, .v 0, 1, .gang⟩) := by decide

theorem test_decode_system :
    reads .press 0xE0104C1000000000 = some (.vralloc ⟨.s 4, .imm 4, .v 0, .v 0, .b8, 0⟩) ∧
    reads .press 0xE040000000000000 = some (.rte ⟨.v 0, false, 0⟩) ∧
    reads .press 0xE080242000000000 = some (.launch ⟨.v 2, .s 8, .v 0, .v 0, .b8, 0⟩) ∧
    reads .press 0xE0D064237F000000 = some (.sigop ⟨.s 6, .s 8, .imm 127, .v 0, .b8, 0⟩) := by decide

theorem test_decode_matrix :
    reads .matrix 0x0001002114458000 = some (.mma ⟨.v 16, .v 8, .s 20, .s 22, .v 0, false, false⟩) ∧
    reads .matrix 0x0042808300459184 = some (.mmas ⟨.v 40, .v 32, .imm 0, .s 22, .s 24, false, true⟩) ∧
    reads .matrix 0x0080801101408004 = some (.mmac ⟨.v 8, .v 4, .s 1, .s 2, .v 0, false, true⟩) ∧
    reads .matrix 0x00C080110140B038 = some (.mmag ⟨.v 8, .v 4, .s 1, .s 2, .imm 3, true, false⟩) ∧
    reads .matrix 0x0403800320000000 = some (.qhist ⟨.v 56, .v 0, .imm 32, .v 0, 0⟩) ∧
    reads .matrix 0x0451E0A11F001100 = some (.qscale ⟨.s 30, .v 40, .s 31, .v 0, 17⟩) ∧
    reads .matrix 0x048200011E440800 = some (.qcvt ⟨.v 32, .v 0, .s 30, .s 16, 8⟩) ∧
    reads .matrix 0x04C3800000000000 = some (.qclr ⟨.v 56, .v 0, .v 0, .v 0, 0⟩) := by decide

theorem test_decode_request :
    reads .request 0x0010C4211400001C = some (.rqcopy ⟨.s 12, .s 8, .s 20, .v 0, 0, 3, true, false⟩) ∧
    reads .request 0x0050CDFD14000000 = some (.rqfill ⟨.s 12, .imm 127, .s 20, .v 0, 0, 0, false, false⟩) ∧
    reads .request 0x0090C423104245AC = some (.rqgather ⟨.s 12, .s 8, .imm 16, .s 9, 5, 21, true, false⟩) ∧
    reads .request 0x00D0C42310424002 = some (.rqscatter ⟨.s 12, .s 8, .imm 16, .s 9, 0, 0, false, true⟩) ∧
    reads .request 0x0110C42114460000 = some (.rqputs ⟨.s 12, .s 8, .s 20, .s 24, 0, 0, false, false⟩) ∧
    reads .request 0x0150C42114462900 = some (.rqred ⟨.s 12, .s 8, .s 20, .s 24, 41, 0, false, false⟩) ∧
    reads .request 0x0180047B04000002 = some (.rqlist ⟨.v 0, .s 30, .imm 4, .v 0, 0, 0, false, true⟩) ∧
    reads .request 0x01D0C42000000100 = some (.rqswap ⟨.s 12, .s 8, .v 0, .v 0, 1, 0, false, false⟩) := by decide

theorem test_decode_compositor :
    reads .compositor 0x00008E4400000000 = some (.pktld ⟨.v 8, .m 1, .v 0, .v 0, 0⟩) ∧
    reads .compositor 0x0040100800000200 = some (.pktdone ⟨.v 1, .v 2, .v 0, .v 0, 2⟩) ∧
    reads .compositor 0x0081403000000200 = some (.sigrmw ⟨.v 20, .v 12, .v 0, .v 0, 2⟩) ∧
    reads .compositor 0x00C0002800000000 = some (.qsave ⟨.v 0, .v 10, .v 0, .v 0, 0⟩) ∧
    reads .compositor 0x0100100800000000 = some (.qload ⟨.v 1, .v 2, .v 0, .v 0, 0⟩) ∧
    reads .compositor 0x0140100800000100 = some (.dispatch ⟨.v 1, .v 2, .v 0, .v 0, 1⟩) ∧
    reads .compositor 0x0190441400000200 = some (.pendscan ⟨.s 4, .s 5, .v 0, .v 0, 2⟩) ∧
    reads .compositor 0x01C0800000000000 = some (.qarm ⟨.v 8, .v 0, .v 0, .v 0, 0⟩) := by decide

theorem test_decode_debug :
    reads .debug 0x0010442000000000 = some (.dbgrd ⟨.s 4, .s 8, .v 0, .v 0, 0⟩) ∧
    reads .debug 0x0040042305000000 = some (.dbgwr ⟨.v 0, .s 8, .imm 5, .v 0, 0⟩) ∧
    reads .debug 0x00800C0C00000000 = some (.dstep ⟨.v 0, .imm 3, .v 0, .v 0, 0⟩) ∧
    reads .debug 0x00C00C0000000000 = some (.dresume ⟨.v 0, .imm 0, .v 0, .v 0, 0⟩) ∧
    reads .debug 0x01000C0000000000 = some (.dreturn ⟨.v 0, .imm 0, .v 0, .v 0, 0⟩) ∧
    reads .debug 0x01400C0D28000100 = some (.wpset ⟨.v 0, .imm 3, .s 40, .v 0, 1⟩) ∧
    reads .debug 0x01800C0400000200 = some (.trctl ⟨.v 0, .imm 1, .v 0, .v 0, 2⟩) ∧
    reads .debug 0x01D30C0000000000 = some (.vhrd ⟨.s 48, .imm 0, .v 0, .v 0, 0⟩) := by decide

/-- Reserved opcodes, bits and codes are refused by name (R67, R70, R72, R75, R77). -/
theorem test_reserved_refused :
    rejects .press 0x0500000000000000 .reservedOpcode = true ∧ rejects .press 0xE100000000000000 .reservedOpcode = true ∧
    rejects .matrix 0x0100000000000000 .reservedOpcode = true ∧ rejects .request 0x0200000000000000 .reservedOpcode = true ∧
    rejects .compositor 0x0200000000000000 .reservedOpcode = true ∧ rejects .debug 0x0200000000000000 .reservedOpcode = true ∧
    rejects .press 0x0090441301001801 .reservedBit = true ∧ rejects .press 0x4000300D14001801 .reservedBit = true ∧
    rejects .press 0x00BA241301001800 .reservedCode = true ∧ rejects .press 0x00B8141301001800 .reservedCode = true ∧
    rejects .press 0x4000300D14001804 .reservedCode = true := by decide

/-- Headers (R63): the spec's worked headers, COUNT at both ends, and each refusal. -/
theorem test_witness_HeaderRoundTrip :
    decodeHeader 0x0300000000000000 = some ⟨.press, 4, 0, none, none, false⟩ ∧
    decodeHeader 0x0100188000000000 = some ⟨.press, 2, 1, some 1, none, false⟩ ∧
    decodeHeader 0x0100704C00000000 = some ⟨.press, 2, 7, none, some 3, false⟩ ∧
    decodeHeader 0x1200304800000000 = some ⟨.matrix, 3, 3, none, some 2, false⟩ ∧
    decodeHeader 0x2000080000000000 = some ⟨.request, 1, 0, some 0, none, false⟩ ∧
    decodeHeader 0x4100080000000000 = some ⟨.compositor, 2, 0, some 0, none, false⟩ ∧
    decodeHeader 0x3FFF8E6A00000000 = none ∧ decodeHeader 0x3FFF8DEA00000000 = some ⟨.debug, 16, 0xFF8, some 11, some 10, true⟩ ∧
    decodeHeader 0x5000000000000000 = none ∧ decodeHeader 0x0000000100000000 = none ∧ decodeHeader 0x0000008000000000 = none ∧
    decodeHeader 0x0000084000000000 = none ∧ encodeHeader ⟨.press, 4, 0, none, none, false⟩ = 0x0300000000000000 := by decide

/-- Operand codes at the ends of each range of R66 and R67. -/
theorem test_witness_OperandCodes :
    decOpd 0x0FF = some (.v 255) ∧ decOpd 0x100 = some (.s 0) ∧ decOpd 0x2FF = some (.s 511) ∧ decOpd 0x300 = some (.imm 0) ∧
    immInt 63 = 63 ∧ decOpd 0x33F = some (.imm 63) ∧ immInt 64 = -64 ∧ decOpd 0x37F = some (.imm 127) ∧ immInt 127 = -1 ∧
    decOpd 0x380 = some .em ∧ decOpd 0x381 = none ∧ decOpd 0x38F = none ∧ decOpd 0x390 = some (.m 0) ∧ decOpd 0x39F = some (.m 15) ∧
    decOpd 0x3A0 = none ∧ decOpd 0x3BF = none ∧ decOpd 0x3C0 = some (.sr .laneid) ∧ decOpd 0x3D1 = some (.sr .crank) ∧
    decOpd 0x3D2 = none ∧ decOpd 0x3FF = none := by decide

theorem test_witness_EncodeThenDecode :
    Instr.wf (.sadd ⟨.s 4, .s 4, .imm 1, .v 0, .i32, 0⟩) = true ∧ (Instr.sadd ⟨.s 4, .s 4, .imm 1, .v 0, .i32, 0⟩).cls = some .press ∧
    encode (.sadd ⟨.s 4, .s 4, .imm 1, .v 0, .i32, 0⟩) = some 0x0090441301001800 ∧ encode .commandDone = none ∧
    Instr.commandDone.cls = none := by decide

theorem test_witness_DecodeThenEncode : decodeWord .press 0x0090441301001800 = .ok (.sadd ⟨.s 4, .s 4, .imm 1, .v 0, .i32, 0⟩) := by rfl

/-! ## The step and reset -/

/-- Word 0x0090441301001800, `sadd.i32 s4, s4, 1`, stands where the next step fetches it. -/
def sFetch : State := State.reset.withFetchWord 64 0x0090441301001800

theorem test_witness_StepRunsDecodedWord :
    sFetch.choose = .issue wordUid [0] none ∧
    (let s1 : State := { sFetch.tick.dropHead with cur := some (wordUid, 0) }
    s1.ctx?.isSome = true ∧ (here s1).run.words[(here s1).run.idx]? = some 0x0090441301001800 ∧ (here s1).gang.halted = false ∧
      s1.traceFull (here s1) (.sadd ⟨.s 4, .s 4, .imm 1, .v 0, .i32, 0⟩) = false ∧ s1.pcUnit (here s1) = none ∧
      isNext (exec (.sadd ⟨.s 4, .s 4, .imm 1, .v 0, .i32, 0⟩) (s1.beforeWord (here s1))) = true) ∧
    State.choose { State.reset with agenda := [.event .commandDone] } = .event .commandDone ∧
    State.choose { State.reset with agenda := [.event (.nop ⟨.v 0, false, 0⟩)] } = .event (.nop ⟨.v 0, false, 0⟩) := by decide

/-- Result of that step: `s4` held 0 (R107). -/
theorem test_step_sadd : sAfter (step sFetch) 4 = some 1 := by decide

/-- A matrix clause of one word, `qclr v56` (R231), stands where the next step fetches it. -/
def sFetchMatrix : State := State.reset.withFetchWord 128 0x04C38000000000001000004000000000

/-- The first step leaves one operation on `mx`. -/
theorem test_step_qclr : (nextOf (step sFetchMatrix)).any (fun t => (gangOf t).count .mx == 1) = true := by decide

theorem test_witness_InvariantKept : sFetch.Inv ∧ ∃ t, step sFetch = .next t :=
  ⟨⟨by decide, rfl, rfl⟩, next_of _ (by decide)⟩

/-! ## Registers and numbers -/

/-- R97 at the ends of `i8` and `n8`. -/
theorem test_witness_IntegerResults :
    Ty.isInt .i8 = true ∧ outT .i8 true 127 = (127, 0) ∧ outT .i8 true 128 = (127, 0x20) ∧ outT .i8 true (-128) = (0x80, 0) ∧
    outT .i8 true (-129) = (0x80, 0x20) ∧ outT .n8 true 256 = (255, 0x20) ∧ outT .n8 true (-1) = (0, 0x20) ∧
    outT .i8 false 128 = (0x80, 0) ∧ outT .n8 false 256 = (0, 0) := by decide

/-- R69, R84: sign extension of a narrow result, `s0` discarded, a pair at the top of the file. -/
theorem test_witness_ScalarRegisterWrites :
    Ty.is64 .i8 = false ∧ ((gangOf s0).wrScalar .i8 (.s 5) 0x80).rawS 5 = 0xFFFFFF80 ∧ ((gangOf s0).wrScalar .n8 (.s 5) 0x80).rawS 5 = 0x80 ∧
    ((gangOf s0).wrScalar .i32 (.s 0) 7).rawS 0 = 0 ∧ Ty.is64 .n64 = true ∧
    ((gangOf s0).wrScalar .n64 (.s 510) 0x500000003).rawS 511 = 5 ∧ ((gangOf s0).wrScalar .n64 (.s 510) 0x500000003).rawS 510 = 3 ∧
    ((gangOf s0).wrScalar .n64 (.s 0) 0x500000003).rawS 0 = 0 ∧ ((gangOf s0).wrScalar .n64 (.s 0) 0x500000003).rawS 1 = 5 := by decide

/-- A lane reads its source before any lane writes (R128); lane 127 is written, lane 126 is not. -/
theorem test_witness_VectorLaneWrites :
    let h := (gangOf s0).eachLane (1 <<< 127) (fun _ k => (k, 1)) (fun h k x => h.wrLane .b32 (.v 255) k x)
    h.rawV 255 127 = 127 ∧ h.rawV 255 126 = 0 ∧ h.astatus = 1 ∧ Ty.is64 .b32 = false := by decide

/-- R40, R111: a lane on a stack and an absent lane keep their bits in `em`. -/
theorem test_witness_MaskWrites :
    let g : Gang := { gangOf s0 with em := 0xFFFFFFFE, reconv := [[⟨true, 1, 0⟩], [], [], []] }
    (g.wrEm (BitVec.allOnes 128) 0x1000000F1).em = 0xF0 ∧ (g.wrM 15 0xF0 0xFF).rawM 15 = 0xF0 := by decide

/-- R152 wraps modulo 2^64. -/
theorem test_witness_EffectiveAddress :
    let g : Gang := { ((gangOf s0).wrS64 8 0x10).wrV 1 3 0xFFFFFFF0 with fresh := [] }
    g.effAddr 0 8 (some 1) (-1) 3 = 0xFFFFFFFFFFFFFFFF ∧ g.effAddr 0 8 none (-0x8000) 0 = 0xFFFFFFFFFFFF8010 := by decide

/-- R95: NaNs, the zeros and the infinities. -/
theorem test_witness_FloatMinMax :
    (minmaxV false (.nan true) (.fin false 3 0)) = (.fin false 3 0, 1) ∧ (minmaxV true (.nan false) (.nan false)).1 = .nan false ∧
    (minmaxV false (.fin true 0 0) (.fin false 0 5)).1 = .fin true 0 0 ∧ (minmaxV true (.fin true 0 0) (.fin false 0 5)).1 = .fin false 0 5 ∧
    (minmaxV false (.fin false 1 4) (.fin false 7 0)).1 = .fin false 7 0 ∧ (minmaxV false (.inf true) (.fin true 9 99)).1 = .inf true ∧
    (minmaxV true (.fin false 1 0) (.inf false)).1 = .inf false := by decide

/-! ## The words of the press class: hypotheses met, and the spec's worked results -/

/-- s4:5 = 0xFFFFFFFF, s6 = 1000, s8 = 0x0804 (POS 4, WID 8), v1 = the lane's number plus one. -/
def sR : State := edit s0 (fun g =>
  (List.range 32).foldl (fun (g : Gang) k => g.wrV 1 k (BitVec.ofNat 32 (k + 1)))
    (((g.wrS 4 0xFFFFFFFF).wrS 6 1000).wrS 8 0x0804))

theorem test_witness_ScalarArithmetic : Issues s0 (here s0) false false := issues_of _ _ _ (by decide)

/-- R107: `smulh.n32` of 0xFFFF_FFFF by 2 gives 1, `smulh.i32` of the same bits 0xFFFF_FFFF. -/
theorem test_smulh :
    sAfter (exec (.smulh ⟨.s 5, .s 4, .imm 2, .v 0, .n32, 0⟩) sR) 5 = some 1 ∧
    sAfter (exec (.smulh ⟨.s 5, .s 4, .imm 2, .v 0, .i32, 0⟩) sR) 5 = some 0xFFFFFFFF := by decide

/-- R107: a left shift by the width gives 0, an arithmetic right shift by it the sign. -/
theorem test_witness_ScalarBitsShifts :
    sAfter (exec (.sshl ⟨.s 5, .s 4, .imm 32, .v 0, .b32, 0⟩) sR) 5 = some 0 ∧
    sAfter (exec (.sshr ⟨.s 5, .s 4, .imm 31, .v 0, .b32, 0⟩) sR) 5 = some 1 ∧
    sAfter (exec (.ssra ⟨.s 5, .s 4, .imm 32, .v 0, .i32, 0⟩) sR) 5 = some 0xFFFFFFFF ∧
    sAfter (exec (.smovi ⟨.s 2, .em, false, .i64, 0x80000000⟩) sR) 3 = some 0xFFFFFFFF := by decide

/-- R110's worked fields of 1000: `sbfe.n32` with 0x0804 gives 62, `sbfi.n32` of 1000 with 5 gives 0x058; both values of a compare. -/
theorem test_witness_ScalarSelectCountField :
    sAfter (exec (.sbfe ⟨.s 5, .s 6, .s 8, .v 0, .n32, 0⟩) sR) 5 = some 62 ∧
    sAfter (exec (.sbfi ⟨.s 5, .s 6, .imm 5, .s 8, .n32, 0⟩) sR) 5 = some 0x058 ∧
    sAfter (exec (.scmp ⟨.s 5, .s 4, .imm 0, .v 0, .i32, 2⟩) sR) 5 = some 1 ∧
    sAfter (exec (.scmp ⟨.s 5, .s 4, .imm 0, .v 0, .n32, 2⟩) sR) 5 = some 0 ∧
    sAfter (exec (.ssel ⟨.s 5, .s 6, .imm 9, .s 7, .n32, 0⟩) sR) 5 = some 9 ∧
    sAfter (exec (.sclz ⟨.s 5, .s 7, .v 0, .v 0, .n32, 0⟩) sR) 5 = some 32 ∧
    sAfter (exec (.spopc ⟨.s 5, .s 6, .v 0, .v 0, .n32, 0⟩) sR) 5 = some 6 := by decide

/-- The lowest set lane is the last of the gang; then none is set. -/
theorem test_witness_MaskForms :
    let s := edit s0 (fun g => { g with masks := [(1, 0x80000000)] })
    Issues s (here s) false true ∧
    ((here s).gang.maskVal s.now (.m 0) &&& (here s).lanes = 0 ∧ ((here s).gang.maskVal s.now (.m 1) &&& (here s).lanes).getLsbD 31 = true ∧
      (∀ j, j < 31 → ((here s).gang.maskVal s.now (.m 1) &&& (here s).lanes).getLsbD j = false) ∧
      sAfter (exec (.mfirst ⟨.s 5, .m 1, .v 0, .v 0, .b8, 0⟩) s) 5 = some 31 ∧
      sAfter (exec (.mfirst ⟨.s 5, .m 0, .v 0, .v 0, .b8, 0⟩) s) 5 = some 0xFFFFFFFF ∧
      mAfter (exec (.mnot ⟨.m 2, .m 1, .v 0, .v 0, .b8, 0⟩) s) 2 = some 0x7FFFFFFF) :=
  ⟨issues_of _ _ _ (by decide), by decide⟩

/-- The gang's launch made deterministic, its launch clock 77. -/
def sDet : State := { s0 with
  grids := s0.grids.map (fun (x : Grid) => { x with desc := { x.desc with det := true } })
  roots := [⟨wordUid, 77, false⟩] }

/-- The group of all slices runs the handler of the gang. -/
def sTrap : State := edit s0 (fun g => { g with
  trap := some ⟨0xF, 0xFFFFFFFF, [0, 0, 0, 0], 0x10000, none, [], none, 0, none, 0x10048, 0x10048, .misaligned⟩, tvec := 0x20000 })

theorem test_witness_SpecialRegisters :
    (Issues s0 (here s0) false false ∧ Issues sDet (here sDet) false false ∧ Issues sTrap (here sTrap) false false) ∧
    (here s0).gang.det s0 = false ∧ (here sDet).gang.det sDet = true ∧ (s0.block? (here s0).gang.block).isSome = true ∧
    (here sTrap).gang.trap.isSome = true ∧ (here s0).gang.trap.isSome = false ∧
    sAfter (exec (.srd ⟨.s 6, .sr .cycles, .v 0, .v 0, .b8, 0⟩) sDet) 6 = some 77 ∧
    sAfter (exec (.srd ⟨.s 6, .sr .measure, .v 0, .v 0, .b8, 0⟩) s0) 6 = some 32 ∧
    ((nextOf (exec (.swr ⟨.sr .astatus, .s 4, .v 0, .v 0, .b8, 0⟩) sR)).any (fun t => (gangOf t).astatus == 0x1007F)) = true ∧
    ((nextOf (exec (.swr ⟨.sr .tval, .s 4, .v 0, .v 0, .b8, 0⟩) sR)).any (fun t => (gangOf t).tval == 0)) = true :=
  ⟨⟨issues_of _ _ _ (by decide), issues_of _ _ _ (by decide), issues_of _ _ _ (by decide)⟩, by decide⟩

/-- m1 holds lanes 0 to 3, in slice 0; slice 1 is whole in m2; every stack of `sFull` is full. -/
def sMask : State := edit s0 (fun g => { g with masks := [(1, 0xF), (2, 0xFF00), (3, 0xFFFFFFFF)] })
def sFull : State := edit sMask (fun g => { g with reconv := g.reconv.map (fun _ => List.replicate 64 ⟨false, 0, 0⟩) })

theorem test_witness_Branches :
    (Issues s0 (here s0) false false ∧ Issues sMask (here sMask) false false ∧ Issues sFull (here sFull) false false ∧
      Issues sSkip (here sSkip) false false) ∧
    (here s0).base &&& (here s0).skip = 0 ∧ (here sSkip).base &&& (here sSkip).skip ≠ 0 ∧
    (let c := here sMask
    (c.gang.branch c.grp c.run c.base (c.gang.condLanes 0 (.m 1) c.activeAll) 0x10050).isSome = true ∧
      c.gang.condLanes 0 (.m 0) c.activeAll = 0 ∧ c.gang.condLanes 0 (.m 3) c.activeAll = c.base ∧
      c.gang.condLanes 0 (.m 1) c.activeAll ≠ c.base ∧ c.gang.condLanes 0 (.m 1) c.activeAll ≠ 0) ∧
    (let c := here sFull
    (c.gang.branch c.grp c.run c.base (c.gang.condLanes 0 (.m 1) c.activeAll) 0x10050).isNone = true) ∧
    (let c := here sSkip
    (c.gang.branch c.grp c.run c.base (c.base &&& ~~~ c.skip) 0x10050).isSome = true) :=
  ⟨⟨issues_of _ _ _ (by decide), issues_of _ _ _ (by decide), issues_of _ _ _ (by decide), issues_of _ _ _ (by decide)⟩, by decide⟩

/-- R45, R116: lanes 0 to 3 of slice 0 leave `em` and wait in a PENDING entry; slice 1, taken whole, stands at the target. -/
theorem test_witness_BranchSplits :
    (nextOf (exec (.brv ⟨.m 1, .em, .nz, 1⟩) sMask)).any (fun t => (gangOf t).em == 0xFFFFFFF0 &&
      (gangOf t).reconv.headD [] == [⟨false, 0xF, 0x10050⟩]) = true ∧
    (nextOf (exec (.brv ⟨.m 2, .em, .nz, 1⟩) sMask)).any (fun t => (gangOf t).em == 0xFFFFFFFF &&
      (gangOf t).groups.any (fun r => r.slices == 2 && r.pc == 0x10050)) = true := by decide

def sHandler : State := stand .debug 0
def sComp : State := stand .compositor 0

theorem test_witness_PlainControl :
    (Issues s0 (here s0) false false ∧ Issues sC (here sC) true false ∧ Issues sHandler (here sHandler) false false ∧
      Issues sTrap (here sTrap) false false) ∧
    (here s0).gang.inHandler (here s0).grp = false ∧ (here sTrap).gang.inHandler (here sTrap).grp = true ∧
    (here sHandler).gang.place = .handler 40 ∧ (∀ k, (here s0).gang.place ≠ .handler k) ∧ (here s0).base &&& (here s0).skip = 0 :=
  ⟨⟨issues_of _ _ _ (by decide), issues_of _ _ _ (by decide), issues_of _ _ _ (by decide), issues_of _ _ _ (by decide)⟩,
    by decide, by decide, by decide, fun k h => by simp [show (here s0).gang.place = .press 0 0 from by decide] at h, by decide⟩

/-- R199: `trap 5` in a gang with a handler: `%tval` 5, `%tret` the word behind, `%tcause` word 1 and code 0x10. -/
theorem test_trap :
    (nextOf (exec (.trap ⟨.v 0, false, 5⟩) (edit s0 (fun g => { g with tvec := 0x20000 })))).any (fun t => (gangOf t).tval == 5 &&
      (gangOf t).tret == 0x10050 && (gangOf t).tcause == 0x110 && (gangOf t).image == 0x20000) = true := by decide

/-- Slice 3, the last, with a MERGE entry for another label, for its own label, and a PENDING entry. -/
def sJoin (e : StackEntry) : State := edit s0 (fun g => { g with reconv := [[], [], [], [e]], exited := 7 })

theorem test_witness_JoinAndExit :
    (Issues s0 (here s0) false false ∧ Issues sComp (here sComp) false false ∧ Issues sHandler (here sHandler) false false) ∧
    (gangOf (sJoin ⟨true, 0, 0x30⟩)).joinBad 0x40 8 = true ∧ (gangOf (sJoin ⟨true, 0, 0x40⟩)).joinBad 0x40 8 = false ∧
    (gangOf (sJoin ⟨false, 0xFF000000, 0x50⟩)).joinBad 0x40 8 = false ∧
    ((here s0).lastExit = true ∧ (here s0).gang.errs = []) ∧ (here s0).gang.place = .press 0 0 ∧
    (here sComp).gang.place = .compositor 256 ∧ (here sHandler).gang.place = .handler 40 ∧
    (gangOf (sJoin ⟨true, 0, 0x40⟩)).reconv[3]? = some (⟨true, 0, 0x40⟩ :: []) ∧
    ((gangOf (sJoin ⟨false, 0xFF000000, 0x50⟩)).joinSlice 0x40 3).2 = ⟨3, 0x50, false⟩ :=
  ⟨⟨issues_of _ _ _ (by decide), issues_of _ _ _ (by decide), issues_of _ _ _ (by decide)⟩, by decide⟩

/-- Both values of GANG; R133: `vadd.i32` of 1 to lane 31 and the clamp of `vshl`. -/
theorem test_witness_VectorInteger :
    (Issues s0 (here s0) false false ∧ Issues sC (here sC) true false) ∧ Ty.isInt .i8 = true ∧
    vAfter (exec (.vadd ⟨.v 2, .v 1, .imm 1, .i32, false, .em, false⟩) sR) 2 31 = some 33 ∧
    vAfter (exec (.vshl ⟨.v 2, .v 1, .imm 7, .i8, true, .em, false⟩) sR) 2 0 = some 127 ∧
    vAfter (exec (.vmad ⟨.v 2, .v 1, .v 1, .v 1, .i32, .rne, false, .em, false, false⟩) sR) 2 3 = some 20 :=
  ⟨⟨issues_of _ _ _ (by decide), issues_of _ _ _ (by decide)⟩, by decide⟩

theorem test_witness_VectorBits :
    (Issues s0 (here s0) false false ∧ Issues sC (here sC) true false) ∧
    vAfter (exec (.vnot ⟨.v 2, .v 1, .v 0, .n8, false, .em, false⟩) sR) 2 0 = some 0xFE ∧
    vAfter (exec (.vpopc ⟨.v 2, .v 1, .v 0, .n32, false, .em, false⟩) sR) 2 6 = some 3 ∧
    vAfter (exec (.vmovi ⟨.v 2, .em, false, .f32, 0x3F800000⟩) sR) 2 31 = some 0x3F800000 ∧
    vAfter (exec (.vmov ⟨.v 2, .imm 2, .v 0, .f32, false, .em, false⟩) sR) 2 0 = some 2 :=
  ⟨⟨issues_of _ _ _ (by decide), issues_of _ _ _ (by decide)⟩, by decide⟩

/-- The chapter's worked clause: m1 is set in the lanes whose v1 is at least 8. -/
theorem test_witness_VectorCompares :
    (Issues s0 (here s0) false false ∧ Issues sC (here sC) true false) ∧ (∃ n, (Opd.v 3) = .v n) ∧ (∀ n, (Opd.m 1) ≠ .v n) ∧
    mAfter (exec (.vcmp ⟨.m 1, .v 1, .imm 8, 5, .n32, false, .em, false⟩) sR) 1 = some 0xFFFFFF80 ∧
    vAfter (exec (.vcmp ⟨.v 3, .v 1, .imm 8, 5, .n32, false, .em, false⟩) sR) 3 7 = some 1 :=
  ⟨⟨issues_of _ _ _ (by decide), issues_of _ _ _ (by decide)⟩, ⟨3, rfl⟩, fun _ h => by simp at h, by decide⟩

theorem test_witness_PackedForms :
    (Issues s0 (here s0) false false ∧ Issues sC (here sC) true false) ∧ Ty.width .i16 = 16 ∧ Ty.width .n8 = 8 ∧
    vAfter (exec (.vadd2 ⟨.v 2, .s 4, .v 1, .i16, false, .em, false⟩) sR) 2 0 = some 0xFFFF0000 ∧
    vAfter (exec (.vqsub ⟨.v 2, .v 1, .imm 5, .n8, false, .em, false⟩) sR) 2 3 = some 0 ∧
    vAfter (exec (.vunpack ⟨.v 2, .s 4, .v 0, 0, .i8, false, .em, false⟩) sR) 2 0 = some 0xFFFFFFFF :=
  ⟨⟨issues_of _ _ _ (by decide), issues_of _ _ _ (by decide)⟩, by decide⟩

/-- 1 + 2 in `f32`; the reciprocal lands later, as one operation. -/
theorem test_witness_FloatForms :
    (Issues s0 (here s0) false false ∧ Issues sC (here sC) true false) ∧
    vAfter (exec (.vfadd ⟨.v 2, .imm 1, .imm 2, .f32, .rne, false, .em, false, false⟩) s0) 2 0 = some 0x40400000 ∧
    vAfter (exec (.vfma ⟨.v 2, .imm 3, .imm 2, .imm (-6), .f32, .rne, false, .em, false, false⟩) s0) 2 0 = some 0 ∧
    (nextOf (exec (.vfsqrt ⟨.v 2, .imm 4, .v 0, .f32, .rne, false, .em, false, false⟩) s0)).any (fun t =>
      (gangOf t).ops.any (fun o => o.writes.headD (.s 0 0) == .v 2 0 0x40000000)) = true :=
  ⟨⟨issues_of _ _ _ (by decide), issues_of _ _ _ (by decide)⟩, by decide +kernel⟩

/-- 300 to `i8` with SAT gives 127; -1 to `f32`; 2.5 to `i32` rounds to even. -/
theorem test_witness_Conversions :
    (Issues s0 (here s0) false false ∧ Issues sC (here sC) true false) ∧
    vAfter (exec (.vcvt ⟨.v 2, .s 6, .imm 0, .i8, .i32, .rne, true, .em, false⟩) sR) 2 0 = some 127 ∧
    vAfter (exec (.vitof ⟨.v 2, .s 4, .imm 0, .f32, .i32, .rne, false, .em, false⟩) sR) 2 0 = some 0xBF800000 ∧
    vAfter (exec (.vftoi ⟨.v 2, .s 4, .imm 0, .i32, .f32, .rne, false, .em, false⟩) (edit s0 (fun g => g.wrS 4 0x40200000))) 2 0 =
      some 2 :=
  ⟨⟨issues_of _ _ _ (by decide), issues_of _ _ _ (by decide)⟩, by decide +kernel⟩

/-- What lands in a lane's destination register, of the one operation that is outstanding. -/
def landing (a : Answer) (r k : Nat) : Option W32 :=
  (nextOf a).bind (fun t => (gangOf t).ops.findSome? (fun o => o.writes.findSome? (fun w => match w with
    | .v n lane x => if n == r && lane == k then some x else none
    | .s n x => if n == r && k == 128 then some x else none
    | _ => none)))

/-- MODE 0 to 3 at the ends of the gang, the fill beyond them, a reduction and an exclusive scan of v1 = lane + 1. -/
theorem test_witness_CrossLaneForms :
    (Issues s0 (here s0) false false ∧ Issues sC (here sC) true false) ∧
    landing (exec (.vshfl ⟨.v 2, .v 1, .imm 31, .imm 9, .b32, 0, .em, false⟩) sR) 2 5 = some 32 ∧
    landing (exec (.vshfl ⟨.v 2, .v 1, .imm 1, .imm 9, .b32, 1, .em, false⟩) sR) 2 0 = some 9 ∧
    landing (exec (.vshfl ⟨.v 2, .v 1, .imm 1, .imm 9, .b32, 2, .em, false⟩) sR) 2 31 = some 9 ∧
    landing (exec (.vshfl ⟨.v 2, .v 1, .imm 1, .imm 9, .b32, 3, .em, false⟩) sR) 2 31 = some 31 ∧
    landing (exec (.vbcast ⟨.v 2, .v 1, .imm 3, .imm 9, .b32, 1, .em, false⟩) sR) 2 31 = some 28 ∧
    landing (exec (.vreduce ⟨.v 2, .v 1, .v 0, 0, .i32, false, .em, false⟩) sR) 2 31 = some 528 ∧
    landing (exec (.vreduce ⟨.s 2, .v 1, .v 0, 2, .i32, false, .em, false⟩) sR) 2 128 = some 32 ∧
    landing (exec (.vscan ⟨.v 2, .v 1, .v 0, 8, .i32, false, .em, false⟩) sR) 2 3 = some 6 ∧
    landing (exec (.vscan ⟨.v 2, .v 1, .v 0, 0, .i32, false, .em, false⟩) sR) 2 3 = some 10 ∧
    landing (exec (.vvote ⟨.s 2, .em, .v 0, 4, .b32, false, .em, false⟩) sR) 2 128 = some 32 :=
  ⟨⟨issues_of _ _ _ (by decide), issues_of _ _ _ (by decide)⟩, by decide +kernel⟩

/-- VSLIDE B16 DOWN by one of v6 = 0x00020001 in each lane: element 0 of lane 0 is its own element 1 (R148). -/
theorem test_vslide :
    landing (exec (.vslide ⟨.v 7, .v 6, .imm 1, .imm 0, .b16, 0, .em, false⟩)
      (edit s0 (fun g => (g.wrV 6 0 0x00020001).wrV 6 1 0x00040003))) 7 0 = some 0x00030002 := by decide

/-! ## Memory and synchronisation words: hypotheses met, and results -/

/-- s10:11 is the start of local memory, s12:13 of scratch, v2 = 4 × lane. -/
def sL : State := edit sR (fun g => (List.range 32).foldl (fun (g : Gang) k => g.wrV 2 k (BitVec.ofNat 32 (4 * k)))
  ((g.wrS64 10 0x2000000000000000).wrS64 12 0x4000000000000000))

/-- The accesses of the whole gang at s10 + v2 + imm. -/
def eas (s : State) (base : BitVec 9) (imm : Int) : List (Nat × W64) :=
  (laneList ((here s).active s.now .em)).map (fun k => (k, (here s).gang.effAddr s.now base (some 2) imm k))

def isBad (x : Checked) : Bool :=
  match x with
  | .bad _ _ => true
  | .wait _ | .go _ _ => false

/-- The accesses that go on now, where none misses. -/
def allHit (x : Checked) : Option (List Hit) :=
  match x with
  | .go hits [] => some hits
  | _ => none

theorem test_witness_Loads :
    (Issues sL (here sL) false false ∧ Issues sC (here sC) true false) ∧ sL.heldRemote ((eas sL 10 0).map (·.2)) = false ∧
    isBad (sL.checkAll ((here sL).gang.party sL) (here sL).grp .plain true false 4 4 (eas sL 10 1)) = true ∧
    (allHit (sL.checkAll ((here sL).gang.party sL) (here sL).grp .plain true false 4 4 (eas sL 10 0))).isSome = true ∧
    (here sL).gang.det sL = false ∧ (here sL).run.replay = none :=
  ⟨⟨issues_of _ _ _ (by decide), issues_of _ _ _ (by decide)⟩, by decide⟩

/-! ### A park worked through (R206, R208's table): lanes 0 to 15 in a mapped page, lanes 16 to 31 in one that is missing -/

/-- v2 = 256 × lane from the start of a mapped page; `pri` says whether the host has been asked for the second page. -/
def sPark (pri wr : Bool) : State :=
  { edit sR (fun g => (List.range 32).foldl (fun (g : Gang) k => g.wrV 2 k (BitVec.ofNat 32 (256 * k))) (g.wrS64 10 0x100000)) with
    tlb := [⟨0, 1, 0x100000, 12, true, 0x200000, true, true⟩], pri := if pri then [⟨1, 0x101000, wr, [], true⟩] else [] }

/-- Do some lanes wait for the answer of a page? -/
def isWait (x : Checked) : Bool :=
  match x with
  | .wait _ => true
  | .bad _ _ | .go _ _ => false

/-- How many lanes go on, and how many have no usable translation. -/
def split (x : Checked) : Option (Nat × Nat) :=
  match x with
  | .go hits misses => some (hits.length, misses.length)
  | .bad _ _ | .wait _ => none

def parkOf (t : State) : GStatus × Lanes × Nat :=
  (((gangOf t).groups.head?.map (fun r => r.status)).getD .idle, ((gangOf t).groups.head?.map (fun r => r.pend)).getD 0, (gangOf t).ops.length)

theorem test_park_worked_through :
    (nextOf (exec (.ld ⟨.v 5, 10, some 2, .b32, .em, false, 0⟩) (sPark false false))).any (fun t =>
      decide (parkOf t = (.waitAts, 0xFFFF0000, 0) ∧ t.ats.length = 1)) = true ∧
    (nextOf (exec (.ld ⟨.v 5, 10, some 2, .b32, .em, false, 0⟩) (sPark true false))).any (fun t =>
      decide (parkOf t = (.parked, 0xFFFF0000, 1))) = true := by decide +kernel

/-- The checks of a word of 4-byte accesses at s10 + v2. -/
def wordChecks (s : State) (k : AccKind) (rd wr : Bool) : Checked :=
  s.checkAll ((here s).gang.party s) (here s).grp k rd wr 4 4 (eas s 10 0)

/-- The checks of a signal operation on the missing page. -/
def sigChecks (s : State) : Checked := s.checkAll ((here s).gang.party s) (here s).grp .plain true true 8 8 [(0, 0x101000)]

theorem test_witness_unanswered :
    isWait (wordChecks (sPark false false) .plain true false) = true ∧ isWait (wordChecks (sPark false false) .plain false true) = true ∧
    isWait (wordChecks (sPark false false) (.atomic false) true true) = true ∧ isWait (sigChecks (sPark false false)) = true ∧
    split (wordChecks (sPark true false) .plain true false) = some (16, 16) ∧
    split (wordChecks (sPark true true) .plain false true) = some (16, 16) ∧
    split (wordChecks (sPark true true) (.atomic false) true true) = some (16, 16) ∧
    split (sigChecks (sPark true true)) = some (0, 1) := by decide +kernel

/-- The last word of a local memory of 2^16 bytes, and one beyond it (R155). -/
theorem test_local_limit :
    (sL.reach ((here sL).gang.party sL) .plain false 0x200000000000FFFC 4 4 0 = .at (localAddr wordUid 0xFFFC)) ∧
    isBad (sL.checkAll ((here sL).gang.party sL) (here sL).grp .plain true false 4 4 [(0, 0x2000000000010000)]) = true ∧
    isBad (sL.checkAll ((here sL).gang.party sL) (here sL).grp .plain true false 8 8 [(0, 0x200000000000FFFC)]) = true := by decide

/-- A gang's galley that holds n lines; 2,048 fill it. -/
def sGalley (n : Nat) : State := edit sL (fun g => { g with
  galley := { bytes := (List.range n).map (fun k => (0x100000 + 128 * k, 0)), marks := [] } })

theorem test_witness_Stores :
    (Issues sL (here sL) false false ∧ Issues sC (here sC) true false) ∧
    isBad (sL.checkAll ((here sL).gang.party sL) (here sL).grp .plain false true 4 4 (eas sL 10 2)) = true ∧
    (allHit (sL.checkAll ((here sL).gang.party sL) (here sL).grp .plain false true 4 4 (eas sL 10 0))).any (fun hits =>
      (here sL).gang.storeOverflow hits == none) = true ∧ (here sL).run.replay = none :=
  ⟨⟨issues_of _ _ _ (by decide), issues_of _ _ _ (by decide)⟩, by decide +kernel⟩

theorem uniq_rising (a n : Nat) : uniq ((List.range n).map (a + ·)) = (List.range n).map (a + ·) := by
  induction n with
  | zero => rfl
  | succ n ih =>
    unfold uniq at ih ⊢
    rw [List.range_succ, List.map_append, List.foldl_append, ih]
    simp

theorem galley_lines (n : Nat) : linesOf (gangOf (sGalley n)).galley.bytes = (List.range n).map (0x2000 + ·) := by
  have h : (gangOf (sGalley n)).galley.bytes = (List.range n).map (fun k => (0x100000 + 128 * k, (0 : Byte))) := rfl
  rw [h, ← uniq_rising, linesOf, List.map_map]
  congr 1
  apply List.map_congr_left
  intro k _
  simp only [Function.comp_apply, lineOf]
  omega

/-- R159: a line more than a full galley holds; 2,048 lines fill it. -/
theorem test_witness_Stores_overflow (n : Nat) (hn : n = 2048) :
    (gangOf (sGalley n)).storeOverflow [⟨0, 0x2000000000000000, localAddr wordUid 0⟩] = some 0x2000000000000000 := by
  unfold Gang.storeOverflow
  rw [galley_lines]
  have h1 : isScratch 0x2000000000000000 = false := by decide
  have h2 : ((List.range n).map (0x2000 + ·)).contains (lineOf (localAddr wordUid 0)) = false := by
    rw [List.contains_eq_any_beq, List.any_eq_false]
    intro x hx
    obtain ⟨k, hk, rfl⟩ := List.mem_map.mp hx
    have hk := List.mem_range.mp hk
    have h3 : lineOf (localAddr wordUid 0) = 9223372036854841344 := by decide
    rw [h3, beq_iff_eq]
    omega
  have h7 : gangLines = 2048 := rfl
  subst hn
  simp only [hitLines, uniq, Hit.inGalleys, h1, h2, List.filter_cons, List.filter_nil, Bool.not_false, Bool.and_self, if_true,
    List.map_cons, List.map_nil, List.foldl_cons, List.foldl_nil, List.length_map, List.length_range, h7]
  rfl

/-- The first byte of the scratch of lane 0, behind the record in its block's context area (R212). -/
def sScratch : Nat := ((here sL).gang.party sL).scratch0

/-- R157, R160: `st.b32 v1, [s10 + v2]` puts lane 1's bytes at offset 4; scratch bytes go to memory at once. -/
theorem test_witness_StoredBytes :
    (sL.gang? wordUid).isSome = true ∧ Hit.inGalleys ⟨0, 0x2000000000000004, localAddr wordUid 4⟩ = true ∧
    Hit.inGalleys ⟨0, 0x4000000000000000, sScratch⟩ = false ∧
    (nextOf (exec (.st ⟨.v 1, 10, some 2, .b32, .em, false, 0⟩) sL)).any (fun t =>
      Store.get? (gangOf t).galley.bytes (localAddr wordUid 4) == some 2 && t.readByte (localAddr wordUid 4) == 0) = true ∧
    (nextOf (exec (.sts ⟨.imm 7, 12, none, .b8, .em, false, 0⟩) { sL with
      tlb := [⟨0, 1, 0, 30, true, 0x40000000, true, true⟩] })).any (fun t => t.readByte (0x40000000 + sScratch) == 7) = true := by
  decide +kernel

theorem test_witness_Atomics :
    Issues sL (here sL) false false ∧ sL.heldRemote ((eas sL 10 0).map (·.2)) = false ∧
    isBad (sL.checkAll ((here sL).gang.party sL) (here sL).grp (.atomic true) true true 4 4 (eas sL 10 1)) = true ∧
    (allHit (sL.checkAll ((here sL).gang.party sL) (here sL).grp (.atomic false) true true 4 4 (eas sL 10 0))).isSome = true ∧
    (here sL).run.replay = none :=
  ⟨issues_of _ _ _ (by decide), by decide⟩

/-- R179's example: lanes 0, 2, 5 add lane + 1 to 100: old values 100, 101, 104, and 110 is left. -/
theorem test_witness_AtomicRequests :
    let a : AtomOp := { kind := 0, op := 0, ty := .n32, scope := .device, dst := some 5, reqs := [] }
    a.run 100 ⟨0, 0, 0, [(0, 1, 0), (2, 3, 0), (5, 6, 0)], false, false⟩ = (110, [.v 5 0 100, .v 5 2 101, .v 5 5 104]) ∧
    a.run 7 ⟨0, 0, 0, [(1, 2, 0), (3, 4, 0)], false, false⟩ = (13, [.v 5 1 7, .v 5 3 9]) ∧
    atomCombine .i8 1 0xFF 0x01 = 0xFF ∧ atomCombine .n8 1 0xFF 0x01 = 0x01 ∧ atomCombine .n8 0 0xFF 0x01 = 0 ∧
    ((atomReqs 0 [⟨0, 8, 8⟩, ⟨1, 16, 16⟩, ⟨2, 8, 8⟩] (fun k => BitVec.ofNat 64 k) (fun _ => 0)).map (fun r => (r.addr, r.lanes.length)))
      = [(8, 2), (16, 1)] := by decide

/-- Seven and eight save points. -/
def sMarks (n : Nat) : State := edit sC (fun g => { g with galley := { bytes := [], marks := List.replicate n ⟨[], false, true, false, [], []⟩ } })
def sBlockMarks (n : Nat) : State := { s0 with blocks := s0.blocks.map (fun (b : Block) =>
  { b with galley := { bytes := [], marks := List.replicate n ⟨[], false, true, false, [], []⟩ } }) }
def sDetC : State := editRun sDet (fun u => { u with collected := true })

theorem test_witness_CommitsAndWaits :
    (Issues sC (here sC) true false ∧ Issues sDetC (here sDetC) true false ∧ Issues (sMarks 7) (here (sMarks 7)) false false ∧
      Issues (sMarks 8) (here (sMarks 8)) false false ∧ Issues (sBlockMarks 8) (here (sBlockMarks 8)) false false) ∧
    (here sDetC).commitFaults sDetC 3 = true ∧ (here sC).commitFaults sC 3 = false ∧ sC.domainPending = none ∧
    (here sC).gang.dlist = [] ∧ (here (sMarks 7)).gang.galley.marks.length = 7 ∧ (here (sMarks 8)).gang.galley.marks.length = 8 ∧
    ((sBlockMarks 8).block? wordUid).any (fun b => b.galley.marks.length == 8) = true ∧
    (here s0).gang.count .ld ≤ (here s0).gang.scalar32 0 (.imm 0) ∧ (here s0).gang.errs = [] :=
  ⟨⟨issues_of _ _ _ (by decide), issues_of _ _ _ (by decide), issues_of _ _ _ (by decide), issues_of _ _ _ (by decide),
    issues_of _ _ _ (by decide)⟩, by decide⟩

/-- One load outstanding: `waitcnt ld, 0` does not pass (R50). -/
theorem test_waitcnt_holds :
    let s := edit s0 (fun g => g.addOp (Op.make 5 .store (some .ld) none 0))
    Issues s (here s) false false ∧ (here s).gang.scalar32 0 (.imm 0) < (here s).gang.count .ld :=
  ⟨issues_of _ _ _ (by decide), by decide⟩

theorem test_witness_CommitDetaches : sL.ctx? = some (here sL) := by decide

/-- Barrier 3 of the block with 4 members, one arrival by this gang, phase 2; 22 of no block. -/
def sBar (b : Bar) : State := { s0 with blocks := s0.blocks.map (fun (x : Block) => { x with bars := [b] }) }
def bar3 (arrived : Slices) (last : Option Nat) (bytes : Int) : Bar :=
  { num := 3, members := 4, arrivals := 0, bytes := bytes, phase := 2, gangs := [⟨wordUid, arrived, false, true, last⟩] }

def sBarC (b : Bar) : State := editRun (sBar b) (fun u => { u with collected := true })

theorem test_witness_BarrierWords :
    (Issues s0 (here s0) false false ∧ Issues (sBar (bar3 0 none 0)) (here (sBar (bar3 0 none 0))) false false ∧
      Issues (sBarC (bar3 0 none 0)) (here (sBarC (bar3 0 none 0))) true false ∧
      Issues (sBar (bar3 1 (some 3) 0)) (here (sBar (bar3 1 (some 3) 0))) false false) ∧
    (here s0).bar? s0 3 = none ∧ ((here (sBar (bar3 0 none 0))).bar? (sBar (bar3 0 none 0)) 3).isSome = true ∧
    (here (sBar (bar3 0 none 0))).gang.arrivalPending 3 = 0 ∧ ((bar3 1 none 0).gang wordUid).arrived &&& 0xF ≠ 0 ∧
    ((bar3 0 none 0).gang wordUid).arrived &&& 0xF = 0 ∧ (here (sBarC (bar3 0 none 0))).commitFaults (sBarC (bar3 0 none 0)) 1 = false ∧
    ((bar3 0 none 0).gang wordUid).last = none ∧ ((bar3 0 (some 2) 0).gang wordUid).last = some 2 ∧
    ((bar3 0 (some 3) 0).gang wordUid).last = some 3 ∧ (bar3 0 none 0).phase = 2 :=
  ⟨⟨issues_of _ _ _ (by decide), issues_of _ _ _ (by decide), issues_of _ _ _ (by decide), issues_of _ _ _ (by decide)⟩, by decide⟩

/-- R185: 2^47 - 1 expected bytes are held, one more is misuse. -/
theorem test_barx_limit :
    (nextOf (exec (.barx ⟨.v 0, .imm 1, .v 0, 3, .gang⟩) (sBar (bar3 0 none (2 ^ 47 - 2))))).any (fun t =>
      (t.block? wordUid).any (fun b => b.bars.any (fun x => x.bytes == 2 ^ 47 - 1))) = true ∧
    (nextOf (exec (.barx ⟨.v 0, .imm 1, .v 0, 3, .gang⟩) (sBar (bar3 0 none (2 ^ 47 - 1))))).any (fun t =>
      (t.grid? wordUid).any (fun g => g.aborted)) = true := by decide

/-- R183: all four slices of a gang make one arrival; the fourth arrival completes the phase. -/
theorem test_witness_BarrierPhases :
    ((bar3 0 none 0).arrive wordUid 7 0xF).arrivals = 0 ∧ ((bar3 7 none 0).arrive wordUid 8 0xF).arrivals = 1 ∧
    Bar.complete { bar3 0 none 0 with arrivals := 4 } = true ∧ Bar.complete { bar3 0 none 1 with arrivals := 4 } = false ∧
    (bar3 0xF none 0).flip.phase = 3 ∧ ((bar3 0xF none 0).flip.gang wordUid).arrived = 0 ∧ ((bar3 0xF none 0).withdraw wordUid).members = 3 := by
  decide

/-- A gang with a second group elsewhere; the grid ten levels deep. -/
def sHalf : State := edit s0 (fun g => { g with groups := g.groups.map (fun (r : Group) => { r with slices := 3 }) ++ [Group.at 0xC 0x30] })
def sDeep : State := { s0 with grids := s0.grids.map (fun (x : Grid) => { x with depth := 10 }) }

/-- The allotment is 64 of a partition's 1,024 registers of 32 lanes: 8 and 32 blocks of 8, 0 and 33 beyond the range. -/
theorem test_witness_AllotLaunchSignal :
    (Issues s0 (here s0) false false ∧ Issues sHalf (here sHalf) false false ∧ Issues sDeep (here sDeep) false false ∧
      Issues sL (here sL) false false) ∧
    ((here sHalf).gang.live &&& ~~~ (here sHalf).grp.slices ≠ 0 ∧ (here s0).gang.live &&& ~~~ (here s0).grp.slices = 0) ∧
    ((here s0).allotNow.1 = 64 ∧ s0.partUsed 0 0 = 8192 ∧ (here s0).gang.scalar32 0 (.imm 8) = 8 ∧ (here s0).gang.scalar32 0 (.imm 32) = 32 ∧
      (8 * 32 - 64) * 32 * 4 ≤ 131072 - s0.partUsed 0 0) ∧
    ((here sDeep).gang.depth sDeep = 10 ∧ (here s0).gang.depth s0 = 1) ∧
    (here sL).gang.scalar64 0 (.s 10) = 0x2000000000000000 ∧ (here sL).gang.scalar64 0 (.s 8) = 0x804 ∧
    isBad (sL.checkAll ((here sL).gang.party sL) (here sL).grp .plain true true 8 8 [(0, 0x804)]) = true ∧
    (allHit (State.checkAll { s0 with tlb := [⟨0, 1, 0, 12, true, 0x100000, true, true⟩] } ((here sL).gang.party sL) (here sL).grp .plain true true 8 8
      [(0, 0x800)])).isSome = true :=
  ⟨⟨issues_of _ _ _ (by decide), issues_of _ _ _ (by decide), issues_of _ _ _ (by decide), issues_of _ _ _ (by decide)⟩, by decide⟩

/-- `vralloc` GROW where another gang holds the rest of the partition gives 0; SHRINK to 8 registers gives 1 (R204). -/
theorem test_vralloc :
    sAfter (exec (.vralloc ⟨.s 5, .imm 32, .v 0, .v 0, .b8, 1⟩) { s0 with gangs := s0.gangs ++
      [{ gangOf s0 with uid := 17, reserve := 900 }] }) 5 = some 0 ∧
    isNext (exec (.vralloc ⟨.s 5, .imm 1, .v 0, .v 0, .b8, 0⟩) s0) = true := by decide

/-! ## Engine words -/

/-- Format words in s20:21 (I8 with I8) and s22:23 (F16 with F16). -/
def sM : State := edit s0 (fun g => (g.wrS64 20 0x0800000200000000).wrS64 22 0x5800001600000000)

def goes (p : Prep) : Bool :=
  match p with
  | .go _ _ => true
  | .bad _ _ => false

theorem test_witness_MatrixWords :
    (Issues sM (here sM) false false ∧ Issues sHalf (here sHalf) false false) ∧ (here sM).wholeGang = true ∧ (here sHalf).wholeGang = false ∧
    goes ((here sM).prepProd sM (.mma ⟨.v 16, .v 8, .imm 0, .s 20, .v 0, true, false⟩) .mma ⟨.v 16, .v 8, .imm 0, .s 20, .v 0, true, false⟩) = true ∧
    goes ((here sM).prepProd sM (.mmas ⟨.v 16, .v 8, .imm 0, .s 20, .s 0, false, false⟩) .mmas
      ⟨.v 16, .v 8, .imm 0, .s 20, .s 0, false, false⟩) = true ∧
    goes ((here sM).prepProd sM (.mmac ⟨.v 16, .v 8, .imm 0, .s 22, .v 0, false, true⟩) .mmac
      ⟨.v 16, .v 8, .imm 0, .s 22, .v 0, false, true⟩) = true ∧
    goes ((here sM).prepProd sM (.mmag ⟨.v 16, .v 8, .imm 0, .s 20, .imm 32, false, false⟩) .mmag
      ⟨.v 16, .v 8, .imm 0, .s 20, .imm 32, false, false⟩) = true ∧
    (here sM).gang.allot = 64 ∧ (here sM).gang.scalar32 0 (.imm 32) = 32 :=
  ⟨⟨issues_of _ _ _ (by decide), issues_of _ _ _ (by decide)⟩, by decide +kernel⟩

/-- `qhist` of 32 registers from v32 fills the allotment; from v40 it is beyond it (R80). -/
theorem test_qhist_range :
    (nextOf (exec (.qhist ⟨.v 0, .v 32, .imm 32, .v 0, 0⟩) sM)).any (fun t => (gangOf t).ops.length == 1) = true ∧
    (nextOf (exec (.qhist ⟨.v 0, .v 40, .imm 32, .v 0, 0⟩) sM)).any (fun t => (t.grid? wordUid).any (fun g =>
      g.fault.any (fun x => x.code == .regRange))) = true := by decide +kernel

/-- Requests from local to local memory: s14:15 local offset 0x100, s16:17 a device address, s18 = 3. -/
def sQ : State := edit sL (fun g => ((g.wrS64 14 0x2000000000000100).wrS64 16 0x1000).wrS 18 3)

def baseReq (kind sel : Nat) (dst src : W64) (count : Nat) (bar : Option Nat) : ReqOp :=
  { ReqOp.make kind sel with dst := dst, src := src, count := count, bar := bar }

theorem test_witness_RequestWords :
    (Issues sQ (here sQ) false false) ∧
    sQ.checkReq ((here sQ).gang.party sQ) (baseReq 0 0 0x2000000000000000 0x1000 256 none) = none ∧
    (sQ.checkReq ((here sQ).gang.party sQ) (baseReq 0 0 0x2000000000000000 0x1000 (2 ^ 32 - 3) none)).isSome = true ∧
    (sQ.checkReq ((here sQ).gang.party sQ) (baseReq 0 0 0x200000000000FF00 0x1000 257 none)).isSome = true ∧
    (here sQ).badBar sQ (some 3) = true ∧ (here sQ).badBar sQ none = false ∧ sQ.domainPending = none ∧
    sQ.checkReqEa ((here sQ).gang.party sQ) true (localEa 0) 64 (64 * 64) = none ∧
    (nextOf (exec (.rqlist ⟨.v 0, .s 0, .imm 1, .v 0, 0, 0, false, false⟩) sQ)).any (fun t => (gangOf t).count .req == 1) = true ∧
    (nextOf (exec (.rqlist ⟨.v 0, .s 0, .imm 0, .v 0, 0, 0, false, false⟩) sQ)).any (fun t =>
      (t.grid? wordUid).any (fun g => g.fault.any (fun x => x.code == .illegalInstruction))) = true :=
  ⟨issues_of _ _ _ (by decide), by decide⟩

/-! ## Compositor and debug words -/

/-- Queue 5 in slot 0 of compositor core 0, with a window; only lane 0 of the gang is in `em`; page 0 of PASID 1 is translated. -/
def queue5 (w : List Pkt) : Queue :=
  { qnum := 5, qcb := 0x400, pasid := 1, state := .mapped, slot := some 0, armed := false, base := 0, faultrec := 0x800, ctxpool := 0
    log2 := 4, prio := 0, priv := false, rdidx := 0, wridx := 0, fetch := 0, abort := false, hold := false, window := w, watches := []
    saved := false, age := 0, children := [] }

def pkt0 (ty : Nat) : Pkt :=
  { idx := 0, ty := ty, ord := 0, acq := 0, rel := 0, bar := false, irq := false, csig := 0, words := List.replicate 63 0, check := 0
    started := false, dispatched := false, done := false, aborted := false, seen := 0, grid := none }

def sK (w : List Pkt) : State := { edit sComp (fun g => { g with em := 1 }) with
  queues := [queue5 w], tlb := [⟨320, 1, 0, 12, true, 0x100000, true, true⟩] }

def okC {α : Type} (x : CRes α) : Bool :=
  match x with
  | .ok _ => true
  | _ => false

def illC {α : Type} (x : CRes α) : Bool :=
  match x with
  | .ill => true
  | _ => false

theorem test_witness_CompositorWords :
    (Issues (sK []) (here (sK [])) false false ∧ Issues (sK [pkt0 4]) (here (sK [pkt0 4])) false false) ∧
    laneList (here (sK [])).activeAll = [0] ∧ (here (sK [])).slotOf 0 = 0 ∧ okC ((sK []).fetchPacket 0) = true ∧
    okC ((sK [pkt0 3]).pktdone 0 0 0) = true ∧ illC ((sK []).pktdone 0 0 0) = true ∧ okC ((sK []).sigrmw 0 2 0 0x100 0) = true ∧
    okC ((sK []).qsave 0 0x400) = true ∧ illC (({ sK [] with queues := [{ queue5 [] with armed := true }] } : State).qsave 0 0x400) = true ∧
    okC (({ sK [] with queues := [{ queue5 [] with slot := none }] } : State).qload 0 0x400) = true ∧
    illC ((sK []).qload 0 0x400) = true ∧ okC ((sK [pkt0 4]).dispatchPacket 0 1 0) = true ∧ illC ((sK []).dispatchPacket 0 1 0) = true ∧
    okC ((sK []).qarm 0 true) = true ∧ illC ((sK []).qarm 1 true) = true ∧ (∀ d ∈ (sK []).dbgDomains, d.firmware = false) ∧
    ({ sK [] with wake0 := 1 } : State).wakeMask 256 ≠ 0 ∧ ({ sK [] with pending := [5] } : State).firstPending 6 = some 5 ∧
    (sK []).pending = [] ∧ (here (sK [])).run.collected = false :=
  ⟨⟨issues_of _ _ _ (by decide), issues_of _ _ _ (by decide)⟩, by decide⟩

/-- Queues 5 and 6 in slots 0 and 1, lanes 0 and 1 active. -/
def sK2 : State := { edit sComp (fun g => { g with em := 3 }) with
  queues := [queue5 [], { queue5 [] with qnum := 6, slot := some 1 }] }

/-- Lane 0 arms its queue in a transition of its own, and the word stays for lane 1 (R282, R285). -/
theorem test_compositor_lanes :
    laneList (here sK2).activeAll = [0, 1] ∧ (here sK2).slotOf 1 = 1 ∧ (here sK2).run.replaying = false ∧
    okC (compFold (fun k t => (t.qarm ((here sK2).slotOf k) true).bind fun r => .ok ([], r.2)) [0, 1] sK2) = true ∧
    (nextOf (exec (.qarm ⟨.v 8, .v 0, .v 0, .v 0, 1⟩) sK2)).any (fun t => t.queues.map (fun q => q.armed) == [true, false] &&
      (gangOf t).groups.all (fun r => r.pend == 2 && r.at? == 0x10048)) = true := by decide

/-- A guest of the domain in slot 0 of proof core 40, halted or not; the handler of the core has the rights given. -/
def guest17 (halted : Bool) : Gang :=
  { gangOf s0 with uid := 17, gangid := 1, place := .guest 40 0 0, slots := [], groups := [Group.at 0xF 0x10040]
                   guest := some ⟨false, 0, halted, 1, none, [], false, false⟩ }

def sDbg (rights : BitVec 4) (halted : Bool) : State := { sHandler with
  gangs := sHandler.gangs ++ [guest17 halted]
  dbgDomains := [⟨false, 1, rights, 0x20000, 0, 0x1000, 0, 0, false⟩] }

def proof40 (s : State) : Proof := (s.proof? 40).getD default

/-- The handler with s8 and s9 given. -/
def sDbgS (halted : Bool) (x y : W32) : State := edit (sDbg 0xF halted) (fun g => (g.wrS 8 x).wrS 9 y)

def guestOf (a : Answer) : Option Guest := (nextOf a).bind (fun t => (t.gang? 17).bind (fun g => g.guest))

theorem test_witness_DebugWords :
    (Issues s0 (here s0) false false ∧ Issues (sDbg 0xF true) (here (sDbg 0xF true)) false false ∧
      Issues (sDbg 0 true) (here (sDbg 0 true)) false false) ∧
    (here (sDbg 0xF true)).gang.place = .handler 40 ∧ ((sDbg 0xF true).proof? 40).isSome = true ∧
    (sDbg 0xF true).kernelRights (proof40 (sDbg 0xF true)).domain = 0xF ∧ (sDbg 0 true).kernelRights (proof40 (sDbg 0 true)).domain = 0 ∧
    (parseSelector 0x02040000).isSome = true ∧
    ((parseSelector 0x02040000).bind (fun sel => (sDbg 0xF true).dbgItem (proof40 (sDbg 0xF true)) sel)).isSome = true ∧
    (guest17 true).writable ⟨0, 1, 4, 0, false⟩ = true ∧ ((sDbg 0xF true).guestFor (proof40 (sDbg 0xF true)) 0).isSome = true ∧
    (guest17 true).halted = true ∧ (guest17 false).halted = false ∧
    Watch.ok { kind := 1, lo := 0x1000, hi := 0x1008, val := 0, ctrl := 0x30, queue := 0, gangs := 0, dom := 1 } = true :=
  ⟨⟨issues_of _ _ _ (by decide), issues_of _ _ _ (by decide), issues_of _ _ _ (by decide)⟩, by decide⟩

/-- What the debug words do to the halted guest in slot 0: an edit of its s4, a step, a request for its return (R307 to R309); a PC
unit, the trace switch and the value history of the core (R297 to R300). -/
theorem test_debug_words :
    (sDbg 0xF true).guestAt 40 0 = some (guest17 true) ∧ (guest17 true).pasid (sDbg 0xF true) = 1 ∧
    (guestOf (exec (.dbgwr ⟨.v 0, .s 8, .s 9, .v 0, 0⟩) (sDbgS true 0x02040000 7))).any (fun q => q.edits == [(0x02040000, 7)]) = true ∧
    (guestOf (exec (.dstep ⟨.v 0, .imm 0, .v 0, .v 0, 0⟩) (sDbgS true 0 0))).any (fun q => q.stepping && !q.halted) = true ∧
    (guestOf (exec (.dreturn ⟨.v 0, .imm 0, .v 0, .v 0, 0⟩) (sDbgS false 0 0))).any (fun q => q.retReq) = true ∧
    (nextOf (exec (.trctl ⟨.v 0, .imm 1, .v 0, .v 0, 1⟩) (sDbgS true 0 0))).any (fun t => (proof40 t).traced == 1) = true ∧
    (nextOf (exec (.wpset ⟨.v 0, .imm 3, .s 16, .v 0, 0⟩) (edit (sDbg 0xF true) (fun g =>
      (g.wrS 16 0x10048).wrS 21 0x80)))).any (fun t => (proof40 t).pcs.any (fun w => w.1 == 3 && w.2.lo == 0x10048)) = true := by decide

/-- `dbgrd` of the guest's s4 (R308); the same without the right faults ACCESS_DENIED (R305) and ends the handling. -/
theorem test_dbgrd :
    sAfter (exec (.dbgrd ⟨.s 4, .s 8, .v 0, .v 0, 0⟩) (edit { sDbg 0xF true with gangs := (sDbg 0xF true).gangs.map (fun g =>
      if g.uid == 17 then { g.wrS 4 77 with fresh := [] } else g) } (fun g => g.wrS 8 0x02040000))) 4 = some 77 ∧
    (nextOf (exec (.dbgrd ⟨.s 4, .s 8, .v 0, .v 0, 0⟩) (sDbg 0 true))).any (fun t => (gangOf t).groups.all (fun r => r.status == .idle)) = true ∧
    (nextOf (exec (.dresume ⟨.v 0, .imm 0, .v 0, .v 0, 0⟩) (sDbg 1 true))).any (fun t => (t.gang? 17).any (fun g => !g.halted)) = true ∧
    (nextOf (exec (.vhrd ⟨.s 48, .imm 0, .v 0, .v 0, 0⟩) { sDbg 0xF true with proofs := (sDbg 0xF true).proofs.map (fun (p : Proof) =>
      if p.key == 40 then { p with hist := [⟨9, 0, 0, 0, 5, 6⟩] } else p) })).any (fun t =>
        (gangOf t).rawS 48 == 9 && (gangOf t).rawS 55 == 6) = true := by decide


/-! ## Transitions: scheduling and placement -/

/-- The whole gang stands at a clause header, outside a clause. -/
def sHead : State := edit s0 (fun g => { g with groups := [Group.at 0xF wordHdr] })

/-- A code image of two words at the gang's image, `sadd.i32 s4, s4, 1` in a clause of its own, translated for core 0. -/
def sImage : State := { sHead.writeBytes (cellsOf 0x100000 8 2 ++ cellsOf 0x100048 8 0x0090441301001800 ++ cellsOf 0x100050 8 1) with
  tlb := [⟨0, 1, 0x10000, 12, true, 0x100000, true, true⟩], oldLines := [] }

/-- Groups of one gang: slice 0 and the rest, with a status and an address each. -/
def sTwo (a b : GStatus) (pa pb : W64) : State := edit s0 (fun g => { g with
  groups := [{ Group.at 1 pa with status := a }, { Group.at 0xE pb with status := b }] })

/-- Both groups hold at one collective word, inside a clause. -/
def sColl : State := edit s0 (fun g => { g with groups := g.groups.flatMap (fun (r : Group) =>
  [{ r with slices := 1, status := .heldColl }, { r with slices := 0xE, status := .heldColl }]) })

def oneRole : Role := { entry := 0, gangs := 1, live := 32, lastLive := 32, allot := 64, prio := 0 }

/-- A grid of two blocks on die 0, each of one gang of 32 lanes, none dispatched yet. -/
def freshGrid : Grid := { wordGrid 0 with
  uid := 20, nextBlock := 0, desc := { emptyDesc with code := 0x10000, args := 0x500000004, grid := 2, measure := 32, cluster := 1, ftz := true, role0 := oneRole } }

def theShape : GangShape := ⟨0, 0, 32, 64, 0, 0⟩

theorem test_witness_GangStart :
    ((s0.startGang freshGrid wordUid 0 0 theShape).gangs.drop 1).map (fun g => (g.rawS 2, g.rawS 3, g.astatus, g.em)) =
      [(4, 5, 0x10000, 0xFFFFFFFF)] ∧ s0.gang? (gangOf s0).uid = some (gangOf s0) := by decide

theorem test_witness_SchedulerTransitions :
    (sImage.portFree 0 0 1 = true ∧ (((sImage.mergePart 0 0).keepReady 0 0 1).winner 0 0 1).any (fun c => c.grp.run.isNone && (match c.start with
      | .go hdr h words is => hdr == wordHdr && words == [0x0090441301001800] && is.length == 1 && (c.gang.latchedErr h.wait none false).isNone
      | _ => false)) = true) ∧
    (sTwo .ready .ready 0x30 0x30).mayStart (gangOf (sTwo .ready .ready 0x30 0x30)) = true ∧
    (gangOf (sTwo .ready .ready 0x30 0x30)).mergeAddr = some 0x30 ∧
    (sTwo .heldJoin .ready 0x30 0x30).mayStart (gangOf (sTwo .heldJoin .ready 0x30 0x30)) = true ∧
    ((gangOf (sTwo .heldJoin .ready 0x30 0x30)).testGroups.find? (fun j => j.status == .heldJoin &&
      (gangOf (sTwo .heldJoin .ready 0x30 0x30)).testGroups.all (fun r => r.slices == j.slices || r.meets j.pc))).isSome = true ∧
    sColl.mayStart (gangOf sColl) = true ∧ (gangOf sColl).testGroups.length = 2 ∧
    (∀ q ∈ (gangOf sColl).testGroups, q.status = .heldColl ∧ q.at? = 0x10048) ∧ (s0.core? 0).isSome = true := by decide +kernel

def sWaiting : State := { State.reset with grids := [freshGrid] }

/-- Every core of dies 0 to 3, or of die 0 alone, holds a block that leaves no local memory. -/
def fullGrid : Grid := { freshGrid with desc := { freshGrid.desc with localSize := 327680, quantum := 0 } }
def sFullDies (dies : Nat) : State := { State.reset with
  grids := [fullGrid]
  adverts := [⟨1, [(64, 32, 327680, [(16, 131072)])]⟩]
  blocks := (List.range dies).flatMap (fun d => (dieCores d).map (fun c => { wordBlock c with uid := 1000 + c, grid := 20, gangs := [] })) }

def isFresh (x : Option (Grid × Unit0)) : Bool :=
  match x with
  | some (_, .fresh _ _) => true
  | _ => false

theorem test_witness_PlacementTransitions_dispatch :
    (sWaiting.gridOrder.find? (fun gr => sWaiting.afterBad gr 0) = none ∧ sWaiting.nextUnit 0 = some (freshGrid, .fresh 0 1, [0])) ∧
    (isFresh ((sFullDies 1).passUnit 0) = true ∧ (sFullDies 1).bestDie fullGrid.desc [1, 2, 3] = 1 ∧
      (sFullDies 1).advertised 1 fullGrid.desc = 1) := by decide +kernel

theorem test_witness_PlacementTransitions_quantum :
    (sFullDies 4).grid? 20 = some fullGrid ∧ (sFullDies 4).unitsWaiting fullGrid = 2 ∧ (sFullDies 4).slicing fullGrid = 0 ∧
    ((sFullDies 4).victim fullGrid).isSome = true := by decide +kernel

/-- The block of the word, pre-empted; or saved; its gang retiring; or retired. -/
def editBlock (s : State) (f : Block → Block) : State := { s with blocks := s.blocks.map f }
def sPre : State := editBlock sHead (fun b => { b with preempt := true })
def sSaved : State := { editBlock (edit sHead (fun g => g.saved false)) (fun b => { b with stage := .suspended }) with
  grids := [{ wordGrid 0 with desc := { emptyDesc with role0 := oneRole }, nextBlock := 1 }] }
def sEnding : State := edit sHead (fun g => { g with exited := 0xFFFF })
def sGone : State := edit sHead (fun g => { g with place := .none, groups := [] })
def sExited : State := editBlock { sGone with gangs := [] } (fun b => { b with stage := .exited, gangs := [] })

theorem test_witness_PlacementTransitions_preempt :
    (((sPre.blocksOf wordUid).filter (fun x => x.stage == .resident)).length = 1 ∧
      (∀ x ∈ sPre.blocks, x.preempt = true ∧ ∀ g ∈ sPre.gangsOf x.uid, g.live ≠ 0 ∧ sPre.drained g = true) ∧
      ∀ g ∈ sPre.gangs, g.errs = []) ∧
    (sSaved.nextUnit 0).any (fun x => x.2.1 == .saved wordUid && x.2.2 == [0] && (sSaved.retranslate x.1 wordUid 0).1 &&
      ((sSaved.retranslate x.1 wordUid 0).2.rankBlock wordUid 0).isSome) = true := by decide +kernel

theorem test_witness_PlacementTransitions_retire :
    ((gangOf sEnding).retired = false ∧ (gangOf sEnding).live = 0 ∧ (gangOf sEnding).ops = [] ∧ (gangOf sEnding).dlist = [] ∧
      (gangOf sEnding).arriving = [] ∧ sEnding.recordWaits (gangOf sEnding) = false ∧ sEnding.grantOverflow (wordBlock 0) (gangOf sEnding).galley.bytes 0 = none ∧
      sEnding.block? wordUid = some (wordBlock 0)) ∧
    ((∀ g ∈ sGone.gangsOf wordUid, g.retired = true) ∧ (sGone.gangsOf wordUid).length = 1 ∧
      (((sGone.commitBlock (wordBlock 0)).dropBlock (wordBlock 0)).cluster? wordUid).isSome = true) ∧
    ((sExited.cluster? wordUid).isSome = true ∧ ∀ b ∈ sExited.blocksOf wordUid, b.stage = .exited) ∧
    (sExited.block? wordUid).isSome = true ∧ sExited.grid? wordUid = some (wordGrid 0) ∧ (∀ x ∈ sExited.grids, x.parent ≠ some wordUid) ∧
    sExited.clusterDone wordUid = true ∧ (wordGrid 0).parent = none ∧ (wordGrid 0).events = 0 := by decide +kernel

/-- One operation outstanding in the gang of the word. -/
def sOp (o : Op) : State := edit s0 (fun g => { g with ops := [o] })

def launchOp : Op := { Op.make 5 (.launch 7 [(0, 0x100)]) none none 0 with started := true }
def sLaunch : State := { sOp launchOp with
  grids := [{ wordGrid 0 with queue := 5 }], queues := [queue5 []], tlb := [⟨320, 1, 0, 12, true, 0x100000, true, true⟩] }

def engVal {α β : Type} (x : Eng (α × β)) : Option α :=
  match x with
  | .ok y => some y.1
  | _ => none

/-- A descriptor of zeros is refused; a queue with 64 children answers that its list is full (R216, R278). -/
theorem test_witness_PlacementTransitions_child :
    (gangOf sLaunch).op? 5 = some launchOp ∧ (gangOf sLaunch).grid? sLaunch = some { wordGrid 0 with queue := 5 } ∧
    sLaunch.queue? 5 = some (queue5 []) ∧
    engVal (sLaunch.answerChild 5 { wordGrid 0 with queue := 5 } (wordBlock 0) (queue5 []) 0x100) = some 2 ∧
    engVal (sLaunch.answerChild 5 { wordGrid 0 with queue := 5 } (wordBlock 0) { queue5 [] with children := List.range 64 } 0x100) = some 1 ∧
    engVal (sLaunch.answerChild 5 { wordGrid 0 with queue := 5 } (wordBlock 0) { queue5 [] with children := List.range 63 } 0x100) = some 2 := by
  decide +kernel

/-! ## Transitions: memory and engines -/

def loadOp : Op := Op.make 5 (.load .n32 false 7 [⟨0, localAddr wordUid 0, 5, localEa 0, [], false⟩]) (some .ld) none 0
def atom1 : AtomOp := { kind := 0, op := 0, ty := .n32, scope := .device, dst := some 7, reqs := [⟨0x1000, 6, 0x1000, [(0, 1, 0)], false, false⟩] }
def atomOp : Op := Op.make 6 (.atom atom1) (some .ld) none 0
def resultOp : Op := { Op.make 7 .result none (some 3) 0 with done := true, writes := [.v 7 0 9], sticky := 1 }

/-- A commit of one local byte that is to be granted. -/
def theCommit (cond : Bool) (due : Option Nat) : Detached :=
  { op := 5, bytes := [(localAddr wordUid 0, 1)], lvl := 0, cond := cond, arrive := none, due := due }
def sCommit (cond : Bool) (marks : List SavePoint) : State := edit (sOp (Op.make 5 (.commit (some 9)) (some .st) none 0)) (fun g =>
  { g with dlist := [theCommit cond none], galley := { bytes := [], marks := marks } })

/-- A save point that has read a line that another gang wrote at block level since. -/
def hitPoint : SavePoint := { bytes := [], hasReads := true, isOpen := true, overfull := false, reads := [3], writes := [(1, 3)] }

def sAbort : State := editGroup s0 (fun r => { r with status := .heldAbort 1 0 })

theorem test_witness_MemoryTransitions :
    ((gangOf (sOp loadOp)).op? 5 = some loadOp ∧ (sOp loadOp).lost (localAddr wordUid 0) = false) ∧
    ((sCommit false []).detTurn (gangOf (sCommit false [])) 5 none = true ∧
      (sCommit false []).grantOverflow (wordBlock 0) ((sCommit false []).grantBytes (wordBlock 0) (theCommit false none).bytes 0) 0 = none) ∧
    (hitPoint.failed (targetRank 0) = true ∧ (sCommit true [hitPoint]).detTurn (gangOf (sCommit true [hitPoint])) 5 none = true ∧
      (gangOf (sCommit true [hitPoint])).galley.marks = [hitPoint]) ∧
    ((gangOf (sOp atomOp)).op? 6 = some atomOp ∧ (gangOf (sOp atomOp)).atomReady ⟨0x1000, 6, 0x1000, [(0, 1, 0)], false, false⟩ 4 = true ∧
      (sOp atomOp).lost 0x1000 = false) ∧
    ((sAbort.abortGangs 1 wordUid).length = 1 ∧ ∀ g ∈ sAbort.abortGangs 1 wordUid, g.abortHold 1 = some 0 ∧ g.dlist = []) ∧
    ((gangOf (sOp resultOp)).op? 7 = some resultOp ∧ (sOp resultOp).duePassed (gangOf (sOp resultOp)) none = true ∧
      (gangOf (sOp resultOp)).oldest resultOp = true ∧ resultOp.landable = true) ∧
    (s0.ownerBlock wordUid 3).isSome = true ∧
    (let s := sBar { bar3 0xF none 0 with arrivals := 4 };
      (s.block? wordUid).any (fun b => s.bar? b 3 == some { bar3 0xF none 0 with arrivals := 4 }) = true) := by decide +kernel

/-- One item on lane 4 to device 2, reached or not. -/
def sItem (cut : List Nat) : State := { s0 with
  lanes := [⟨1, 2, 4, none, [.store wordUid 5 [(remoteAddr 2 0x1000, 7)]]⟩], unreachable := cut }

/-- A commit that falls due at launch clock 77, or 78. -/
def sDue (k : Nat) : State := edit sDet (fun g => { g with dlist := [theCommit false (some k)] })

theorem test_witness_MemoryTransitions_fabric :
    ((sItem []).lanes.find? (fun l => l.src == 1 && l.dst == 2 && l.lane == 4)).isSome = true ∧
    (sItem []).unreachable.contains 2 = false ∧ (sItem [2]).unreachable.contains 2 = true ∧
    ((sDue 77).root? wordUid).any (fun r => ((sDue 77).firstDue wordUid).any (fun d => d.due ≤ r.clock)) = true ∧
    ((sDue 78).root? wordUid).any (fun r => ((sDue 78).firstDue wordUid).any (fun d => r.clock < d.due)) = true := by decide +kernel

theorem test_witness_LandingEffect :
    (sOp resultOp).gang? wordUid = some (gangOf (sOp resultOp)) ∧ (gangOf (sOp resultOp)).uid = wordUid ∧
    (gangOf (sOp resultOp)).isGuest = false ∧ resultOp.kind = .result ∧ resultOp.err = none ∧
    (gangOf (sOp resultOp)).joined.contains 7 = false ∧ (∀ p ∈ (gangOf (sOp resultOp)).ops, p.id ≠ resultOp.id → p.flag ≠ some 3) ∧
    ∀ r ∈ (gangOf (sOp resultOp)).groups, ∀ u, r.run = some u → u.header.fa ≠ some 3 ∧ u.header.fb ≠ some 3 :=
  ⟨by decide, by decide, by decide, by decide, by decide, by decide, by decide, by
    intro r hr u hu
    have h : (gangOf (sOp resultOp)).groups.all (fun r => match r.run with
      | some u => u.header.fa != some 3 && u.header.fb != some 3
      | none => true) = true := by decide
    have h2 := List.all_eq_true.mp h r hr
    rw [hu] at h2
    simpa using h2⟩

/-! ## Transitions: engines, translation -/

/-- The core of the gang with its engines' queues. -/
def editCore (s : State) (f : Core → Core) : State := { s with cores := s.cores.map (fun (c : Core) => if c.key == 0 then f c else c) }

def theMat : MatOp := { ins := .qclr ⟨.v 16, .v 0, .imm 0, .v 0, 0⟩, src := [], b := 0, c := 0, e := 0, own := [], table := [], landBytes := [] }
def matOp : Op := Op.make 8 (.matrix theMat) (some .mx) none 0
def sMat : State := editCore (sOp matOp) (fun c => { c with mq := [(0, wordUid, 8)] })

/-- A copy of 16 bytes from device page 0 to local memory, with a signal in local memory. -/
def theCopy (moved : List Nat) (sig : Option (W64 × W64)) : ReqOp :=
  { baseReq 0 0 0x2000000000000000 0x1000 16 none with fetched := true, moved := moved, sig := sig }
def reqOpOf (r : ReqOp) : Op := Op.make 9 (.request r) (some .req) none 0
def sReq (r : ReqOp) : State := { editCore (sOp (reqOpOf r)) (fun c => { c with rq := [(wordUid, 9)] }) with
  tlb := [⟨512, 1, 0x1000, 12, true, 0x100000, true, true⟩] }

def engOk {α : Type} (x : Eng α) : Bool :=
  match x with
  | .ok _ => true
  | _ => false

theorem test_witness_EngineTransitions :
    ((sMat.core? 0).any (fun k => k.mq.find? (fun e => e.1 == 0) == some (0, wordUid, 8)) = true ∧
      (gangOf sMat).op? 8 = some matOp ∧ sMat.duePassed (gangOf sMat) none = true) ∧
    ((sReq (theCopy [] none)).reqEntry 0 9 reqStarted = some (wordUid, gangOf (sReq (theCopy [] none)), reqOpOf (theCopy [] none), theCopy [] none) ∧
      (theCopy [] none).units = 1 ∧ (sReq (theCopy [] none)).countOver wordUid none 16 = false ∧
      engOk ((sReq (theCopy [] none)).moveUnit wordUid 9 0 (gangOf (sReq (theCopy [] none))) (theCopy [] none)) = true) ∧
    (let r := theCopy [0] (some (0x2000000000000100, 7));
      r.signalDue = true ∧ (sReq r).reqEntry 0 9 (fun _ _ => true) = some (wordUid, gangOf (sReq r), reqOpOf r, r) ∧
        engOk ((sReq r).performSignal wordUid 9 (gangOf (sReq r)) r) = true) ∧
    (let r : ReqOp := { baseReq 0 0 0 0 0 none with block := some 0x40, fetched := false };
      (sReq r).reqHead 0 = some (wordUid, gangOf (sReq r), reqOpOf r, r) ∧ (sReq r).domainPending = none ∧
        (parseBlock ((List.range 64).map (fun k => (sReq r).seenByte wordUid (localAddr wordUid (0x40 + k)))) 0x40 none).any (fun q =>
          (sReq r).checkReq ((gangOf (sReq r)).party (sReq r)) q == none && q.bar == none) = true) := by decide +kernel

/-- The gang has a handler and a latched fault; nothing has trapped. -/
def sLatched : State := edit s0 (fun g => { g with tvec := 0x20000, latched := [⟨0xF, .misaligned, 5, 0x10048, 1, some 0x10040, [], none⟩] })
def sAts : State := { s0 with
  ats := [⟨1, 0x3000, true, [.core 0], true⟩], pri := [⟨1, 0x3000, true, [.core 0], true⟩], invals := [⟨1, 0, 0x1000, [], [], []⟩] }

theorem test_witness_TranslationTransitions :
    ((gangOf sLatched).trap = none ∧ (gangOf sLatched).halted = false ∧ sLatched.preempting (gangOf sLatched) = false ∧
      (∀ b, sLatched.block? (gangOf sLatched).block = some b → b.stage = .resident) ∧ (gangOf sLatched).tvec.toNat / 256 ≠ 0 ∧
      (gangOf sLatched).nextLatched.any (fun l => (Gang.group? { gangOf sLatched with latched := [] } (lowSlice l.slices)).isSome) = true) ∧
    (sAts.ats.find? (fun a => a.asks 1 0x3000 true && a.sent)).isSome = true ∧
    ((2 ^ 39 - 2 ^ 12) % 2 ^ 12 = 0 ∧ 2 ^ 39 - 2 ^ 12 + 2 ^ 12 ≤ dramBytes ∧ dramBytes < 2 ^ 39 + 2 ^ 12 ∧ (2 ^ 39 : Nat) % 2 ^ 12 = 0) ∧
    (sAts.pri.find? (fun p => p.asks 1 0x3000 true && p.sent)).isSome = true ∧ sAts.tornDown 1 = false ∧
    (∀ c ∈ sAts.clusters, ∀ b ∈ sAts.blocksOf c.uid, b.stage ≠ .suspended) ∧
    (sAts.invals.find? (fun i => i.pasid == 1 && i.lo == 0 && i.hi == 0x1000)).any (fun i => sAts.invalDone i) = true :=
  ⟨⟨by decide, by decide, by decide, fun b h => by
    have h2 : (sLatched.block? (gangOf sLatched).block).all (fun b => b.stage == .resident) = true := by decide
    rw [h] at h2
    simpa using h2, by decide, by decide⟩, by decide +kernel⟩

/-- The last frame of DRAM is filled in; the one beyond it does not exist (R1). -/
theorem test_ats_frames :
    (nextOf (exec (.atsCompletion 1 0x3000 (true, .page 12 true (2 ^ 39 - 2 ^ 12) true true)) sAts)).any (fun t => t.tlb.any (fun x =>
      x.page == 0x3000 && x.frame == 2 ^ 39 - 2 ^ 12)) = true ∧
    isNext (exec (.atsCompletion 1 0x3000 (true, .page 12 true (2 ^ 39) true true)) sAts) = false := by decide +kernel

/-! ## Transitions: compositor, proof cores -/

/-- The device has started, its driver accepts every offered feature. -/
def started (s : State) : State := { s with host := { s.host with startStat := 0x2001, featAcc := 0xFFF } }

def waitPkt : Pkt := { pkt0 1 with started := true, dispatched := true, grid := some wordUid }
def sPkt : State := { sK [waitPkt] with grids := [{ wordGrid 256 with aborted := true, fault := none }], blocks := [] }

/-- The compositor's group sleeps in `pendscan`; a code bank switch is asked for. -/
def sScan : State := { editGroup (sK [waitPkt]) (fun r => { r with status := .sleepScan }) with
  pending := [5], bank0 := { Bank.reset with switching := true, validB := true } }

theorem test_witness_CompositorTransitions :
    ((started (sK [])).ready = true ∧ (started (sK [])).queue? 5 = some (queue5 []) ∧ (queue5 []).state = .mapped ∧
      ∀ d ∈ (started (sK [])).dbgDomains, d.firmware = false) ∧
    (sPkt.queue? 5 = some (queue5 [waitPkt]) ∧ (queue5 [waitPkt]).pkt? 0 = some waitPkt ∧
      (waitPkt.grid.bind sPkt.grid?).any (fun gr => sPkt.gridDone gr && engOk (sPkt.completePacket (queue5 [waitPkt]) waitPkt gr.aborted gr.record?)) = true) ∧
    sScan.pending ≠ [] ∧
    sScan.queues.filter (fun q => match q.slot with
      | some k => slotCore k == 0 % 2
      | none => true) = [queue5 [waitPkt]] ∧
    ((sScan.bankOf (256 + 0 % 2)).switching = true ∧
      (∃ g ∈ sScan.gangs, g.place = .compositor (256 + 0 % 2) ∧ g.liveGroups ≠ [] ∧ ∀ r ∈ g.liveGroups, r.status = .sleepScan) ∧
      ∀ q ∈ sScan.queues, ∀ p ∈ q.window, p.started = true ∨ p.done = true) := by decide +kernel

/-- A gang of press core 0 that is to be pulled to any proof core; every guest slot of the die free, or taken. -/
def sPull (full : Bool) : State := { edit sHead (fun g => { g with pull := some ⟨15, 0, 0, 0, true, 0, none⟩ }) with
  gangs := (edit sHead (fun g => { g with pull := some ⟨15, 0, 0, 0, true, 0, none⟩ })).gangs ++ (if full then
    (List.range 16).map (fun k => { guest17 false with uid := 100 + k, place := .guest (40 + k / 4) (k % 4) 0 }) else []) }

/-- A guest that is to return, with an arrival under way. -/
def homing : Gang := { guest17 false with guest := some ⟨false, 0, false, 1, none, [], false, true⟩, arriving := [(3, 1, 0)] }
def sGuest (g : Gang) : State := { sDbg 0xF false with gangs := sHandler.gangs ++ [g] }

/-- A PC event of guest 17 waits. -/
def pcEvent : DbgEvent := ⟨1, 0, 0, 17, 0x10048, 0, 0x10048, 0, 0⟩
def sEvent : State := { sDbg 0xF true with proofs := (sDbg 0xF true).proofs.map (fun (p : Proof) =>
  if p.key == 40 then { p with events := [pcEvent] } else p) }

/-- A token of zeros waits for its verification. -/
def sToken : State := { s0 with unlockVerify := some ⟨0, 0, 0, 0, none⟩ }

theorem test_witness_ProofTransitions :
    ((gangOf (sPull true)).pull = some ⟨15, 0, 0, 0, true, 0, none⟩ ∧ (gangOf (sPull true)).live ≠ 0 ∧
      (sPull true).guestPlace (dieOf (gangOf (sPull true)).home.1) 15 (gangOf (sPull true)) = none ∧
      (sPull false).guestPlace (dieOf (gangOf (sPull false)).home.1) 15 (gangOf (sPull false)) = some (40, 0, 0) ∧
      (gangOf (sPull false)).trap = none ∧ (sPull false).holdsCore (gangOf (sPull false)) = true ∧
      (sPull false).preempting (gangOf (sPull false)) = false ∧ (sPull false).drained (gangOf (sPull false)) = true ∧
      (gangOf (sPull false)).errs = []) ∧
    ((sGuest { homing with arriving := [] }).gang? 17 = some { homing with arriving := [] } ∧
      ((sGuest { homing with arriving := [] }).setGang (homing.applyShadow)).drained { homing.applyShadow with arriving := [] } = true ∧
      ((sGuest homing).setGang homing.applyShadow).drained homing.applyShadow = false ∧
      homing.groups.all ((sGuest homing).groupHalted homing) = true ∧ homing.errs = [] ∧
      homing.guest.any (fun q => q.retReq) = true ∧ (sGuest homing).gang? 17 = some homing ∧ homing.arriving = [(3, 1, 0)] ∧
      homing.isGuest = true) ∧
    ((sDbg 0xF false).gang? 17 = some (guest17 false) ∧ (guest17 false).block = (gangOf (sDbg 0xF false)).block) ∧
    ((proof40 sEvent).current = none ∧ (proof40 sEvent).events = [pcEvent] ∧
      ((sEvent.setProof { proof40 sEvent with events := [] }).kernelDomain (sEvent.eventDomain pcEvent)).isSome = true ∧
      ((sEvent.setProof { proof40 sEvent with events := [] }).handlerOf 40 (sEvent.eventDomain pcEvent)).isSome = true) ∧
    ((∀ d ∈ sEvent.dbgDomains, d.closing = false) ∧ (sEvent.kernelDomain ((1 : W64).toNat % 2 ^ 20)).isSome = true ∧
      (1 <<< 20 : W64).getLsbD 20 = true ∧ (1 : W64).getLsbD 20 = false) ∧
    ((editCore (started (sDbg 1 true)) (fun c => { c with trigPasid := 1 })).feature 2 = true ∧ isPressCore 0 = true ∧
      ((started (sDbg 1 true)).kernelRights 1).getLsbD 0 = true) ∧
    sToken.unlockVerify.any (fun v => v.token.isNone && sToken.tokenStatus (sToken.hostBytes v.addr 64) true != 0) = true := by decide +kernel

/-- The vectors of R317 are open (R315). -/
def unmasked (s : State) : State := { s with host := { s.host with msixTable := (List.range 5).map (fun k => (k, 0)) } }

/-- A token of kernel class (SCOPE 0) or of the firmware, nonce 1, right SET_HANDLER alone, a sink of 64 KiB (R304). -/
def goodToken (scope : Byte) : List Byte :=
  [1, scope, 0, 1, if scope = 0 then 1 else 0, 0, 0, 0, 1] ++ List.replicate 8 0 ++ [if scope = 0 then 1 else 0] ++ List.replicate 16 0 ++ [1]

def sUnlock (scope : Byte) (token : Option (List Byte)) : State :=
  { s0.hostWriteBytes 0x200 (goodToken scope) with
    unlockVerify := some ⟨0x100, 0x200, 0, 0, token⟩
    flash := { s0.flash with nonceKernel := 0, nonceFirmware := 0, deviceId := 0 } }

/-- R305: the token verifies, and takes effect at once where its domain was not unlocked. -/
theorem test_witness_ProofTransitions_unlock :
    (∀ scope ∈ [(0 : Byte), 1], (sUnlock scope none).tokenStatus ((sUnlock scope none).hostBytes 0x200 64) true = 0 ∧
      fieldOf ((sUnlock scope none).hostBytes 0x200 64) 1 1 = scope.toNat) ∧ (sUnlock 0 none).dbgDomains = [] ∧
    (sUnlock 0 none).unlockVerify.any (fun v => ((sUnlock 0 none).endUnlock v 0).dbgDomains.any (fun d => !d.firmware && d.pasid == 1)) = true ∧
    (sUnlock 0 none).tokenStatus (goodToken 0) false = 3 ∧ (sUnlock 0 none).tokenStatus [] true = 2 ∧
    (nextOf (exec (.unlockVerifyDone true) (unmasked (sUnlock 0 (some (goodToken 0 ++ List.replicate 29 0)))))).any (fun t =>
      t.dbgDomains.length == 1 && t.host.msix == [0]) = true := by decide +kernel

/-! ## Transitions: host -/

/-- A command is accepted while DONE is 1; command 2 has run; a firmware image of zeros waits for its verification. -/
def sBusy (pend : Option (Byte × Byte)) : State :=
  { started s0 with host := { (started s0).host with done := false, hcmd := 0x0207000000000000, pending := pend } }
def sFw : State := { s0 with fwVerify := some ⟨0, 0, 0, 3, none⟩ }

theorem test_witness_HostCommands :
    (started s0).ready = true ∧ (started s0).host.done = true ∧ (sBusy none).ready = true ∧ (sBusy none).host.done = false ∧
    (sBusy (some (0, 7))).host.pending = some (0, 7) ∧ (sBusy (some (0, 7))).host.hcmd.toNat / 2 ^ 56 = 2 ∧
    sFw.fwVerify.any (fun v => sFw.flash.verify (sFw.imageAt v.addr) 1 true != 0) = true := by decide +kernel

/-- A signed image of KIND 1 and version 5 at host address 0x200 (R336). -/
def sFwGood : State := { s0.hostWriteBytes 0x200 ([0x47, 0x49, 0x56, 0x53, 1, 0, 0, 0, 5]) with
  fwVerify := some ⟨0x100, 0x200, 0, 1, none⟩, flash := { s0.flash with minVersion := [] } }

theorem test_witness_HostCommands_image :
    sFwGood.flash.verify (sFwGood.imageAt 0x200) 1 true = 0 ∧ sFwGood.flash.verify (sFwGood.imageAt 0x200) 1 false = 3 ∧
    sFwGood.flash.verify (sFwGood.imageAt 0x300) 1 true = 2 ∧
    ({ sFwGood.flash with minVersion := [(1, 6)] } : Flash).verify (sFwGood.imageAt 0x200) 1 true = 4 ∧
    sFwGood.fwVerify.any (fun v => (sFwGood.endFwVerify v 0).fwVerify.isNone && (sFwGood.endFwVerify v 0).flash.minOf 1 == 5) = true := by
  decide +kernel

/-- An argument block for PASID 1; a domain table at 0x200 for device 3, with no device and no handle in it. -/
def sArg : State := (started s0).hostWriteBytes 0x100 [1]
def sTable : State := ((started s0).hostWriteBytes 0x100 [0, 2]).hostWriteBytes 0x200 [3]

theorem test_witness_CommandEffects :
    (sArg.argBlock 0x100 4 0).any (fun b => fieldOf b 0 4 == 1) = true ∧ fieldOf ((sTable.argBlock 0x100 8 0).getD []) 0 8 = 0x200 ∧
    sTable.feature 7 = true ∧ sTable.parseDomain 0x200 = some ⟨3, [], []⟩ := by decide +kernel

/-- Both ports up, domain table of devices 3 and 4 in use, or waiting. -/
def dom34 : Domain := ⟨3, [(4, 1)], []⟩
def sPorts : State := { started s0 with
  eth0 := { EthPort.reset with up := true, pending := [⟨2, false, [], 0, 0, 0, none⟩] }, domain := some dom34, domainPending := some dom34 }

def hot (t : Nat) : State := editCore (started s0) (fun c => { c with temp := t })

/-- Three errors of unit 5, of core 0, counted in this window; or in one that has ended. -/
def sErrs : State := { s0 with errCounts := [(5, 3)] }
def sNewWindow : State := { sErrs with errWindows := [(0, 1)] }

def isReady (a : Attempt) : Bool :=
  match a with
  | .ready _ => true
  | _ => false

theorem test_witness_HostTransitions :
    ((started s0).ready = true ∧ (started s0).host.locked = false ∧ (started s0).lockFeatures.host.locked = true) ∧
    (800 ≤ (800 : W64).toNat % 2 ^ 12 ∧ (3200 : W64).toNat % 2 ^ 12 ≤ 3200 ∧ ¬ 800 ≤ (799 : W64).toNat % 2 ^ 12 ∧
      ¬ (3201 : W64).toNat % 2 ^ 12 ≤ 3200) ∧
    (sPorts.eth0.up = true ∧ sPorts.ready = true ∧ sPorts.feature 8 = true ∧ (List.replicate 59 (0 : Byte)).length + 4 < 64 ∧
      64 ≤ (List.replicate 60 (0 : Byte)).length + 4 ∧ (List.replicate 60 (0 : Byte)).length + 4 ≤ 9216) ∧
    ((sPorts.eth 0).heads.length = 1 ∧ sPorts.portsUp.getLsbD 17 = true) ∧
    (sPorts.unreachable.contains 4 = false ∧ sPorts.domain = some dom34 ∧ ∃ e ∈ dom34.devs, e.1 = 4) ∧
    (sPorts.domainPending = some dom34 ∧ ∀ l ∈ sPorts.lanes, l.items = []) ∧
    (State.reset.ready = false ∧ isReady (runStart (fun _ => true) [] State.reset.flash).2 = true ∧
      isReady (runStart (fun _ => false) [] State.reset.flash).2 = false ∧
      State.reset.flash.verify (imageOf (State.reset.flash.cfgBytes true)) 2 false ≠ 0 ∧ State.reset.flash.record.gen + 1 < 2 ^ 32) ∧
    ((started s0).host.masked 0 = true ∧ (unmasked s0).host.masked 4 = false) ∧
    (∀ p ∈ (started s0).pasids, ((started s0).pasids.foldl (fun t p => (t.tearDown p).haltLaunches p) (started s0)).launchesHalted p = false) ∧
    (∀ p ∈ (started sHead).pasids,
      ((started sHead).pasids.foldl (fun t p => (t.tearDown p).haltLaunches p) (started sHead)).launchesHalted p = true) ∧
    (Store.getD (s0.turnWindow 0).errCounts 5 0 ≠ 3 ∧ Store.getD (sErrs.turnWindow 0).errCounts 5 0 = 3 ∧
      Store.getD sErrs.errWindows 0 0 = sErrs.errWindow 0 ∧ Store.getD sNewWindow.errWindows 0 0 ≠ sNewWindow.errWindow 0) ∧
    ((∃ c ∈ (hot 840).cores, dieOf c.key = 0 ∧ 840 ≤ c.temp) ∧ (hot 840).host.pwrStat ≠ 3 ∧
      (∃ c ∈ (hot 880).cores, dieOf c.key = 0 ∧ 880 ≤ c.temp) ∧ (hot 880).ready = true) ∧
    s0.host.pwrCap < 3201 % 4096 ∧ s0.hostCopy = [] := by decide +kernel

theorem test_witness_HostTransitions_long (n : Nat) (h : n = 9213) : 9216 < (List.replicate n (0 : Byte)).length + 4 := by
  rw [List.length_replicate]; omega

/-! ## Frames and faults -/

theorem test_witness_PassingFrame : s0.ctx? = some (here s0) ∧ (here s0).run.allot = none := by decide

/-- R69, R114: the scalar word writes `s4` alone. -/
theorem test_witness_RegisterWordsFrame : Issues s0 (here s0) false false ∧ Issues sC (here sC) true false ∧ Issues s0 (here s0) false true :=
  ⟨issues_of _ _ _ (by decide), issues_of _ _ _ (by decide), issues_of _ _ _ (by decide)⟩

theorem test_witness_IssueMemoryFrame : ∃ t, exec (.nop ⟨.v 0, false, 0⟩) s0 = .next t := next_of _ (by decide)

theorem test_witness_TrapEntryFields :
    s0.ctx? = some (here s0) ∧ (here s0).gang.place = .press 0 0 ∧ (here s0).gang.trap = none ∧ (here s0).gang.latched = [] ∧
    s0.preempting (here s0).gang = false ∧ (here s0).run.allot = none ∧ (here s0).gang.tvec.toNat / 256 = 0 ∧
    (gangOf (edit s0 (fun g => { g with tvec := 0x100 }))).tvec.toNat / 256 ≠ 0 ∧ (s0.block? wordUid).isSome = true ∧
    (s0.grid? wordUid).any (fun g => g.fault == none) = true := by decide

/-! ## Witnesses of further clauses -/

/-- Lanes that replay join operation 5 (R206). -/
def sAgain (k : OpKind) : State :=
  editRun (edit sL (fun g => { g with ops := [Op.make 5 k (some .ld) none 0] })) (fun u => { u with replay := some 5 })

theorem test_witness_Loads_replay :
    (Issues (sAgain (.load .b32 false 5 [])) (here (sAgain (.load .b32 false 5 []))) false false ∧
      Issues (sAgain (.atom atom1)) (here (sAgain (.atom atom1))) false false) ∧
    (here (sAgain (.load .b32 false 5 []))).run.replay = some 5 ∧
    ((here (sAgain (.load .b32 false 5 []))).gang.op? 5).isSome = true ∧
    (here (sAgain (.atom atom1))).run.replay = some 5 ∧ ((here (sAgain (.atom atom1))).gang.op? 5).isSome = true ∧
    (nextOf (exec (.ld ⟨.v 5, 10, some 2, .b32, .em, false, 0⟩) (sAgain (.load .b32 false 5 [])))).any (fun t =>
      (gangOf t).ops.length == 1) = true :=
  ⟨⟨issues_of _ _ _ (by decide), issues_of _ _ _ (by decide)⟩, by decide +kernel⟩

/-- A word that writes a mask, where the word is skipped by no lane, or by some. -/
theorem test_witness_SpecialRegisters_masks :
    (Issues s0 (here s0) false true ∧ Issues sSkip (here sSkip) false true) ∧ namesMask (.m 3) = true ∧ namesMask (.s 3) = false ∧
    mAfter (exec (.srd ⟨.m 2, .sr .gangmask, .v 0, .v 0, .b8, 0⟩) s0) 2 = some 0xFFFFFFFF ∧
    mAfter (exec (.srd ⟨.m 2, .sr .gangmask, .v 0, .v 0, .b8, 0⟩) sSkip) 2 = some 0xFFFFFF00 :=
  ⟨⟨issues_of _ _ _ (by decide), issues_of _ _ _ (by decide)⟩, by decide⟩

/-- Every active lane takes the branch, or none does: the group stays whole (R116). -/
theorem test_witness_BranchSplits_whole :
    (let c := here sMask
    (c.gang.branch c.grp c.run c.activeAll c.activeAll 0x10050).any (fun p => p.2 == 0 && p.1.groups.length == 1) = true ∧
      c.activeAll ≠ 0 ∧ c.activeAll &&& ~~~ c.activeAll = 0 ∧
      (c.gang.branch c.grp c.run c.activeAll 0 0x10050).any (fun p => p.1.groups == c.gang.groups) = true ∧
      (c.gang.branch c.grp c.run c.activeAll 0xFF 0x10050).any (fun p => p.2 == 1 && p.1.groups.map (fun q => (q.slices, q.pc)) ==
        [(0xE, c.grp.pc), (1, 0x10050)]) = true) := by decide

/-- A `trap` with a word behind it (R199). -/
def sMore : State := editRun s0 (fun u => { u with words := u.words ++ [0] })
theorem test_witness_PlainControl_trap :
    Issues sMore (here sMore) false false ∧ (here sMore).run.idx + 1 < (here sMore).run.words.length ∧
    (here s0).run.words.length ≤ (here s0).run.idx + 1 := ⟨issues_of _ _ _ (by decide), by decide⟩

/-- A device stopped for its temperature, and the clock of a deterministic launch with nothing due. -/
theorem test_witness_StepRunsDecodedWord_stopped :
    (let s : State := { State.reset with host := { State.reset.host with startStat := 3 }, agenda := [.event (.contextSave 3)] }
    s.choose = .event (.contextSave 3) ∧ s.settled.rootOf (.event (.contextSave 3)) = none ∧ s.settled.thermal = true ∧
      Instr.cls (.contextSave 3) = none ∧ whileHalted (.contextSave 3) = true ∧ whileHalted (.clauseStart 0 0 0) = false) ∧
    (let s : State := { sDet with agenda := [.issue wordUid [0] none] }
    s.choose = .issue wordUid [0] none ∧ (s.settled.rootOf s.choose).isSome = true) := by decide

theorem test_witness_DebugWords_history :
    (proof40 (sDbg 0xF true)).hist[5]? = none ∧
    (nextOf (exec (.vhrd ⟨.s 48, .imm 5, .v 0, .v 0, 0⟩) (edit (sDbg 0xF true) (fun g => g.wrS 50 7)))).any (fun t =>
      (gangOf t).rawS 50 == 0) = true := by decide

/-- R259: what a higher port has written in the same clock stands. -/
theorem test_witness_RequestWords_kick :
    sQ.core? (here sQ).gang.coreKey ≠ none ∧
    ((sQ.writeKick (here sQ) 5).core? 0).any (fun k => k.kick == 5) = true ∧
    (((editCore sQ (fun c => { c with kick := 4, kickMark := (c.clock + 1, 1) })).writeKick (here sQ) 5).core? 0).any (fun k =>
      k.kick == 4) = true := by decide

/-- A gang of a deterministic launch is pulled between its clauses alone. -/
theorem test_witness_ProofTransitions_det :
    (let s : State := { sPull false with grids := (sPull false).grids.map (fun x => { x with desc := { x.desc with det := true } }) }
    (gangOf s).det s = true ∧ (gangOf s).betweenClauses = true ∧ (sPull false).slotWaits 40 0 = false) ∧
    (gangOf sDet).betweenClauses = false := by decide

/-- A context, a galley line and a local byte in which an uncorrectable error stands. -/
theorem test_witness_bad_data :
    BadDatum.context wordUid ∈ ({ sPre with bad := [.context wordUid] } : State).bad ∧ BadDatum.context wordUid ∉ sPre.bad ∧
    sPre.lostFrames 1 = [] ∧
    (let d := theCommit false none
    (State.badLine { sCommit false [] with bad := [.line 0 wordUid (lineOf (localAddr wordUid 0))] } (gangOf (sCommit false [])) (wordBlock 0)
      d).isSome = true ∧ (sCommit false []).badLine (gangOf (sCommit false [])) (wordBlock 0) d = none) := by decide +kernel

/-- R334: a record comes back from its copy; one flipped bit spoils it; a copy of zeros holds a valid check. -/
theorem test_witness_CommandEffects_record :
    (let r : StartRec := { gen := 7, step := 30, outcome := 1, fails := 0x123456789, alt := 0x10, skip := 3 }
    parseStart r.copy = some r ∧ parseStart (r.copy ^^^ 1) = none) ∧ (parseStart 0).isSome = true ∧
    crc64 ([0x31, 0x32, 0x33, 0x34, 0x35, 0x36, 0x37, 0x38, 0x39] : List Byte) = 0x6C40DF5F0B497347 := by decide +kernel

/-- SHAKE256 of nothing: its first bytes as FIPS 202's own example gives them (log 13). -/
theorem test_shake256 : (shake256 []).take 4 = [0x46, 0xb9, 0xdd, 0x2b] := by decide +kernel

/-! ## The assembler -/

/-- The word of one line, a label standing ten words back. -/
def asmWord (compact : Bool) (line : String) : Option W64 :=
  match lexLine line.toList with
  | .ok ts => match (if compact then parseCompactLine ts else parseVerbose ts) with
    | .ok i => (AsmEnv.word ⟨fun _ => none, fun _ => some (-10)⟩ i).toOption
    | .error _ => none
  | .error _ => none

/-- The declarations of a file given line by line. -/
def asmDecls (src : List String) : Except AsmError (List Decl) :=
  ((src.map String.toList).foldlM AsmState.line ⟨[], .top⟩).map (·.decls)

/-- The first kernel of a file, without symbols. -/
def asmKernel (src : List String) : Except AsmError AsmKernel :=
  match asmDecls src with
  | .ok (.kernel k :: _) => k.assemble [] 0
  | .ok _ => .error .badNesting
  | .error e => .error e

/-- The last bytes of a packet and one byte of its body. -/
def asmPacket (t : SymTab) (line : String) (k : Nat) : Option (List Byte × Option Byte) :=
  match lexLine line.toList with
  | .ok ts => match dirArgs ts with
    | .ok args => (packetBytes t args).toOption.map (fun b => (b.drop 252, b[k]?))
    | .error _ => none
  | .error _ => none

def asmError (src : List String) : Option AsmError :=
  match assembleFile (fun _ => 0) (String.intercalate "\n" src).toList with
  | .ok _ => none
  | .error e => some e

def refusedWith (src : List String) (e : AsmError) : Bool :=
  match asmKernel src with
  | .ok _ => false
  | .error x => x == e

/-- Word 25 of chapter 11 in both ways of writing. -/
theorem test_asm_compact_vmac2 :
    asmWord true "    vmac2.i16.sat  v8, v6, s20, v8      // even outputs" = some 0x4880801914021480 := by decide +kernel
theorem test_asm_verbose_vmac2 :
    asmWord false "VMAC2 TYPE=I16 RND=- SAT=1 MASK=em GANG=cur KEEP=0 DST=v8 A=v6 B=s20 C=v8" = some 0x4880801914021480 := by
  decide +kernel
/-- R163's example. -/
theorem test_asm_memory_operand : asmWord true "ld.b32 v2, [s8:9 + v1 + 64]" = some 0xA000204404800040 := by decide +kernel
/-- Word 30 of chapter 11: TARGET is -10. -/
theorem test_asm_target : asmWord true "bru s28, loop" = some 0x2040047004FFFFF6 := by decide +kernel
/-- R174's, R182's, R203's and R218's examples. -/
theorem test_asm_atom : asmWord true "atom.add.n32.block v5, [s8:9 + v1], v4" = some 0xA20050440404A000 := by decide +kernel
theorem test_asm_bars : asmWord true "bars.c 0" = some 0xC280000000800000 ∧
    asmWord false "BARS BAR=C0 LVL=GANG DST=- A=- B=-" = some 0xC280000000800000 := by decide +kernel
theorem test_asm_vralloc : asmWord true "vralloc.shrink s4, 4" = some 0xE0104C1000000000 ∧
    asmWord true "vralloc.shrink s4, 33" = none := by decide +kernel
theorem test_asm_sigop : asmWord true "sigop.add s6:7, s8:9, -1" = some 0xE0D064237F000000 := by decide +kernel
/-- R231's, R249's and R307's examples, on other engines. -/
theorem test_asm_mma : asmWord true "mma v16, v8, s20, s22:23" = some 0x0001002114458000 := by decide +kernel
theorem test_asm_rqcopy : asmWord true "rqcopy s12:13, s8:9, s20, 3" = some 0x0010C4211400001C := by decide +kernel
theorem test_asm_wpset : asmWord true "wpset.mem 3, s40" = some 0x01400C0D28000100 := by decide +kernel
/-- R135: a decimal literal of a float TYPE is a value, any other is raw bits. -/
theorem test_asm_float_literals : (asmWord true "vmovi.f32 v2, 1").map (BitVec.extractLsb' 0 32) = some 0x3F800000 ∧
    (asmWord true "vmovi.f32 v2, 0x0000_0001").map (BitVec.extractLsb' 0 32) = some 1 := by decide +kernel
/-- R23 to R25: what no operand may be. -/
theorem test_asm_bad_operands : asmWord true "sadd.i64 s4:6, s8:9, 1" = none ∧ asmWord true "sadd.i32 s4, s5, 64" = none ∧
    asmWord true "ld.b32 v1, [s8:9 + 32768]" = none ∧ asmWord true "sadd.i32 s4, %laneid, 1" = none := by decide +kernel
/-- R33: a missing, an extra and a repeated key. -/
theorem test_asm_bad_keys : asmWord false "RTE GANG=- A=- IMM=-" = some 0xE040000000000000 ∧ asmWord false "RTE GANG=- A=-" = none ∧
    asmWord false "RTE GANG=- A=- IMM=- B=-" = none ∧ asmWord false "RTE GANG=- A=- A=- IMM=-" = none := by decide +kernel

/-- The worked conversion of chapter 2. -/
def loopTail : List String :=
  [".kernel k", ".entry loop", "loop:", "ld.b32 v2, [s8:9 + v1 + 64]", "vadd.i32 v3, v3, v4", "vfma.f32 v5, v2, v6, v5",
   "bru s20, loop", ".end"]

/-- Two clauses, with the headers of the worked conversion; the allotment is 8 (R221). -/
theorem test_asm_loop_headers : (asmKernel loopTail).toOption.map (fun k => (k.words[0]?, k.words[3]?)) =
    some (some (0x0100080000000000 : W64), some (0x0100100000000000 : W64)) ∧
    (asmKernel loopTail).toOption.map (·.parts) = some [(0, 8, 0)] := by decide +kernel

/-- The loop of chapter 11, entered as there from a clause whose load is pending under w1: the clause of words 24 to 26 waits for
three flags and takes w3. -/
def firLoop : List String :=
  [".kernel k", ".entry start", "start:", "lds.b32 s14, [s2:3 + 24]", "vcmp.n32.lt m1, v4, s14", "(m1) ld.b32 v6, [s8:9 + v3]", "loop:",
   "lds.b32 s20, [s10:11]", "sadd.i64 s10:11, s10:11, 4", "ssub.n32 s28, s28, 1", "vmac2.i16.sat v8, v6, s20, v8",
   "vslide.b16.down v6, v6, 1, 0", "vmac2.i16.sat v9, v6, s20, v9", "vslide.b16.down v6, v6, 1, 0", "bru s28, loop", "exit",
   ".end"]

theorem test_asm_fir_flags : (asmKernel firLoop).toOption.map (fun k => (k.words[9]?, k.words[12]?)) =
    some (some (0x0100704C00000000 : W64), some (0x0200804000000000 : W64)) := by decide +kernel

/-- R31: a skip keeps its instructions in one clause, and no label may stand among them. -/
theorem test_asm_skip_label :
    refusedWith [".kernel k", ".entry a", "a:", "skip 1", "b:", "nop", "exit", ".end"] .skipBroken = true := by decide +kernel

/-- R34: a header that names one flag twice. -/
theorem test_asm_bad_header : refusedWith [".kernel k", ".entry a", "a:",
    ".clause CLASS=press COUNT=1 WAIT=- SETA=w1 SETB=w1 YIELD=0", "EXIT GANG=- A=- IMM=-", ".end"] .badClause = true := by
  decide +kernel

/-- R37: the clauses of the worked conversion go back to the same four lines. -/
theorem test_asm_back_to_compact : (match asmDecls loopTail with
    | .ok [.kernel k] => match k.clauses [] with
      | .ok cs => (clauseHeaders cs).toOption.map (fun hs => (compactOf cs hs).flatMap AsmItem.lines == k.items.flatMap AsmItem.lines)
      | .error _ => none
    | _ => none) = some true := by decide +kernel

/-- R262's example: the trailer of a published BARRIER packet. -/
theorem test_asm_packet :
    asmPacket [("S0", 64), ("A", 72), ("B", 80)] "type=BARRIER, ord=1, fence=10, barrier=1, signal=S0, dep0=A, dep1=B" 8 =
      some ([0x00, 0x35, 0x02, 0x01], some 72) := by decide +kernel

/-- R28: two items that share one byte. -/
theorem test_asm_overlap : asmError [".data 0x100", ".b64 1", ".end", ".data 0x107", ".b8 1", ".end"] = some .badOverlap := by decide +kernel

/-- R29: a descriptor without its kernel, and one whose `lanes=` and `gangs=` meet (R312). -/
theorem test_asm_launch_errors : asmError [".launch l, grid=1"] = some .badLaunch ∧
    asmError [".kernel k", ".entry a", "a: exit", ".end", ".launch l, kernel=k, lanes=1, gangs=1"] = some .badLaunch := by decide +kernel

end Sys2Proof.Tests
end

section
/-!
PROOFS. The encoding of the press words and of the other classes: a code of a field, a field of a word, a word of a format, the map
of a class, each from what reads it back to what writes it (R63 to R77, R230, R249, R281, R307); then what a scalar write leaves in
the register file (R69, R84), and the compares (R134, R141).
-/
namespace Sys2Proof.PressEncoding
open Sys2Proof.Machine

/-! ## Codes: what reads as a value is the value's code -/

theorem encTy_decTy : ∀ c : BitVec 4, encTy (decTy c) = c := by decide

theorem encRnd_decRnd : ∀ c : BitVec 2, encRnd (decRnd c) = c := by decide

theorem encScope_decScope : ∀ c : BitVec 2, encScope (decScope c) = c := by decide

theorem encCond_of_decCond {c : BitVec 3} {x : Cond} (h : decCond c = some x) : encCond x = c := by
  cases x <;> revert c <;> decide

theorem encLvl_of_decLvl {c : BitVec 3} {x : Lvl} (h : decLvl c = some x) : encLvl x = c := by
  cases x <;> revert c <;> decide

theorem encCTy_of_decCTy {c : BitVec 5} {x : CTy} (h : decCTy c = some x) : encCTy x = c := by
  cases x <;> revert c <;> decide

theorem encMask_of_decMask {c : BitVec 5} {x : MaskSel} (h : decMask c = some x) : encMask x = c := by
  cases x with
  | em => revert c; decide
  | m n => revert c n; decide

/-- VOFF with its valid bit: the bit stands above the number (R74). -/
theorem encVoff_of_decVoff {c : BitVec 9} {x : Option (BitVec 8)} (h : decVoff c = some x) : encVoff x = c := by
  unfold decVoff at h
  split at h
  · next hc =>
    cases h
    exact (beq_iff_eq.mp hc).symm
  · split at h
    · next hc hv =>
      cases h
      rw [BitVec.getLsbD, Nat.testBit_eq_decide_div_mod_eq, decide_eq_true_eq] at hv
      apply BitVec.eq_of_toNat_eq
      simp only [encVoff, BitVec.toNat_ofNat, BitVec.extractLsb'_toNat, Nat.shiftRight_zero]
      omega
    · cases h

theorem encSReg_of_decSReg {k : Nat} {r : SReg} (h : decSReg k = some r) : encSReg r = k := by
  unfold decSReg at h
  split at h <;> cases h <;> rfl

theorem encSReg_range (r : SReg) : 0xC0 ≤ encSReg r ∧ encSReg r < 0xD2 := by
  cases r <;> decide

/-- The codes of the special registers are the eighteen from 0xC0 on (R68). -/
theorem decSReg_isSome_iff (k : Nat) : (decSReg k).isSome ↔ 0xC0 ≤ k ∧ k < 0xD2 := by
  constructor
  · intro h
    obtain ⟨r, hr⟩ := Option.isSome_iff_exists.mp h
    exact encSReg_of_decSReg hr ▸ encSReg_range r
  · rintro ⟨hlo, hhi⟩
    obtain ⟨d, rfl⟩ := Nat.exists_eq_add_of_le hlo
    have hd : d < 18 := by omega
    clear hlo hhi
    revert d
    decide

/-- An operand is read from its own code only (R66, R67). -/
theorem encOpd_of_decOpd {c : BitVec 10} {o : Opd} (h : decOpd c = some o) : encOpd o = c := by
  have hlt := c.isLt
  apply BitVec.eq_of_toNat_eq
  unfold decOpd at h
  dsimp only at h
  repeat' split at h
  case isFalse.isFalse.isFalse.isFalse.isFalse =>
    obtain ⟨r, hr, rfl⟩ := Option.map_eq_some_iff.mp h
    have hk := encSReg_of_decSReg hr
    have hrange := encSReg_range r
    simp only [encOpd, BitVec.toNat_ofNat, hk]
    omega
  all_goals
    cases h
    simp only [encOpd, BitVec.toNat_ofNat, BitVec.reduceToNat]
    omega

/-- Above the immediates and beside `em` and the masks, an operand code names a special register or nothing (R67, R68). -/
theorem decOpd_special {c : BitVec 10} (hlo : 0x380 < c.toNat) (hm : c.toNat < 0x390 ∨ 0x3A0 ≤ c.toNat) :
    decOpd c = (decSReg (c.toNat - 0x300)).map .sr := by
  unfold decOpd
  dsimp only
  rw [if_neg, if_neg, if_neg, if_neg, if_neg] <;> omega

/-- Settles O5, range by range: the branch of the decoder that a code falls into; above the immediates the special registers' codes
decide. -/
theorem operandCodes : Obligations.OperandCodes := by
  unfold Obligations.OperandCodes
  intro c
  have hlt := c.isLt
  refine ⟨fun h => ?_, fun h1 h2 => ?_, fun h1 h2 => ?_, fun h => ?_, fun h1 h2 => ?_, fun h1 h2 => ?_, fun h => ?_⟩
  · have hn : c.extractLsb' 0 8 = BitVec.ofNat 8 c.toNat := by
      apply BitVec.eq_of_toNat_eq
      simp
    rw [decOpd, if_pos h, hn]
  · refine ⟨BitVec.ofNat 9 (c.toNat - 0x100), ?_, ?_⟩
    · rw [decOpd, if_neg (by omega), if_pos h2]
    · rw [BitVec.toNat_ofNat]
      omega
  · refine ⟨BitVec.ofNat 7 (c.toNat - 0x300), ?_, ?_⟩
    · rw [decOpd, if_neg (by omega), if_neg (by omega), if_pos h2]
    · rw [immInt, BitVec.toInt_eq_toNat_cond, BitVec.toNat_ofNat]
      omega
  · rw [BitVec.eq_of_toNat_eq (y := 0x380) h]
    rfl
  · refine ⟨BitVec.ofNat 4 (c.toNat - 0x390), ?_, ?_⟩
    · rw [decOpd, if_neg (by omega), if_neg (by omega), if_neg (by omega), if_neg (by omega), if_pos ⟨h1, h2⟩]
    · rw [BitVec.toNat_ofNat]
      omega
  · obtain ⟨r, hr⟩ := Option.isSome_iff_exists.mp ((decSReg_isSome_iff (c.toNat - 0x300)).mpr (by omega))
    exact ⟨r, by rw [decOpd_special (by omega) (by omega), hr]; rfl, encSReg_of_decSReg hr⟩
  · have hr : decSReg (c.toNat - 0x300) = none := by
      rw [← Option.not_isSome_iff_eq_none, decSReg_isSome_iff]
      omega
    rw [decOpd_special (by omega) (by omega), hr]
    rfl

/-! ## Words: the fields that a format reads make the word again -/

/-- A single bit as a field of width 1. -/
theorem encBool_getLsbD (w : W64) (k : Nat) : encBool (w.getLsbD k) = w.extractLsb' k 1 := by
  apply BitVec.eq_of_getLsbD_eq
  intro i hi
  obtain rfl : i = 0 := by omega
  cases h : w.getLsbD k <;> simp [encBool, h]

/-- The number that the fields of a word make, from below a bit down: each width takes its bits under the one before. -/
def fieldsBelow (w : W64) : Nat → List Nat → Nat
  | _, [] => 0
  | hi, len :: ls => put (hi - len) (w.extractLsb' (hi - len) len) + fieldsBelow w (hi - len) ls

/-- Fields that fill the bits below a place leave none of them out. -/
theorem fieldsBelow_eq (w : W64) (ls : List Nat) : fieldsBelow w ls.sum ls = w.toNat % 2 ^ ls.sum := by
  induction ls with
  | nil => simp [fieldsBelow, Nat.mod_one]
  | cons len ls ih =>
    have hsub : (len :: ls).sum - len = ls.sum := by simp
    have hsum : (len :: ls).sum = ls.sum + len := by rw [List.sum_cons, Nat.add_comm]
    rw [fieldsBelow, hsub, ih, hsum, Nat.pow_add, Nat.mod_mul, put, BitVec.extractLsb'_toNat, Nat.shiftRight_eq_div_pow]
    rw [Nat.mul_comm (2 ^ ls.sum), Nat.add_comm]

/-- A word is the word of its fields, where they fill all its bits. -/
theorem ofNat_fieldsBelow (w : W64) (ls : List Nat) (h : ls.sum = 64) : BitVec.ofNat 64 (fieldsBelow w 64 ls) = w := by
  have hw := fieldsBelow_eq w ls
  rw [h, Nat.mod_eq_of_lt w.isLt] at hw
  rw [hw, BitVec.ofNat_toNat, BitVec.setWidth_eq]

/-- Reserved bits that are clear add nothing to the number of a word. -/
theorem put_reserved {w m : W64} (h : ¬ (w &&& m != 0) = true) (lo len : Nat) (hm : m.extractLsb' lo len = BitVec.allOnes len) :
    put lo (w.extractLsb' lo len) = 0 := by
  have h0 : w &&& m = 0 := by simpa using h
  have hz : w.extractLsb' lo len = 0#len := calc
    w.extractLsb' lo len = w.extractLsb' lo len &&& m.extractLsb' lo len := by rw [hm, BitVec.and_allOnes]
    _ = (w &&& m).extractLsb' lo len := BitVec.extractLsb'_and.symm
    _ = 0#len := by rw [h0]; simp
  rw [hz, put, BitVec.toNat_zero, Nat.zero_mul]

theorem encA3_of_decA3 {w : W64} {f : FmtA3} (h : decA3 w = .ok f) : encA3 (w.extractLsb' 54 10) f = w := by
  unfold decA3 at h
  split at h
  · next hdst ha hb hc hmask =>
    cases h
    simpa only [encA3, fieldsBelow, encOpd_of_decOpd hdst, encOpd_of_decOpd ha, encOpd_of_decOpd hb, encOpd_of_decOpd hc,
      encMask_of_decMask hmask, encTy_decTy, encRnd_decRnd, encBool_getLsbD, Nat.reduceSub, Nat.add_zero, Nat.add_assoc]
      using ofNat_fieldsBelow w [10, 10, 10, 10, 10, 4, 2, 1, 5, 1, 1] rfl
  · cases h

theorem encF2_of_decF2 {w : W64} {f : FmtF2} (h : decF2 w = .ok f) : encF2 (w.extractLsb' 54 10) f = w := by
  unfold decF2 at h
  split at h
  · cases h
  · next hr =>
    split at h
    · next hdst ha hb hmask =>
      cases h
      simpa only [encF2, fieldsBelow, encOpd_of_decOpd hdst, encOpd_of_decOpd ha, encOpd_of_decOpd hb,
        encMask_of_decMask hmask, encTy_decTy, encRnd_decRnd, encBool_getLsbD, put_reserved hr 14 10 rfl, Nat.reduceSub,
        Nat.add_zero, Nat.zero_add, Nat.add_assoc]
        using ofNat_fieldsBelow w [10, 10, 10, 10, 10, 4, 2, 1, 5, 1, 1] rfl
    · cases h

theorem encA2_of_decA2 {w : W64} {f : FmtA2} (h : decA2 w = .ok f) : encA2 (w.extractLsb' 54 10) f = w := by
  unfold decA2 at h
  split at h
  · cases h
  · next hr =>
    split at h
    · next hdst ha hb hmask =>
      cases h
      simpa only [encA2, fieldsBelow, encOpd_of_decOpd hdst, encOpd_of_decOpd ha, encOpd_of_decOpd hb,
        encMask_of_decMask hmask, encTy_decTy, encBool_getLsbD, put_reserved hr 0 1 rfl, put_reserved hr 8 2 rfl,
        put_reserved hr 14 10 rfl, Nat.reduceSub, Nat.add_zero, Nat.zero_add, Nat.add_assoc]
        using ofNat_fieldsBelow w [10, 10, 10, 10, 10, 4, 2, 1, 5, 1, 1] rfl
    · cases h

theorem encA2S_of_decA2S {w : W64} {f : FmtA2S} (h : decA2S w = .ok f) : encA2S (w.extractLsb' 54 10) f = w := by
  unfold decA2S at h
  split at h
  · cases h
  · next hr =>
    split at h
    · next hdst ha hb hmask =>
      cases h
      simpa only [encA2S, fieldsBelow, encOpd_of_decOpd hdst, encOpd_of_decOpd ha, encOpd_of_decOpd hb,
        encMask_of_decMask hmask, encTy_decTy, encBool_getLsbD, put_reserved hr 0 1 rfl, put_reserved hr 8 2 rfl,
        put_reserved hr 14 4 rfl, Nat.reduceSub, Nat.add_zero, Nat.zero_add, Nat.add_assoc]
        using ofNat_fieldsBelow w [10, 10, 10, 10, 6, 4, 4, 2, 1, 5, 1, 1] rfl
    · cases h

theorem encA3S_of_decA3S {w : W64} {f : FmtA3S} (h : decA3S w = .ok f) : encA3S (w.extractLsb' 54 10) f = w := by
  unfold decA3S at h
  split at h
  · next hdst ha hb hc hmask =>
    cases h
    simpa only [encA3S, fieldsBelow, encOpd_of_decOpd hdst, encOpd_of_decOpd ha, encOpd_of_decOpd hb, encOpd_of_decOpd hc,
      encMask_of_decMask hmask, encTy_decTy, encBool_getLsbD, Nat.reduceSub, Nat.add_zero, Nat.add_assoc]
      using ofNat_fieldsBelow w [10, 10, 10, 10, 10, 4, 4, 5, 1] rfl
  · cases h

theorem encCV_of_decCV {w : W64} {f : FmtCV} (h : decCV w = .ok f) : encCV (w.extractLsb' 54 10) f = w := by
  unfold decCV at h
  split at h
  · cases h
  · next hr =>
    split at h
    · next hdst ha hb hdty hsty hmask =>
      cases h
      simpa only [encCV, fieldsBelow, encOpd_of_decOpd hdst, encOpd_of_decOpd ha, encOpd_of_decOpd hb, encCTy_of_decCTy hdty,
        encCTy_of_decCTy hsty, encMask_of_decMask hmask, encRnd_decRnd, encBool_getLsbD, put_reserved hr 0 1 rfl,
        put_reserved hr 10 4 rfl, Nat.reduceSub, Nat.add_zero, Nat.zero_add, Nat.add_assoc]
        using ofNat_fieldsBelow w [10, 10, 10, 10, 5, 5, 4, 2, 1, 5, 1, 1] rfl
    · cases h

theorem encS_of_decS {w : W64} {f : FmtS} (h : decS w = .ok f) : encS (w.extractLsb' 54 10) f = w := by
  unfold decS at h
  split at h
  · cases h
  · next hr =>
    split at h
    · next hdst ha hb hc =>
      cases h
      simpa only [encS, fieldsBelow, encOpd_of_decOpd hdst, encOpd_of_decOpd ha, encOpd_of_decOpd hb, encOpd_of_decOpd hc,
        encTy_decTy, put_reserved hr 0 4 rfl, Nat.reduceSub, Nat.add_zero, Nat.add_assoc]
        using ofNat_fieldsBelow w [10, 10, 10, 10, 10, 4, 6, 4] rfl
    · cases h

theorem encI_of_decI {w : W64} {f : FmtI} (h : decI w = .ok f) : encI (w.extractLsb' 54 10) f = w := by
  unfold decI at h
  split at h
  · cases h
  · next hr =>
    split at h
    · next hdst hmask =>
      cases h
      simpa only [encI, fieldsBelow, encOpd_of_decOpd hdst, encMask_of_decMask hmask, encTy_decTy, encBool_getLsbD,
        put_reserved hr 36 2 rfl, Nat.reduceSub, Nat.add_zero, Nat.zero_add, Nat.add_assoc]
        using ofNat_fieldsBelow w [10, 10, 5, 1, 2, 4, 32] rfl
    · cases h

theorem encB_of_decB {w : W64} {f : FmtB} (h : decB w = .ok f) : encB (w.extractLsb' 54 10) f = w := by
  unfold decB at h
  split at h
  · cases h
  · next hr =>
    split at h
    · next ha hmask hcond =>
      cases h
      simpa only [encB, fieldsBelow, encOpd_of_decOpd ha, encMask_of_decMask hmask, encCond_of_decCond hcond,
        put_reserved hr 24 2 rfl, put_reserved hr 44 10 rfl, Nat.reduceSub, Nat.add_zero, Nat.zero_add, Nat.add_assoc]
        using ofNat_fieldsBelow w [10, 10, 10, 5, 3, 2, 24] rfl
    · cases h

theorem encBL_of_decBL {w : W64} {f : FmtBL} (h : decBL w = .ok f) : encBL (w.extractLsb' 54 10) f = w := by
  unfold decBL at h
  split at h
  · cases h
  · next hr =>
    split at h
    · next hdst =>
      cases h
      simpa only [encBL, fieldsBelow, encOpd_of_decOpd hdst, put_reserved hr 24 20 rfl, Nat.reduceSub, Nat.add_zero,
        Nat.zero_add, Nat.add_assoc]
        using ofNat_fieldsBelow w [10, 10, 20, 24] rfl
    · cases h

theorem encK_of_decK {w : W64} {f : FmtK} (h : decK w = .ok f) : encK (w.extractLsb' 54 10) f = w := by
  unfold decK at h
  split at h
  · cases h
  · next hr =>
    split at h
    · next ha =>
      cases h
      simpa only [encK, fieldsBelow, encOpd_of_decOpd ha, encBool_getLsbD, put_reserved hr 33 1 rfl,
        put_reserved hr 44 10 rfl, Nat.reduceSub, Nat.add_zero, Nat.zero_add, Nat.add_assoc]
        using ofNat_fieldsBelow w [10, 10, 10, 1, 1, 32] rfl
    · cases h

theorem encM_of_decM {w : W64} {f : FmtM} (h : decM w = .ok f) : encM (w.extractLsb' 54 10) f = w := by
  unfold decM at h
  split at h
  · next hdst hvoff hmask =>
    cases h
    simpa only [encM, fieldsBelow, encOpd_of_decOpd hdst, encVoff_of_decVoff hvoff, encMask_of_decMask hmask, encTy_decTy,
      encBool_getLsbD, Nat.reduceSub, Nat.add_zero, Nat.add_assoc]
      using ofNat_fieldsBelow w [10, 10, 9, 9, 4, 5, 1, 16] rfl
  · cases h

theorem encMA_of_decMA {w : W64} {f : FmtMA} (h : decMA w = .ok f) : encMA (w.extractLsb' 54 10) f = w := by
  unfold decMA at h
  split at h
  · cases h
  · next hr =>
    split at h
    · next hdst hvoff hb hmask =>
      cases h
      simpa only [encMA, fieldsBelow, encOpd_of_decOpd hdst, encVoff_of_decVoff hvoff, encOpd_of_decOpd hb,
        encMask_of_decMask hmask, encTy_decTy, encScope_decScope, put_reserved hr 0 1 rfl, Nat.reduceSub, Nat.add_zero,
        Nat.add_assoc]
        using ofNat_fieldsBelow w [10, 10, 9, 9, 10, 4, 4, 2, 5, 1] rfl
    · cases h

theorem encY_of_decY {w : W64} {f : FmtY} (h : decY w = .ok f) : encY (w.extractLsb' 54 10) f = w := by
  unfold decY at h
  split at h
  · cases h
  · next hr =>
    split at h
    · next hdst ha hb hlvl =>
      cases h
      simpa only [encY, fieldsBelow, encOpd_of_decOpd hdst, encOpd_of_decOpd ha, encOpd_of_decOpd hb, encLvl_of_decLvl hlvl,
        put_reserved hr 0 15 rfl, Nat.reduceSub, Nat.add_zero, Nat.add_assoc]
        using ofNat_fieldsBelow w [10, 10, 10, 10, 6, 3, 15] rfl
    · cases h

theorem encMX_of_decMX {w : W64} {f : FmtMX} (h : decMX w = .ok f) : encMX (w.extractLsb' 54 10) f = w := by
  unfold decMX at h
  split at h
  · cases h
  · next hr =>
    split at h
    · next hdst ha hb hc he =>
      cases h
      simpa only [encMX, fieldsBelow, encOpd_of_decOpd hdst, encOpd_of_decOpd ha, encOpd_of_decOpd hb, encOpd_of_decOpd hc,
        encOpd_of_decOpd he, encBool_getLsbD, put_reserved hr 0 2 rfl, Nat.reduceSub, Nat.add_zero, Nat.add_assoc]
        using ofNat_fieldsBelow w [10, 10, 10, 10, 10, 10, 1, 1, 2] rfl
    · cases h

theorem encRQ_of_decRQ {w : W64} {f : FmtRQ} (h : decRQ w = .ok f) : encRQ (w.extractLsb' 54 10) f = w := by
  unfold decRQ at h
  split at h
  · cases h
  · next hr =>
    split at h
    · next hdst ha hb hc =>
      cases h
      simpa only [encRQ, fieldsBelow, encOpd_of_decOpd hdst, encOpd_of_decOpd ha, encOpd_of_decOpd hb, encOpd_of_decOpd hc,
        encBool_getLsbD, put_reserved hr 0 1 rfl, Nat.reduceSub, Nat.add_zero, Nat.add_assoc]
        using ofNat_fieldsBelow w [10, 10, 10, 10, 10, 6, 5, 1, 1, 1] rfl
    · cases h

theorem encQ_of_decQ {w : W64} {f : FmtQ} (h : decQ w = .ok f) : encQ (w.extractLsb' 54 10) f = w := by
  unfold decQ at h
  split at h
  · cases h
  · next hr =>
    split at h
    · next hdst ha hb hc =>
      cases h
      simpa only [encQ, fieldsBelow, encOpd_of_decOpd hdst, encOpd_of_decOpd ha, encOpd_of_decOpd hb, encOpd_of_decOpd hc,
        put_reserved hr 0 8 rfl, Nat.reduceSub, Nat.add_zero, Nat.add_assoc]
        using ofNat_fieldsBelow w [10, 10, 10, 10, 10, 6, 8] rfl
    · cases h

/-! ## Classes: the opcode maps -/

/-- The opcode map of a class (R77, R231, R250, R281, R307). -/
def decClass (c : Cls) (w : W64) : Except Reject Instr :=
  match c with
  | .press => decPress w
  | .matrix => decMatrix w
  | .request => decRequest w
  | .debug => decDebug w
  | .compositor => decCompositor w

/-- A word that decodes is read by its class's map, as a well-formed instruction. -/
theorem decClass_of_decodeWord {c : Cls} {w : W64} {i : Instr} (h : decodeWord c w = .ok i) :
    decClass c w = .ok i ∧ i.wf = true := by
  have hd : decodeWord c w = (match decClass c w with
      | .ok j => if j.wf then .ok j else .error .illFormed
      | .error e => .error e) := by cases c <;> rfl
  rw [hd] at h
  split at h
  · next hj =>
    split at h
    · next hwf =>
      cases h
      exact ⟨hj, hwf⟩
    · cases h
  · cases h

/-- A mapped reading comes from a reading. -/
theorem exists_of_map_eq_ok {α β : Type} {x : Except Reject α} {g : α → β} {b : β} (h : x.map g = .ok b) :
    ∃ a, x = .ok a ∧ g a = b := by
  cases x with
  | error e => cases h
  | ok a => exact ⟨a, rfl, Except.ok.inj h⟩

/-- A format's reading of a word, with the opcode as its map gives it. -/
theorem enc_eq_of_opcode {F : Type} {enc : BitVec 10 → F → W64} {op : BitVec 10} {f : F} {w : W64}
    (hop : (w.extractLsb' 54 10).toNat = op.toNat) (hw : enc (w.extractLsb' 54 10) f = w) : enc op f = w :=
  BitVec.eq_of_toNat_eq hop ▸ hw

/-- What a class's map reads is an instruction of the class, and the word is that instruction's: the arm's opcode, and the fields
as its format read them. -/
theorem decClass_ok {c : Cls} {w : W64} {i : Instr} (h : decClass c w = .ok i) : i.cls = some c ∧ encode i = some w := by
  cases c
  all_goals
    simp only [decClass, decPress, decMatrix, decRequest, decDebug, decCompositor] at h
    split at h
    rotate_right
    · cases h
    all_goals
      next hop =>
      obtain ⟨f, hf, rfl⟩ := exists_of_map_eq_ok h
      refine ⟨rfl, congrArg some (enc_eq_of_opcode hop ?_)⟩
      simp only [encS_of_decS, encI_of_decI, encB_of_decB, encBL_of_decBL, encK_of_decK, encA2_of_decA2, encA3_of_decA3,
        encA2S_of_decA2S, encA3S_of_decA3S, encF2_of_decF2, encCV_of_decCV, encM_of_decM, encMA_of_decMA, encY_of_decY,
        encMX_of_decMX, encRQ_of_decRQ, encQ_of_decQ, hf]

/-- Settles O3: the word is read by its class's map, whose arm gives the opcode and whose format gives the fields. -/
theorem decodeThenEncode : Obligations.DecodeThenEncode := by
  unfold Obligations.DecodeThenEncode
  intro c w i h
  obtain ⟨hi, hwf⟩ := decClass_of_decodeWord h
  exact ⟨hwf, decClass_ok hi⟩

/-- Every instruction has the coding of its class; a transition is no word. -/
theorem coding (i : Instr) : Laws.Coding.Statement i := by
  cases i with
  | smov f => exact Laws.Coding.smov f
  | smovi f => exact Laws.Coding.smovi f
  | sadd f => exact Laws.Coding.sadd f
  | ssub f => exact Laws.Coding.ssub f
  | smul f => exact Laws.Coding.smul f
  | smulh f => exact Laws.Coding.smulh f
  | sand f => exact Laws.Coding.sand f
  | sor f => exact Laws.Coding.sor f
  | sxor f => exact Laws.Coding.sxor f
  | sshl f => exact Laws.Coding.sshl f
  | sshr f => exact Laws.Coding.sshr f
  | ssra f => exact Laws.Coding.ssra f
  | smin f => exact Laws.Coding.smin f
  | smax f => exact Laws.Coding.smax f
  | scmp f => exact Laws.Coding.scmp f
  | ssel f => exact Laws.Coding.ssel f
  | sclz f => exact Laws.Coding.sclz f
  | spopc f => exact Laws.Coding.spopc f
  | sbfe f => exact Laws.Coding.sbfe f
  | sbfi f => exact Laws.Coding.sbfi f
  | bra f => exact Laws.Coding.bra f
  | bru f => exact Laws.Coding.bru f
  | brv f => exact Laws.Coding.brv f
  | brau f => exact Laws.Coding.brau f
  | skip f => exact Laws.Coding.skip f
  | call f => exact Laws.Coding.call f
  | ret f => exact Laws.Coding.ret f
  | join f => exact Laws.Coding.join f
  | gangAll f => exact Laws.Coding.gangAll f
  | exit f => exact Laws.Coding.exit f
  | trap f => exact Laws.Coding.trap f
  | yield f => exact Laws.Coding.yield f
  | nop f => exact Laws.Coding.nop f
  | mand f => exact Laws.Coding.mand f
  | mor f => exact Laws.Coding.mor f
  | mxor f => exact Laws.Coding.mxor f
  | mnot f => exact Laws.Coding.mnot f
  | mmov f => exact Laws.Coding.mmov f
  | mpopc f => exact Laws.Coding.mpopc f
  | mfirst f => exact Laws.Coding.mfirst f
  | measure f => exact Laws.Coding.measure f
  | srd f => exact Laws.Coding.srd f
  | swr f => exact Laws.Coding.swr f
  | vadd f => exact Laws.Coding.vadd f
  | vsub f => exact Laws.Coding.vsub f
  | vmul f => exact Laws.Coding.vmul f
  | vmulh f => exact Laws.Coding.vmulh f
  | vmad f => exact Laws.Coding.vmad f
  | vand f => exact Laws.Coding.vand f
  | vor f => exact Laws.Coding.vor f
  | vxor f => exact Laws.Coding.vxor f
  | vnot f => exact Laws.Coding.vnot f
  | vshl f => exact Laws.Coding.vshl f
  | vshr f => exact Laws.Coding.vshr f
  | vsra f => exact Laws.Coding.vsra f
  | vmin f => exact Laws.Coding.vmin f
  | vmax f => exact Laws.Coding.vmax f
  | vabs f => exact Laws.Coding.vabs f
  | vclz f => exact Laws.Coding.vclz f
  | vpopc f => exact Laws.Coding.vpopc f
  | vbfe f => exact Laws.Coding.vbfe f
  | vbfi f => exact Laws.Coding.vbfi f
  | vsel f => exact Laws.Coding.vsel f
  | vcmp f => exact Laws.Coding.vcmp f
  | vmov f => exact Laws.Coding.vmov f
  | vmovi f => exact Laws.Coding.vmovi f
  | vadd2 f => exact Laws.Coding.vadd2 f
  | vsub2 f => exact Laws.Coding.vsub2 f
  | vmac2 f => exact Laws.Coding.vmac2 f
  | vdot4 f => exact Laws.Coding.vdot4 f
  | vqadd f => exact Laws.Coding.vqadd f
  | vqsub f => exact Laws.Coding.vqsub f
  | vshrr f => exact Laws.Coding.vshrr f
  | vpack f => exact Laws.Coding.vpack f
  | vunpack f => exact Laws.Coding.vunpack f
  | vfadd f => exact Laws.Coding.vfadd f
  | vfsub f => exact Laws.Coding.vfsub f
  | vfmul f => exact Laws.Coding.vfmul f
  | vfma f => exact Laws.Coding.vfma f
  | vfmin f => exact Laws.Coding.vfmin f
  | vfmax f => exact Laws.Coding.vfmax f
  | vfrcp f => exact Laws.Coding.vfrcp f
  | vfrsq f => exact Laws.Coding.vfrsq f
  | vfsqrt f => exact Laws.Coding.vfsqrt f
  | vfexp2 f => exact Laws.Coding.vfexp2 f
  | vflog2 f => exact Laws.Coding.vflog2 f
  | vfcmp f => exact Laws.Coding.vfcmp f
  | vfclass f => exact Laws.Coding.vfclass f
  | vcvt f => exact Laws.Coding.vcvt f
  | vfcvt f => exact Laws.Coding.vfcvt f
  | vftoi f => exact Laws.Coding.vftoi f
  | vitof f => exact Laws.Coding.vitof f
  | vshfl f => exact Laws.Coding.vshfl f
  | vshflx f => exact Laws.Coding.vshflx f
  | vslide f => exact Laws.Coding.vslide f
  | vbcast f => exact Laws.Coding.vbcast f
  | vvote f => exact Laws.Coding.vvote f
  | vreduce f => exact Laws.Coding.vreduce f
  | vscan f => exact Laws.Coding.vscan f
  | ld f => exact Laws.Coding.ld f
  | st f => exact Laws.Coding.st f
  | lds f => exact Laws.Coding.lds f
  | sts f => exact Laws.Coding.sts f
  | prefetch f => exact Laws.Coding.prefetch f
  | atom f => exact Laws.Coding.atom f
  | atomf f => exact Laws.Coding.atomf f
  | atomcas f => exact Laws.Coding.atomcas f
  | commit f => exact Laws.Coding.commit f
  | commitc f => exact Laws.Coding.commitc f
  | mark f => exact Laws.Coding.mark f
  | abort f => exact Laws.Coding.abort f
  | waitcnt f => exact Laws.Coding.waitcnt f
  | bara f => exact Laws.Coding.bara f
  | barw f => exact Laws.Coding.barw f
  | bars f => exact Laws.Coding.bars f
  | barx f => exact Laws.Coding.barx f
  | vralloc f => exact Laws.Coding.vralloc f
  | rte f => exact Laws.Coding.rte f
  | launch f => exact Laws.Coding.launch f
  | sigop f => exact Laws.Coding.sigop f
  | mma f => exact Laws.Coding.mma f
  | mmas f => exact Laws.Coding.mmas f
  | mmac f => exact Laws.Coding.mmac f
  | mmag f => exact Laws.Coding.mmag f
  | qhist f => exact Laws.Coding.qhist f
  | qscale f => exact Laws.Coding.qscale f
  | qcvt f => exact Laws.Coding.qcvt f
  | qclr f => exact Laws.Coding.qclr f
  | rqcopy f => exact Laws.Coding.rqcopy f
  | rqfill f => exact Laws.Coding.rqfill f
  | rqgather f => exact Laws.Coding.rqgather f
  | rqscatter f => exact Laws.Coding.rqscatter f
  | rqputs f => exact Laws.Coding.rqputs f
  | rqred f => exact Laws.Coding.rqred f
  | rqlist f => exact Laws.Coding.rqlist f
  | rqswap f => exact Laws.Coding.rqswap f
  | pktld f => exact Laws.Coding.pktld f
  | pktdone f => exact Laws.Coding.pktdone f
  | sigrmw f => exact Laws.Coding.sigrmw f
  | qsave f => exact Laws.Coding.qsave f
  | qload f => exact Laws.Coding.qload f
  | dispatch f => exact Laws.Coding.dispatch f
  | pendscan f => exact Laws.Coding.pendscan f
  | qarm f => exact Laws.Coding.qarm f
  | dbgrd f => exact Laws.Coding.dbgrd f
  | dbgwr f => exact Laws.Coding.dbgwr f
  | dstep f => exact Laws.Coding.dstep f
  | dresume f => exact Laws.Coding.dresume f
  | dreturn f => exact Laws.Coding.dreturn f
  | wpset f => exact Laws.Coding.wpset f
  | trctl f => exact Laws.Coding.trctl f
  | vhrd f => exact Laws.Coding.vhrd f
  | _ => exact Laws.Coding.none _ rfl rfl

/-- Settles O2, constructor by constructor: the coding of each instruction, from its format's. -/
theorem encodeThenDecode : Obligations.EncodeThenDecode := coding

/-- Settles O1: each word is run through the decoder. -/
theorem specWordsDecode : Obligations.SpecWordsDecode := by
  unfold Obligations.SpecWordsDecode
  exact ⟨rfl, rfl, rfl, rfl, rfl, rfl, rfl, rfl, rfl, rfl, rfl, rfl⟩

/-! ## Scalar registers -/

/-- A scalar register after a write: `s0` keeps its zero (R69). -/
theorem rawS_wrS (g : Gang) (n m : Nat) (x : W32) : (g.wrS n x).rawS m = if m = n ∧ n ≠ 0 then x else g.rawS m := by
  unfold Gang.wrS
  split
  · next hn => simp [hn]
  · next hn =>
    simp only [Gang.rawS, Store.getD_putD, ne_eq, hn, not_false_eq_true, and_true]
    by_cases hm : m = n
    · rw [if_pos hm, if_pos hm, if_neg (hm ▸ hn)]
    · rw [if_neg hm, if_neg hm]

/-- A scalar pair after a write: the high half in the odd register, the low half in the even one (R84). -/
theorem rawS_wrS64 (g : Gang) (n m : Nat) (x : W64) : (g.wrS64 n x).rawS m =
    if m = n + 1 then hiHalf x else if m = n ∧ n ≠ 0 then loHalf x else g.rawS m := by
  simp [Gang.wrS64, rawS_wrS]

theorem loHalf_ofNat (x : Nat) : loHalf (BitVec.ofNat 64 x) = BitVec.ofNat 32 x := by
  apply BitVec.eq_of_toNat_eq
  simp only [loHalf, BitVec.toNat_ofNat]
  omega

/-- Settles O10, by what a register holds after the write of one register and of a pair. -/
theorem scalarRegisterWrites : Obligations.ScalarRegisterWrites := by
  unfold Obligations.ScalarRegisterWrites
  intro g t n x m
  have hz : n.toNat = 0 ↔ n = 0 := BitVec.toNat_inj (y := 0)
  refine ⟨fun ht => ?_, fun ht => ?_⟩
  · simp [Gang.wrScalar, ht, rawS_wrS, hz]
  · simp [Gang.wrScalar, ht, rawS_wrS64, hz, loHalf_ofNat, hiHalf]

/-! ## Vector compares -/

theorem boolNat_bne_zero (b : Bool) : (boolNat b != 0) = b := by cases b <;> rfl

/-- No sticky bit changes nothing (R98). -/
theorem setSticky_zero (g : Gang) : g.setSticky 0 = g := by
  simp [Gang.setSticky]

theorem foldl_or_zero (l : List Nat) : l.foldl (fun (a : W32) _ => a ||| 0) 0 = 0 := by
  induction l with
  | nil => rfl
  | cons k l ih => exact ih

section
variable {mask : MaskSel} {gang : Bool} {dst : Opd} {s : State} {c : Ctx} (h : Issues s c gang false) (f : Nat → LaneFn)
include h

/-- A compare into a mask or `em`: the bits of the active lanes whose result is not zero (R134). -/
theorem vecCompare_mask (hd : ∀ n, dst ≠ .v n) :
    vecCompare mask gang dst f s = s.goesOn c
      ((c.gang.wrMask dst (c.active s.now mask)
        (lanesOfList ((laneList (c.active s.now mask)).filter (fun k => (f s.now c.gang k).1 != 0)))).setSticky
        ((laneList (c.active s.now mask)).foldl (fun a k => a ||| (f s.now c.gang k).2) 0)) := by
  refine issueWord_ok h ?_
  cases dst with
  | v n => exact absurd rfl (hd n)
  | _ => simp only [List.filter_map, List.map_map, List.foldl_map, Function.comp_def, List.map_id']

/-- A compare into a vector register: each active lane's result (R134). -/
theorem vecCompare_vector {n : BitVec 8} (hd : dst = .v n) :
    vecCompare mask gang dst f s = s.goesOn c
      (((laneList (c.active s.now mask)).foldl (fun g k => g.wrLane32 dst k (f s.now c.gang k).1) c.gang).setSticky
        ((laneList (c.active s.now mask)).foldl (fun a k => a ||| (f s.now c.gang k).2) 0)) := by
  subst hd
  refine issueWord_ok h ?_
  simp only [List.foldl_map]

/-- A form whose result is one 32-bit register writes it in each active lane (R128). -/
theorem vecForm32_issues : vecForm32 mask gang dst f s =
    s.goesOn c (c.gang.eachLane (c.active s.now mask) (f s.now) (fun g k x => g.wrLane32 dst k x)) :=
  issueWord_ok h rfl

end

/-- Settles O26, by what a compare into a mask and one into a vector register leave; an integer compare sets no sticky bit. -/
theorem vectorCompares : Obligations.VectorCompares := by
  unfold Obligations.VectorCompares
  intro s c
  refine ⟨fun f h => ⟨fun hd => ⟨congrArg Host.Outcome.next ?_, congrArg Host.Outcome.next ?_⟩, ?_⟩, fun f h => ?_⟩
  · rw [vecCompare_mask h _ hd]
    simp only [boolNat_bne_zero, foldl_or_zero, setSticky_zero]
  · rw [vecCompare_mask h _ hd]
    simp only [boolNat_bne_zero]
  · rintro ⟨n, hn⟩
    refine ⟨congrArg Host.Outcome.next ?_, congrArg Host.Outcome.next ?_⟩
    · rw [vecCompare_vector h _ hn]
      simp only [foldl_or_zero, setSticky_zero, boolNat]
    · exact vecCompare_vector h _ hn
  · exact congrArg Host.Outcome.next (vecForm32_issues h _)

end Sys2Proof.PressEncoding
end

section
/-!
PROOFS. Numbers and registers: integer results (R97), what a vector form writes lane by lane (R84, R128), the minimum and maximum of
floats (R95), the float forms (R90 to R95, R130, R140), the special registers (R123 to R126), and the registers of a gang at its start
and after a restore (R98, R213, R220).
-/
namespace Sys2Proof.FormatsNumbers
open Sys2Proof.Machine

/-! ## Integer results -/

theorem wrapI_cast (w : Nat) (v : Int) : (wrapI w v : Int) = v % (2 : Int) ^ w := by
  have hpos : (0 : Int) < ((2 ^ w : Nat) : Int) := Int.natCast_pos.mpr (Nat.two_pow_pos w)
  have hcast : ((2 ^ w : Nat) : Int) = (2 : Int) ^ w := Int.natCast_pow 2 w
  rw [wrapI, Int.toNat_of_nonneg (Int.emod_nonneg v (Int.ne_of_gt hpos)), hcast]

theorem minOf_eq (sg : Bool) (w : Nat) : minOf sg w = if sg then -(2 : Int) ^ (w - 1) else 0 := by
  simp [minOf]

theorem maxOf_eq (sg : Bool) (w : Nat) : maxOf sg w = if sg then (2 : Int) ^ (w - 1) - 1 else (2 : Int) ^ w - 1 := by
  simp [maxOf]

theorem minOf_le_maxOf (sg : Bool) (w : Nat) : minOf sg w ≤ maxOf sg w := by
  have hhalf := Nat.two_pow_pos (w - 1)
  have hfull := Nat.two_pow_pos w
  cases sg <;> simp only [minOf, maxOf, if_true, Bool.false_eq_true, if_false] <;> omega

/-- A number below the range gives the least, one above it the greatest (R97). -/
theorem clampTo_eq (sg : Bool) (w : Nat) (v : Int) :
    clampTo sg w v = if v < minOf sg w then minOf sg w else if maxOf sg w < v then maxOf sg w else v := by
  have h := minOf_le_maxOf sg w
  unfold clampTo
  split
  · omega
  · split <;> omega

theorem clampTo_eq_self_iff (sg : Bool) (w : Nat) (v : Int) : clampTo sg w v = v ↔ minOf sg w ≤ v ∧ v ≤ maxOf sg w := by
  have h := minOf_le_maxOf sg w
  unfold clampTo
  omega

/-- Settles O9, by the bounds of the type and the number clamped between them. -/
theorem integerResults : Obligations.IntegerResults := by
  unfold Obligations.IntegerResults
  intro t v _
  dsimp only
  rw [← minOf_eq, ← maxOf_eq, ← clampTo_eq]
  refine ⟨wrapI_cast _ _, rfl, wrapI_cast _ _, ?_⟩
  simp only [outT, outW, if_true, clampTo_eq_self_iff, flagSAT]

/-! ## Vector lanes -/

theorem mem_laneList (l : Lanes) (k : Nat) : k ∈ laneList l ↔ k < 128 ∧ l.getLsbD k = true := by
  simp [laneList]

/-- No two elements of the register file share a key (R39). -/
theorem vKey_inj {m n j k : Nat} (hj : j < 128) (hk : k < 128) : vKey m k = vKey n j ↔ m = n ∧ k = j := by
  unfold vKey
  omega

/-- A vector element after a write of one. -/
theorem rawV_wrV (g : Gang) (n m : Nat) (x : W32) {j k : Nat} (hj : j < 128) (hk : k < 128) :
    (g.wrV n j x).rawV m k = if m = n ∧ k = j then x else g.rawV m k := by
  simp only [Gang.rawV, Gang.wrV, Store.getD_putD, vKey_inj hj hk]

/-- One vector register written in some lanes. -/
def wrVLanes (n : Nat) (x : Nat → W32) (lanes : List Nat) (g : Gang) : Gang := lanes.foldl (fun h j => h.wrV n j (x j)) g

theorem rawV_wrVLanes (n m : Nat) (x : Nat → W32) {k : Nat} (hk : k < 128) (lanes : List Nat) (hl : ∀ j ∈ lanes, j < 128) (g : Gang) :
    (wrVLanes n x lanes g).rawV m k = if m = n ∧ k ∈ lanes then x k else g.rawV m k := by
  induction lanes generalizing g with
  | nil => simp [wrVLanes]
  | cons j js ih =>
    obtain ⟨hj, hjs⟩ := List.forall_mem_cons.mp hl
    have hstep : wrVLanes n x (j :: js) g = wrVLanes n x js (g.wrV n j (x j)) := rfl
    rw [hstep, ih hjs, rawV_wrV g n m _ hj hk]
    by_cases hm : m = n <;> by_cases hkj : k = j <;> simp [hm, hkj]

/-- A write of a vector register changes the register file and what the outstanding operations note of it (R14), and no more. -/
theorem wrVLanes_frame (n : Nat) (x : Nat → W32) (lanes : List Nat) (g : Gang) :
    ∃ v o, wrVLanes n x lanes g = { g with vregs := v, ops := o } := by
  induction lanes generalizing g with
  | nil => exact ⟨g.vregs, g.ops, rfl⟩
  | cons j js ih =>
    obtain ⟨v, o, h⟩ := ih (g.wrV n j (x j))
    exact ⟨v, o, h⟩

theorem getLsbD_foldl_or (x : Nat → W32) (b : Nat) (l : List Nat) (a : W32) :
    (l.foldl (fun a j => a ||| x j) a).getLsbD b = true ↔ a.getLsbD b = true ∨ ∃ j ∈ l, (x j).getLsbD b = true := by
  induction l generalizing a with
  | nil => simp
  | cons j js ih => simp [ih, or_assoc]

/-- What a vector form of at most 32 bits writes: the register in the active lanes, then the sticky bits of them all. -/
theorem eachLane_wrLane (g : Gang) (lanes : Lanes) (f : LaneFn) {t : Ty} (ht : t.is64 = false) (n : BitVec 8) :
    g.eachLane lanes f (fun h k x => h.wrLane t (.v n) k x) =
      (wrVLanes n.toNat (fun k => BitVec.ofNat 32 (extendTy t (f g k).1)) (laneList lanes) g).setSticky
        ((laneList lanes).foldl (fun a k => a ||| (f g k).2) 0) := by
  simp [Gang.eachLane, Gang.wrLane, ht, wrVLanes, List.foldl_map]

/-- Settles O11, by what a register written lane by lane holds and what such a write leaves alone. -/
theorem vectorLaneWrites : Obligations.VectorLaneWrites := by
  unfold Obligations.VectorLaneWrites
  intro g lanes f t n m k hk ht
  dsimp only
  rw [eachLane_wrLane g lanes f ht n]
  obtain ⟨v, o, hframe⟩ := wrVLanes_frame n.toNat (fun k => BitVec.ofNat 32 (extendTy t (f g k).1)) (laneList lanes) g
  refine ⟨?_, fun b => ?_, ?_⟩
  · have h := rawV_wrVLanes n.toNat m (fun k => BitVec.ofNat 32 (extendTy t (f g k).1)) hk (laneList lanes)
      (fun j hj => ((mem_laneList lanes j).mp hj).1) g
    simp only [mem_laneList, hk, true_and] at h
    exact h
  · simp [hframe, Gang.setSticky, getLsbD_foldl_or, mem_laneList, and_assoc]
  · rw [hframe]
    exact ⟨rfl, rfl, rfl, rfl, rfl⟩

/-! ## Minimum and maximum -/

/-- The order by which a minimum is chosen (R95): as real numbers, and -0 below +0. -/
def below (a b : FVal) : Bool := if a.cmp b = 0 then a.sign && !b.sign else decide (a.cmp b < 0)

/-- Of two operands that are no NaN, the minimum is the lower one and the maximum the other. -/
theorem minmaxV_of_numbers (mx : Bool) {a b : FVal} (ha : a.isNaN = false) (hb : b.isNaN = false) :
    (minmaxV mx a b).1 = if below a b == mx then b else a := by
  cases a with
  | nan => cases ha
  | inf n => cases b with
    | nan => cases hb
    | inf | fin => rfl
  | fin n m e => cases b with
    | nan => cases hb
    | inf | fin => rfl

theorem minmaxV_of_below {a b : FVal} (ha : a.isNaN = false) (hb : b.isNaN = false) (hab : below a b = true) (hba : below b a = false) :
    (minmaxV false a b).1 = a ∧ (minmaxV true a b).1 = b ∧ (minmaxV false b a).1 = a ∧ (minmaxV true b a).1 = b := by
  simp [minmaxV_of_numbers, ha, hb, hab, hba]

/-- NV for a signalling operand, whichever is chosen (R94, R95). -/
theorem minmaxV_flag (mx : Bool) (a b : FVal) : (minmaxV mx a b).2 = if a = .nan true ∨ b = .nan true then 1 else 0 := by
  have hsig : ∀ v : FVal, v.isSig = true ↔ v = .nan true := by
    intro v
    cases v <;> simp [FVal.isSig]
  have hflag : (minmaxV mx a b).2 = sigFlag [a, b] := by cases a <;> cases b <;> rfl
  simp [hflag, sigFlag, flagNV, hsig]

theorem signed_mul_pow (n : Bool) (m k : Nat) : signed n (m * 2 ^ k) = signed n m * (2 : Int) ^ k := by
  cases n <;> simp only [signed, if_true, Bool.false_eq_true, if_false, Int.natCast_mul, Int.natCast_pow, Int.neg_mul] <;> rfl

/-- A value with the sign bit is not above zero on any scale, one without it not below. -/
theorem signed_scale_sign (m k : Nat) : signed true m * (2 : Int) ^ k ≤ 0 ∧ 0 ≤ signed false m * (2 : Int) ^ k := by
  rw [← signed_mul_pow, ← signed_mul_pow]
  exact ⟨Int.neg_nonpos_of_nonneg (Int.natCast_nonneg _), Int.natCast_nonneg _⟩

/-- The sign of a finite value as a number. -/
def sgn (n : Bool) (m : Nat) : Int := if m = 0 then 0 else if n then -1 else 1

theorem signed_eq_sgn_mul (n : Bool) (m : Nat) : signed n m = sgn n m * m := by
  by_cases hm : m = 0
  · cases n <;> simp [signed, sgn, hm]
  · cases n <;> simp [signed, sgn, hm]

/-- Two finite values compare by their signs, and where those agree by their magnitudes on a common scale. -/
theorem cmp_fin (n1 n2 : Bool) (m1 m2 : Nat) (e1 e2 : Int) : (FVal.fin n1 m1 e1).cmp (.fin n2 m2 e2) =
    if sgn n1 m1 = sgn n2 m2 then
      sgn n1 m1 * (m1 * 2 ^ (e1 - min e1 e2).toNat - m2 * 2 ^ (e2 - min e1 e2).toNat)
    else sgn n1 m1 - sgn n2 m2 := by
  have hcmp : (FVal.fin n1 m1 e1).cmp (.fin n2 m2 e2) = if sgn n1 m1 ≠ sgn n2 m2 then sgn n1 m1 - sgn n2 m2
      else if sgn n1 m1 == 1 || sgn n1 m1 == -1 then
        sgn n1 m1 * ((m1 * 2 ^ (e1 - min e1 e2).toNat : Nat) - (m2 * 2 ^ (e2 - min e1 e2).toNat : Nat))
      else 0 := rfl
  have hsgn : sgn n1 m1 = 0 ∨ sgn n1 m1 = -1 ∨ sgn n1 m1 = 1 := by
    unfold sgn
    split
    · exact Or.inl rfl
    · split
      · exact Or.inr (Or.inl rfl)
      · exact Or.inr (Or.inr rfl)
  rw [hcmp]
  by_cases h : sgn n1 m1 = sgn n2 m2
  · rcases hsgn with h1 | h1 | h1 <;> simp [h1, ← h]
  · simp [h]

theorem sgn_mul_scale (n : Bool) (m k : Nat) :
    (sgn n m = 0 ∧ (m : Int) * 2 ^ k = 0) ∨ ((sgn n m = 1 ∨ sgn n m = -1) ∧ 0 < (m : Int) * 2 ^ k) := by
  by_cases hm : m = 0
  · exact Or.inl ⟨if_pos hm, by simp [hm]⟩
  · refine Or.inr ⟨?_, Int.mul_pos (Int.natCast_pos.mpr (Nat.pos_of_ne_zero hm)) (Int.pow_pos (by decide))⟩
    cases n <;> simp [sgn, hm]

/-- The order by signs and then magnitudes is the order of the numbers. -/
theorem sign_order {s t x y : Int} (hx : (s = 0 ∧ x = 0) ∨ ((s = 1 ∨ s = -1) ∧ 0 < x))
    (hy : (t = 0 ∧ y = 0) ∨ ((t = 1 ∨ t = -1) ∧ 0 < y)) :
    ((if s = t then s * (x - y) else s - t) < 0 ↔ s * x < t * y) ∧ ((if s = t then s * (x - y) else s - t) = 0 ↔ s * x = t * y) := by
  rcases hx with ⟨rfl, rfl⟩ | ⟨rfl | rfl, hx⟩ <;> rcases hy with ⟨rfl, rfl⟩ | ⟨rfl | rfl, hy⟩ <;> simp <;> omega

theorem below_fin (n1 n2 : Bool) (m1 m2 : Nat) (e1 e2 : Int) {e : Int} (he : e = min e1 e2) :
    below (.fin n1 m1 e1) (.fin n2 m2 e2) = true ↔
      signed n1 m1 * (2 : Int) ^ (e1 - e).toNat < signed n2 m2 * (2 : Int) ^ (e2 - e).toNat ∨
      (signed n1 m1 * (2 : Int) ^ (e1 - e).toNat = 0 ∧ signed n2 m2 * (2 : Int) ^ (e2 - e).toNat = 0 ∧ n1 = true ∧ n2 = false) := by
  subst he
  obtain ⟨hlt, heq⟩ := sign_order (sgn_mul_scale n1 m1 (e1 - min e1 e2).toNat) (sgn_mul_scale n2 m2 (e2 - min e1 e2).toNat)
  rw [← cmp_fin, ← Int.mul_assoc, ← Int.mul_assoc, ← signed_eq_sgn_mul, ← signed_eq_sgn_mul] at hlt heq
  have hneg : n1 = true → signed n1 m1 * (2 : Int) ^ (e1 - min e1 e2).toNat ≤ 0 := by
    rintro rfl
    exact (signed_scale_sign _ _).1
  have hpos : n2 = false → 0 ≤ signed n2 m2 * (2 : Int) ^ (e2 - min e1 e2).toNat := by
    rintro rfl
    exact (signed_scale_sign _ _).2
  unfold below
  by_cases h : (FVal.fin n1 m1 e1).cmp (.fin n2 m2 e2) = 0
  · rw [if_pos h]
    simp only [FVal.sign, Bool.and_eq_true, Bool.not_eq_true']
    have hxy := heq.mp h
    constructor
    · rintro ⟨h1, h2⟩
      have := hneg h1
      have := hpos h2
      exact Or.inr ⟨by omega, by omega, h1, h2⟩
    · rintro (hl | ⟨-, -, h12⟩)
      · omega
      · exact h12
  · rw [if_neg h, decide_eq_true_eq, hlt]
    rw [heq] at h
    omega

theorem below_fin_asymm {n1 n2 : Bool} {m1 m2 : Nat} {e1 e2 : Int} (h : below (.fin n1 m1 e1) (.fin n2 m2 e2) = true) :
    below (.fin n2 m2 e2) (.fin n1 m1 e1) = false := by
  refine Bool.eq_false_iff.mpr fun h' => ?_
  rw [below_fin n1 n2 m1 m2 e1 e2 rfl] at h
  rw [below_fin n2 n1 m2 m1 e2 e1 (Int.min_comm e1 e2)] at h'
  rcases h with hlt | ⟨hx, hy, hn1, hn2⟩
  · omega
  · rcases h' with hlt' | ⟨-, -, hn2', -⟩
    · omega
    · exact absurd hn2' (Bool.eq_false_iff.mp hn2)

/-- An infinity lies beyond every finite value. -/
theorem below_inf_fin (n : Bool) (m : Nat) (e : Int) :
    below (.inf true) (.fin n m e) = true ∧ below (.fin n m e) (.inf true) = false ∧
    below (.inf false) (.fin n m e) = false ∧ below (.fin n m e) (.inf false) = true := by
  by_cases hm : m = 0
  · cases n <;> simp [below, FVal.cmp, hm]
  · cases n <;> simp [below, FVal.cmp, hm]

/-- A negative infinity is the minimum beside any number (R95). -/
theorem minmaxV_neg_inf {b : FVal} (hb : b.isNaN = false) : (minmaxV false (.inf true) b).1 = .inf true ∧
    (minmaxV true (.inf true) b).1 = b ∧ (minmaxV false b (.inf true)).1 = .inf true ∧ (minmaxV true b (.inf true)).1 = b := by
  cases b with
  | nan => cases hb
  | inf n => cases n <;> decide
  | fin n m e =>
    obtain ⟨hab, hba, -, -⟩ := below_inf_fin n m e
    exact minmaxV_of_below rfl rfl hab hba

/-- A positive infinity is the maximum beside any number (R95). -/
theorem minmaxV_pos_inf {b : FVal} (hb : b.isNaN = false) : (minmaxV false (.inf false) b).1 = b ∧
    (minmaxV true (.inf false) b).1 = .inf false ∧ (minmaxV false b (.inf false)).1 = b ∧
    (minmaxV true b (.inf false)).1 = .inf false := by
  cases b with
  | nan => cases hb
  | inf n => cases n <;> decide
  | fin n m e =>
    obtain ⟨-, -, hab, hba⟩ := below_inf_fin n m e
    obtain ⟨h1, h2, h3, h4⟩ := minmaxV_of_below rfl rfl hba hab
    exact ⟨h3, h4, h1, h2⟩

theorem minmaxV_nan_left (mx s : Bool) {b : FVal} (hb : b.isNaN = false) : (minmaxV mx (.nan s) b).1 = b := by
  cases b with
  | nan => cases hb
  | inf | fin => rfl

theorem minmaxV_nan_right (mx s : Bool) {a : FVal} (ha : a.isNaN = false) : (minmaxV mx a (.nan s)).1 = a := by
  cases a with
  | nan => cases ha
  | inf | fin => rfl

theorem exists_nan_of_isNaN {v : FVal} (h : v.isNaN = true) : ∃ s, v = .nan s := by
  cases v with
  | nan s => exact ⟨s, rfl⟩
  | inf | fin => cases h

/-- Settles O14, by the NaNs first, then the order of the numbers. -/
theorem floatMinMax : Obligations.FloatMinMax := by
  unfold Obligations.FloatMinMax
  intro mx a b
  refine ⟨fun ha hb => ?_, fun ha hb => ?_, fun ha hb => ?_, minmaxV_flag mx a b, ?_, fun ha hb => ?_, ?_, ?_, fun _ _ _ => rfl⟩
  · obtain ⟨s, rfl⟩ := exists_nan_of_isNaN ha
    exact minmaxV_nan_left mx s hb
  · obtain ⟨s, rfl⟩ := exists_nan_of_isNaN hb
    exact minmaxV_nan_right mx s ha
  · obtain ⟨s, rfl⟩ := exists_nan_of_isNaN ha
    obtain ⟨r, rfl⟩ := exists_nan_of_isNaN hb
    rfl
  · rintro n1 n2 m1 m2 e1 e2 rfl rfl
    dsimp only
    rw [← Int.min_def]
    intro hless
    have hab := (below_fin n1 n2 m1 m2 e1 e2 rfl).mpr hless
    exact minmaxV_of_below rfl rfl hab (below_fin_asymm hab)
  · rw [minmaxV_of_numbers mx ha hb]
    split
    · exact Or.inr rfl
    · exact Or.inl rfl
  · rintro rfl hb
    exact minmaxV_neg_inf hb
  · rintro rfl hb
    exact minmaxV_pos_inf hb

/-! ## Float forms -/

/-- A form that writes its lanes at issue leaves what its lanes compute, and its group goes on (R128). -/
theorem vecForm_issues {mask : MaskSel} {gang : Bool} {s : State} {c : Ctx} (h : Issues s c gang false) (t : Ty) (dst : Opd)
    (f : Nat → LaneFn) : vecForm mask gang t dst f s =
      s.goesOn c (c.gang.eachLane (c.active s.now mask) (f s.now) (fun g k x => g.wrLane t dst k x)) :=
  issueWord_ok h rfl

/-- A float form of two operands: each active lane's exact value, rounded once (R90). -/
theorem floatForm_passes {f : FmtF2} {s : State} {c : Ctx} (h : Issues s c f.gang false) (op : Rnd → FVal → FVal → FVal × W32) :
    .next (floatForm op f s) = s.passes c
      (c.gang.eachLane (c.active s.now f.mask) (floatBin op f s.now) (fun g k x => g.wrLane f.ty f.dst k x)) :=
  congrArg Host.Outcome.next (vecForm_issues h f.ty f.dst (floatBin op f))

/-- A long form reads its sources at issue; its results and sticky bits are left to land (R130). -/
theorem longForm_issues {f : FmtF2} {s : State} {c : Ctx} (h : Issues s c f.gang false) (op : FVal → FVal × W32) :
    longForm op f s = (s.addResult c
      ((laneList (c.active s.now f.mask)).flatMap (fun k => laneWrites f.ty f.dst k (floatUn op f s.now c.gang k).1))
      ((laneList (c.active s.now f.mask)).foldl (fun m k => m ||| (floatUn op f s.now c.gang k).2) 0)).advance c.uid c.slice := by
  refine issueWord_ok h ?_
  simp only [List.flatMap_map, List.foldl_map]

theorem signed_mul (n1 n2 : Bool) (m1 m2 : Nat) : signed (n1 != n2) (m1 * m2) = signed n1 m1 * signed n2 m2 := by
  cases n1 <;> cases n2 <;> simp only [signed, bne_self_eq_false, Bool.true_bne, Bool.false_bne, Bool.not_false, if_true,
    Bool.false_eq_true, if_false, Int.natCast_mul, Int.neg_mul, Int.mul_neg, Int.neg_neg]

theorem signed_natAbs (x : Int) : signed (decide (x < 0)) x.natAbs = x := by
  simp only [signed, decide_eq_true_eq]
  split <;> omega

/-- A sum of finite values is exact, on the scale of the finer one (R90). -/
theorem addFin_exact (rnd : Rnd) (n1 n2 : Bool) (m1 m2 : Nat) (e1 e2 : Int) :
    ∃ n m, addFin rnd n1 m1 e1 n2 m2 e2 = .fin n m (min e1 e2) ∧
      signed n m = signed n1 m1 * (2 : Int) ^ (e1 - min e1 e2).toNat + signed n2 m2 * (2 : Int) ^ (e2 - min e1 e2).toNat := by
  simp only [addFin, signed_mul_pow]
  split
  · next hx => exact ⟨_, 0, rfl, by rw [hx]; simp [signed]⟩
  · exact ⟨_, _, rfl, signed_natAbs _⟩

/-- A product of finite values is exact, and so is its sum with a third: no rounding stands between them (R140). -/
theorem fmaV_exact (rnd : Rnd) (n1 n2 n3 : Bool) (m1 m2 m3 : Nat) (e1 e2 e3 : Int) :
    ∃ n m e, fmaV rnd (.fin n1 m1 e1) (.fin n2 m2 e2) (.fin n3 m3 e3) = (.fin n m e, 0) ∧ e ≤ e1 + e2 ∧ e ≤ e3 ∧
      signed n m = signed n1 m1 * signed n2 m2 * (2 : Int) ^ (e1 + e2 - e).toNat + signed n3 m3 * (2 : Int) ^ (e3 - e).toNat := by
  obtain ⟨n, m, hsum, hnum⟩ := addFin_exact rnd (n1 != n2) n3 (m1 * m2) m3 (e1 + e2) e3
  rw [signed_mul] at hnum
  refine ⟨n, m, min (e1 + e2) e3, ?_, Int.min_le_left _ _, Int.min_le_right _ _, hnum⟩
  simp [fmaV, mulV, addV, hsum]

/-- Settles O28: the forms as their bodies give them, and the exact sum of a product and an addend. -/
theorem floatForms : Obligations.FloatForms := by
  unfold Obligations.FloatForms
  intro s c
  refine ⟨fun f h => congrArg Host.Outcome.next (vecForm_issues h _ _ _), fmaV_exact, fun f h => ?_⟩
  have lanes (op : Rnd → FVal → FVal → FVal × W32) := floatForm_passes h op
  have later (op : FVal → FVal × W32) := congrArg (Host.Outcome.next (φ := Fault) (ρ := Refusal)) (longForm_issues h op)
  exact ⟨lanes _, lanes _, lanes _, lanes _, lanes _, later _, later _, later _, later _, later _⟩

/-! ## Special registers -/

/-- The gang behind a read of a special register (R111, R123): the trap registers and the clock fill a pair, the others one scalar,
the lane sets a mask or the lanes. -/
def srdGang (s : State) (c : Ctx) (dst : Opd) (r : SReg) : Gang :=
  match r with
  | .laneid => c.gang.eachLane c.activeAll (fun _ k => (k, 0)) (fun h k x => h.wrLane32 dst k x)
  | .gangmask => c.gang.wrMask dst c.maskLanes (c.gang.gangMask c.grp.slices)
  | .pendmask => c.gang.wrMask dst c.maskLanes c.grp.pend
  | .cycles | .tvec | .tval | .tret => c.gang.wrScalar64 dst (BitVec.ofNat 64 (s.specialVal c.gang c.grp r))
  | _ => c.gang.wrScalar32 dst (s.specialVal c.gang c.grp r)

theorem srd_passes {f : FmtS} {s : State} {c : Ctx} (h : Issues s c false (namesMask f.dst)) {r : SReg} (ha : f.a = .sr r) :
    exec (.srd f) s = s.passes c (srdGang s c f.dst r) := by
  refine congrArg Host.Outcome.next (issueWord_ok h ?_)
  rw [ha]
  cases r <;> rfl

theorem swr_passes {f : FmtS} {s : State} {c : Ctx} (h : Issues s c false false) {r : SReg} (hd : f.dst = .sr r) :
    exec (.swr f) s = s.passes c (c.gang.writeSpecial s.now r f.a) := by
  refine congrArg Host.Outcome.next (issueWord_ok h ?_)
  rw [hd]

/-- The trap registers of 64 bits read as they stand. -/
theorem srdGang_trap (s : State) (c : Ctx) (dst : Opd) : srdGang s c dst .tvec = c.gang.wrScalar64 dst c.gang.tvec ∧
    srdGang s c dst .tval = c.gang.wrScalar64 dst c.gang.tval ∧ srdGang s c dst .tret = c.gang.wrScalar64 dst c.gang.tret := by
  simp [srdGang, State.specialVal]

theorem srdGang_cycles (s : State) (c : Ctx) (dst : Opd) : srdGang s c dst .cycles =
    c.gang.wrScalar64 dst (BitVec.ofNat 64 (if c.gang.det s then s.launchClock c.gang else s.clockOf c.gang.coreKey)) := rfl

theorem srdGang_block {s : State} {c : Ctx} (dst : Opd) {b : Block} (hb : s.block? c.gang.block = some b) :
    srdGang s c dst .blockid = c.gang.wrScalar32 dst b.blockid ∧ srdGang s c dst .crank = c.gang.wrScalar32 dst b.crank := by
  simp [srdGang, State.specialVal, hb]

/-- A write to a special register that is no trap register, `%astatus` or `%tvec` is ignored (R124). -/
theorem writeSpecial_readOnly (g : Gang) (now : Nat) (a : Opd) : ∀ r ∈ [SReg.laneid, .gangid, .blockid, .clusterid, .role, .measure,
    .gangmask, .launchw, .coreid, .dieid, .cycles, .pendmask, .crank], g.writeSpecial now r a = g := by
  simp [Gang.writeSpecial]

/-- Settles O19, register by register. -/
theorem specialRegisters : Obligations.SpecialRegisters := by
  unfold Obligations.SpecialRegisters
  intro s c f
  refine ⟨fun h => ?_, fun h => ?_⟩
  · obtain ⟨htvec, htval, htret⟩ := srdGang_trap s c f.dst
    have reads {r : SReg} (ha : f.a = .sr r) := srd_passes h ha
    refine ⟨reads, reads, reads, reads, reads, reads, reads, reads, reads,
      fun b hb => ⟨fun ha => ?_, fun ha => ?_⟩, reads, reads, reads,
      fun ha => ?_, fun ha => ?_, fun ha => ?_, fun hdet ha => ?_, fun hdet ha => ?_⟩
    · rw [reads ha, (srdGang_block f.dst hb).1]
    · rw [reads ha, (srdGang_block f.dst hb).2]
    · rw [reads ha, htvec]
    · rw [reads ha, htval]
    · rw [reads ha, htret]
    · rw [reads ha, srdGang_cycles, hdet]
      rfl
    · rw [reads ha, srdGang_cycles, if_pos hdet]
  · have takes {r : SReg} (hd : f.dst = .sr r) := swr_passes h hd
    refine ⟨takes, takes, takes, takes, takes, fun r hr hd => ?_⟩
    rw [takes hd, writeSpecial_readOnly _ _ _ r hr]

/-! ## The start of a gang -/

theorem startGang_gangs (s : State) (gr : Grid) (block core part : Nat) (x : GangShape) :
    (s.startGang gr block core part x).gangs = s.gangs ++ [(Gang.start s.nextUid block x.gangid x.role x.prio gr.desc.measure x.live x.allot
      (.press part ((s.freeSlots core part (gr.desc.measure / 32)).headD 0)) (core, part) (s.freeSlots core part (gr.desc.measure / 32))
      gr.desc.code (gr.desc.code + 64 + BitVec.ofNat 64 (8 * x.entry)) gr.desc.tvec).startValues gr.desc] := by
  simp [State.startGang]

/-- The scalars at the start: the arguments in `s2:3` over what the gang held (R220). -/
theorem rawS_startValues (g : Gang) (d : Desc) (m : Nat) : (g.startValues d).rawS m =
    if m = 3 then BitVec.ofNat 32 (d.args.toNat / 2 ^ 32) else if m = 2 then BitVec.ofNat 32 d.args.toNat else g.rawS m := by
  have h : (g.startValues d).rawS m = (g.wrS64 2 d.args).rawS m := rfl
  rw [h, PressEncoding.rawS_wrS64]
  simp [hiHalf, loHalf]

/-! ## A restored gang -/

/-- The state holds a gang, its groups as they may be. -/
def HoldsUpToGroups (s : State) (g : Gang) : Prop := ∃ gs, s.gang? g.uid = some { g with groups := gs }

theorem requestAts_gangs (s : State) (w : Waiter) (pasid va : Nat) (wr : Bool) : (s.requestAts w pasid va wr).gangs = s.gangs := by
  unfold State.requestAts
  dsimp only
  split <;> rfl

theorem requestPri_gangs (s : State) (pasid page : Nat) (wr : Bool) (waiters : List Waiter) :
    (s.requestPri pasid page wr waiters).gangs = s.gangs := by
  unfold State.requestPri
  split <;> rfl

theorem requestMiss_gangs (s : State) (g : Gang) (pasid : Nat) (wr : Bool) (e : Miss) : (s.requestMiss g pasid wr e).gangs = s.gangs := by
  unfold State.requestMiss
  split
  · exact requestPri_gangs _ _ _ _ _
  · exact requestAts_gangs _ _ _ _ _

/-- Looking up a parked group's translations again changes, among the gangs, that group alone (R213). -/
theorem lookAgain_gangs (s : State) (g : Gang) (r : Group) :
    ∃ r', (s.lookAgain g r).gangs = (s.updGang g.uid (fun g => g.setGroup r')).gangs :=
  ⟨_, foldl_field State.gangs _ (fun s e => requestMiss_gangs s g _ _ e) _ _⟩

theorem setGroup_holds {s t : State} {g : Gang} {gs : List Group} (hs : s.gang? g.uid = some { g with groups := gs }) (r : Group)
    (ht : t.gangs = (s.updGang g.uid (fun h => h.setGroup r)).gangs) : HoldsUpToGroups t g := by
  let h : Gang := { g with groups := gs }
  have hset : t.gang? g.uid = (s.setGang (h.setGroup r)).gang? (h.setGroup r).uid := by
    unfold State.gang? at hs ⊢
    rw [ht]
    simp only [State.updGang, State.gang?, hs]
    rfl
  exact ⟨(h.setGroup r).groups, hset.trans (State.gang?_setGang_self s (h.setGroup r) h hs)⟩

theorem lookAgain_holds {s : State} {g : Gang} {gs : List Group} (hs : s.gang? g.uid = some { g with groups := gs }) (r : Group) :
    HoldsUpToGroups (s.lookAgain { g with groups := gs } r) g := by
  obtain ⟨r', hr⟩ := lookAgain_gangs s { g with groups := gs } r
  exact setGroup_holds hs r' hr

/-- A restored gang has its place, and its groups look up their pages again; the rest is as it was saved (R213). -/
theorem restoreGang_holds {s : State} {g g0 : Gang} (hg : s.gang? g.uid = some g0) (core part : Nat) :
    ∃ place slots guest, HoldsUpToGroups (s.restoreGang g core part)
      { g with home := (core, part), slots := slots, place := place, guest := guest } := by
  unfold State.restoreGang
  dsimp only
  refine ⟨_, _, _, List.foldlRecOn _ _ (motive := fun t => HoldsUpToGroups t _)
    ⟨_, State.gang?_setGang_self s _ g0 hg⟩ fun t ⟨gs, hgs⟩ r _ => ?_⟩
  dsimp only at hgs ⊢
  rw [hgs]
  exact lookAgain_holds hgs r

/-- Settles O45, by the gang that a start adds and the one that a restore leaves. -/
theorem gangStart : Obligations.GangStart := by
  unfold Obligations.GangStart
  intro s gr block core part x
  refine ⟨⟨_, startGang_gangs s gr block core part x, ?_, ?_, fun m h2 h3 => ?_,
    fun _ _ => rfl, fun _ => rfl, rfl, rfl, rfl, rfl, fun _ => rfl, rfl, rfl, rfl⟩, fun g det hg => ?_⟩
  · simp [rawS_startValues]
  · simp [rawS_startValues]
  · rw [rawS_startValues, if_neg h3, if_neg h2]
    exact ite_self _
  · obtain ⟨place, slots, guest, gs, h⟩ := restoreGang_holds (g := g.saved det) hg core part
    exact ⟨_, h, rfl, rfl, rfl, rfl, rfl, rfl, rfl⟩

end Sys2Proof.FormatsNumbers
end

section
/-!
PROOFS. The scalar words (R104, R107 to R110): what each writes, as numbers for the arithmetic and bit by bit for the fields; the mask
words (R111, R112); `join` and `exit` slice by slice (R117, R121).
-/
namespace Sys2Proof.ScalarControl
open Sys2Proof.Machine Sys2Proof.FormatsNumbers

/-! ## Numbers of a width -/

theorem width_pos (t : Ty) : 0 < t.width := by cases t <;> decide

theorem wrapI_eq_toNat_emod (w : Nat) (v : Int) : wrapI w v = (v % (2 : Int) ^ w).toNat := by
  rw [← wrapI_cast, Int.toNat_natCast]

theorem sintOf_of_pos {w : Nat} (hw : 0 < w) (x : Nat) :
    sintOf w x = if 2 ^ (w - 1) ≤ x % 2 ^ w then ((x % 2 ^ w : Nat) : Int) - (2 : Int) ^ w else ((x % 2 ^ w : Nat) : Int) := by
  have hcast : ((2 ^ w : Nat) : Int) = (2 : Int) ^ w := Int.natCast_pow 2 w
  unfold sintOf
  dsimp only
  rw [if_neg (Nat.ne_of_gt hw), hcast]
  split
  · next hlt => rw [if_neg (Nat.not_le.mpr hlt)]
  · next hge => rw [if_pos (Nat.not_lt.mp hge)]

theorem numOf_eq (t : Ty) (x : Nat) : numOf t x = if t.isI = true ∧ 2 ^ (t.width - 1) ≤ x % 2 ^ t.width
    then ((x % 2 ^ t.width : Nat) : Int) - (2 : Int) ^ t.width else ((x % 2 ^ t.width : Nat) : Int) := by
  unfold numOf
  rw [sintOf_of_pos (width_pos t)]
  cases t.isI <;> simp

/-- The two's-complement number of R83 is that of the library's bit vectors. -/
theorem sintOf_eq_toInt (w x : Nat) : sintOf w x = (BitVec.ofNat w x).toInt := by
  rcases Nat.eq_zero_or_pos w with rfl | hw
  · exact (BitVec.toInt_of_zero_length rfl _).symm
  · have hhalf : 2 ^ w = 2 * 2 ^ (w - 1) := by rw [← Nat.pow_succ', Nat.succ_eq_add_one, Nat.sub_one_add_one (Nat.ne_of_gt hw)]
    have hcast : ((2 ^ w : Nat) : Int) = (2 : Int) ^ w := Int.natCast_pow 2 w
    rw [sintOf_of_pos hw, BitVec.toInt_eq_toNat_cond, BitVec.toNat_ofNat, hcast]
    split <;> split <;> omega

/-- A number of v bits read as signed and wrapped to w is extended by its sign (R84). -/
theorem wrapI_sintOf (v w x : Nat) : wrapI w (sintOf v x) = ((BitVec.ofNat v x).signExtend w).toNat := by
  rw [sintOf_eq_toInt]
  rfl

/-! ## Scalar arithmetic -/

/-- A scalar form writes once for the group, which goes on (R104). -/
theorem scalarForm_passes {s : State} {c : Ctx} (h : Issues s c false false) (f : Nat → Gang → Gang) :
    .next (scalarForm f s) = s.passes c (f s.now c.gang) := by
  unfold scalarForm
  exact congrArg Host.Outcome.next (issueWord_ok h rfl)

/-- Settles O15, by the number that a form computes and its remainder modulo 2^w. -/
theorem scalarArithmetic : Obligations.ScalarArithmetic := by
  unfold Obligations.ScalarArithmetic
  intro s c f h w num x y writes
  have hnum : num = numOf f.ty := funext fun v => (numOf_eq f.ty v).symm
  have computes (op : Int → Int → Int) : .next (scalarBin op f s) = writes (op x y) := by
    simp only [writes, x, y, hnum, w, ← wrapI_eq_toNat_emod]
    exact scalarForm_passes h _
  have hpow : ((2 ^ w : Nat) : Int) = (2 : Int) ^ w := Int.natCast_pow 2 w
  rw [← hpow]
  exact ⟨computes _, computes _, computes _, computes _, computes min, computes max⟩

/-! ## Moves, logic and shifts -/

theorem shlBits_eq (w x n : Nat) : shlBits w x n = x * 2 ^ n % 2 ^ w := by
  unfold shlBits
  split
  · rfl
  · next hn => exact (Nat.mod_eq_zero_of_dvd (Nat.dvd_mul_left_of_dvd (Nat.pow_dvd_pow 2 (Nat.not_lt.mp hn)) x)).symm

theorem shrBits_eq (w x n : Nat) : shrBits w x n = x % 2 ^ w / 2 ^ n := by
  unfold shrBits
  split
  · rfl
  · next hn =>
    have hlt : x % 2 ^ w < 2 ^ w := Nat.mod_lt _ (Nat.two_pow_pos w)
    exact (Nat.div_eq_of_lt (Nat.lt_of_lt_of_le hlt (Nat.pow_le_pow_right Nat.two_pos (Nat.not_lt.mp hn)))).symm

/-- A signed number of w bits shifted right by w - 1 places or more is its sign: 0 or -1. -/
theorem ediv_two_pow_eq_sign {w n : Nat} {v : Int} (hlo : -(2 : Int) ^ (w - 1) ≤ v) (hhi : v < (2 : Int) ^ (w - 1)) (hn : w - 1 ≤ n) :
    v / (2 : Int) ^ n = if v < 0 then -1 else 0 := by
  have hpow : (2 : Int) ^ (w - 1) ≤ (2 : Int) ^ n := by
    have hnat : ((2 ^ (w - 1) : Nat) : Int) ≤ ((2 ^ n : Nat) : Int) := Int.ofNat_le.mpr (Nat.pow_le_pow_right Nat.two_pos hn)
    rwa [Int.natCast_pow, Int.natCast_pow] at hnat
  split
  · next hneg => exact Int.ediv_eq_neg_one_of_neg_of_le hneg (by omega)
  · next hpos => exact Int.ediv_eq_zero_of_lt (Int.not_lt.mp hpos) (Int.lt_of_lt_of_le hhi hpow)

/-- The arithmetic shift may go on past the width: the sign stays (R107). -/
theorem sraBits_eq (w x n : Nat) : sraBits w x n = (sintOf w x / (2 : Int) ^ n % (2 : Int) ^ w).toNat := by
  have hpow : ((2 ^ min n (w - 1) : Nat) : Int) = (2 : Int) ^ min n (w - 1) := Int.natCast_pow 2 _
  rw [sraBits, wrapI_eq_toNat_emod, hpow]
  rcases Nat.le_total n (w - 1) with hn | hn
  · rw [Nat.min_eq_left hn]
  · have hlo := BitVec.le_toInt (BitVec.ofNat w x)
    have hhi := BitVec.toInt_lt (x := BitVec.ofNat w x)
    rw [← sintOf_eq_toInt] at hlo hhi
    rw [Nat.min_eq_right hn, ediv_two_pow_eq_sign hlo hhi (Nat.le_refl _), ediv_two_pow_eq_sign hlo hhi hn]

theorem moviVal_eq (t : Ty) (imm : BitVec 32) :
    moviVal t imm = if t = .i64 then (imm.toInt % (2 : Int) ^ 64).toNat else imm.toNat := by
  cases t <;> rfl

/-- Settles O16: the forms as their bodies give them, a shift with no bound on its count. -/
theorem scalarBitsShifts : Obligations.ScalarBitsShifts := by
  unfold Obligations.ScalarBitsShifts
  intro s c h
  have writes (f : Nat → Gang → Gang) := scalarForm_passes h f
  refine ⟨fun f => ⟨writes _, writes _, writes _, writes _, ?_, ?_, ?_⟩, fun f => ?_⟩
  · rw [← shlBits_eq]
    exact writes _
  · rw [← shrBits_eq]
    exact writes _
  · rw [← sintOf_of_pos (width_pos f.ty), ← sraBits_eq]
    exact writes _
  · rw [← moviVal_eq]
    exact writes _

/-! ## Compares, selection, counts -/

/-- CMP on two numbers (R71, R109). -/
theorem cmpInt_iff (sel : Nat) (x y : Int) : cmpInt sel x y = true ↔ (sel = 0 ∧ x = y) ∨ (sel = 1 ∧ x ≠ y) ∨ (sel = 2 ∧ x < y) ∨
    (sel = 3 ∧ x ≤ y) ∨ (sel = 4 ∧ y < x) ∨ (sel = 5 ∧ y ≤ x) := by
  unfold cmpInt
  split <;> simp_all

theorem leadingZeros_eq (w x : Nat) :
    leadingZeros w x = if x % 2 ^ w = 0 then w else w - 1 - Nat.log2 (x % 2 ^ w) := by
  unfold leadingZeros
  split
  · rfl
  · omega

theorem popcount_eq_sum (w x : Nat) : popcount w x = ((List.range w).map (fun j => x / 2 ^ j % 2)).sum := by
  unfold popcount
  induction List.range w with
  | nil => rfl
  | cons j js ih =>
    rw [List.map_cons, List.sum_cons, ← ih, List.filter_cons, bit]
    rcases Nat.mod_two_eq_zero_or_one (x / 2 ^ j) with hj | hj <;> simp [hj, Nat.add_comm]

/-! ## Bit fields -/

/-- A number put together from bits, lowest first. -/
def fromBits (n : Nat) (p : Nat → Bool) : Nat := (List.range n).foldl (fun a j => a + (p j).toNat * 2 ^ j) 0

theorem fromBits_succ (n : Nat) (p : Nat → Bool) : fromBits (n + 1) p = 2 ^ n * (p n).toNat + fromBits n p := by
  simp [fromBits, List.range_succ, Nat.add_comm, Nat.mul_comm]

theorem fromBits_lt (n : Nat) (p : Nat → Bool) : fromBits n p < 2 ^ n := by
  induction n with
  | zero => exact Nat.one_pos
  | succ n ih =>
    rw [fromBits_succ, Nat.pow_succ]
    cases p n <;> simp <;> omega

theorem testBit_fromBits (n j : Nat) (p : Nat → Bool) : (fromBits n p).testBit j = (decide (j < n) && p j) := by
  induction n with
  | zero => simp [fromBits]
  | succ n ih =>
    rw [fromBits_succ, Nat.testBit_two_pow_mul_add _ (fromBits_lt n p), ih, Nat.testBit_bool_toNat]
    rcases Nat.lt_trichotomy j n with hj | rfl | hj
    · simp only [hj, Nat.lt_succ_of_lt hj, if_true, decide_true, Bool.true_and]
    · simp only [Nat.lt_irrefl, Nat.lt_succ_self, Nat.sub_self, if_false, decide_true, Bool.true_and]
    · simp only [Nat.not_lt.mpr (Nat.le_of_lt hj), Nat.not_lt.mpr (Nat.succ_le_of_lt hj), Nat.sub_ne_zero_of_lt hj, if_false,
        decide_false, Bool.false_and]

theorem min_eq_ite_lt (a b : Nat) : min a b = if a < b then a else b := by
  split <;> omega

/-- Bit k of the field at a position: past the width a signed type has its sign, an unsigned one zeros (R110). -/
def fieldBit (t : Ty) (x pos k : Nat) : Bool := if pos + k < t.width then x.testBit (pos + k) else t.isI && x.testBit (t.width - 1)

theorem fieldBit_toNat (t : Ty) (x pos k : Nat) : (fieldBit t x pos k).toNat =
    if pos + k < t.width then x / 2 ^ (pos + k) % 2 else if t.isI then x / 2 ^ (t.width - 1) % 2 else 0 := by
  unfold fieldBit
  split
  · exact Nat.toNat_testBit _ _
  · cases t.isI
    · rfl
    · exact Nat.toNat_testBit _ _

/-- `sbfe` is its field, extended by the field's own sign for a signed type (R110). -/
theorem bfe_eq_fromBits (t : Ty) (x fw : Nat) : bfe t x fw =
    let wid := min (fw / 256 % 256) t.width
    let field := fromBits wid (fieldBit t x (fw % 256))
    if t.isI then wrapI t.width (sintOf wid field) else field := by
  simp only [bfe, fromBits, fieldBit_toNat]

theorem testBit_wrapI_sintOf {v w j : Nat} (p : Nat → Bool) (hj : j < w) : (wrapI w (sintOf v (fromBits v p))).testBit j =
    if j < v then p j else decide (0 < v) && p (v - 1) := by
  have hbit (k : Nat) (hk : k < v) : (BitVec.ofNat v (fromBits v p)).getLsbD k = p k := by
    rw [BitVec.getLsbD_ofNat, testBit_fromBits, decide_eq_true hk, Bool.true_and, Bool.true_and]
  rw [wrapI_sintOf, BitVec.testBit_toNat, BitVec.getLsbD_signExtend, BitVec.msb_eq_getLsbD_last, decide_eq_true hj, Bool.true_and]
  split
  · next hjv => exact hbit j hjv
  · rcases Nat.eq_zero_or_pos v with rfl | hv
    · simp
    · rw [hbit _ (Nat.sub_one_lt (Nat.ne_of_gt hv)), decide_eq_true hv, Bool.true_and]

theorem testBit_bfe (t : Ty) (x fw : Nat) {j : Nat} (hj : j < t.width) : (bfe t x fw).testBit j =
    let wid := min (fw / 256 % 256) t.width
    let bitOf := fieldBit t x (fw % 256)
    if j < wid then bitOf j else t.isI && decide (0 < wid) && bitOf (wid - 1) := by
  rw [bfe_eq_fromBits]
  dsimp only
  cases ht : t.isI
  · rw [if_neg Bool.false_ne_true, testBit_fromBits]
    split
    · next hlt => rw [decide_eq_true hlt, Bool.true_and]
    · next hge => rw [decide_eq_false hge, Bool.false_and, Bool.false_and, Bool.false_and]
  · rw [if_pos rfl, testBit_wrapI_sintOf _ hj, Bool.true_and]

theorem testBit_bfi (w x y fw : Nat) {j : Nat} (hj : j < w) : (bfi w x y fw).testBit j =
    if fw % 256 ≤ j ∧ j < fw % 256 + fw / 256 % 256 then y.testBit (j - fw % 256) else x.testBit j := by
  have hbfi : bfi w x y fw = fromBits w (fun k =>
      if fw % 256 ≤ k ∧ k < fw % 256 + fw / 256 % 256 then y.testBit (k - fw % 256) else x.testBit k) := by
    simp only [bfi, fromBits, Bool.and_eq_true, decide_eq_true_eq, apply_ite Bool.toNat, Nat.toNat_testBit]
  rw [hbfi, testBit_fromBits, decide_eq_true hj, Bool.true_and]

/-- Settles O17: a compare by its number, a field bit by bit. -/
theorem scalarSelectCountField : Obligations.ScalarSelectCountField := by
  unfold Obligations.ScalarSelectCountField
  intro s c f h w x y sel nx ny holds writes writes32
  have form (k : Nat → Gang → Gang) := scalarForm_passes h k
  have hcmp : exec (.scmp f) s = writes32 (boolNat (cmpInt sel nx ny)) := form _
  have hholds : cmpInt sel nx ny = true ↔ holds := cmpInt_iff sel nx ny
  refine ⟨fun hh => ?_, fun hh => ?_, ?_, ?_, ?_, ⟨_, form _, fun j hj => ?_⟩, ⟨_, form _, fun j hj => testBit_bfi w x y _ hj⟩⟩
  · rw [hcmp, hholds.mpr hh]
    rfl
  · rw [hcmp, Bool.eq_false_iff.mpr (mt hholds.mp hh)]
    rfl
  · rw [show exec (.ssel f) s = writes (if c.gang.scalar32 s.now f.c ≠ 0 then x else y) from form _, ite_not]
    split <;> rfl
  · rw [← leadingZeros_eq]
    exact form _
  · rw [← popcount_eq_sum]
    exact form _
  · rw [testBit_bfe f.ty x _ hj, min_eq_ite_lt]
    rfl

/-! ## Mask words -/

/-- A mask word writes over the lanes of the group that do not skip it, and the group goes on (R111). -/
theorem maskForm_passes {s : State} {c : Ctx} (h : Issues s c false true) (f : Nat → Gang → Lanes → Gang) :
    .next (maskForm f s) = s.passes c (f s.now c.gang (c.lanes &&& ~~~ c.skip)) :=
  congrArg Host.Outcome.next (issueWord_ok h rfl)

/-- A count of a mask executes as a scalar word, over the same lanes (R112, R120). -/
theorem maskCount_passes {s : State} {c : Ctx} (h : Issues s c false false) (f : Nat → Gang → Lanes → Gang) :
    .next (maskCount f s) = s.passes c (f s.now c.gang (c.lanes &&& ~~~ c.skip)) := by
  unfold maskCount
  exact congrArg Host.Outcome.next (issueWord_ok h rfl)

theorem laneCount_and (a b : Lanes) :
    laneCount (a &&& b) = ((List.range 128).filter (fun k => a.getLsbD k && b.getLsbD k)).length := by
  simp only [laneCount, laneList, BitVec.getLsbD_and]

theorem laneList_zero : laneList 0 = [] := List.filter_eq_nil_iff.mpr (by simp)

theorem laneList_head? {l : Lanes} {k : Nat} (hk : k < 128) (hl : l.getLsbD k = true) (hlow : ∀ j, j < k → l.getLsbD j = false) :
    (laneList l).head? = some k := by
  rw [laneList, List.head?_filter, List.find?_range_eq_some]
  exact ⟨hl, List.mem_range.mpr hk, fun j hj => by rw [hlow j hj, Bool.not_false]⟩

/-- Settles O18: the forms as their bodies give them; the first lane is the head of the lanes in ascending order. -/
theorem maskForms : Obligations.MaskForms := by
  unfold Obligations.MaskForms
  intro s c f lanes a b writes
  refine ⟨fun h => ?_, fun h => ⟨?_, fun hz => ?_, fun k hk hset hlow => ?_⟩, fun h => ?_⟩
  · have form (k : Nat → Gang → Lanes → Gang) := maskForm_passes h k
    exact ⟨form _, form _, form _, form _, form _⟩
  · rw [← laneCount_and]
    exact maskCount_passes h _
  · refine (maskCount_passes h _).trans ?_
    rw [hz, laneList_zero, List.head?_nil]
  · refine (maskCount_passes h _).trans ?_
    rw [laneList_head? hk hset hlow]
  · exact congrArg Host.Outcome.next (issueWord_ok h rfl)

/-! ## Joins -/

theorem mem_sliceList (x : Slices) (k : Nat) : k ∈ sliceList x ↔ k < 16 ∧ x.getLsbD k = true := by
  simp [sliceList]

theorem stack_eq_cons_iff {g : Gang} {k : Nat} {e : StackEntry} {rest : List StackEntry} :
    g.stack k = e :: rest ↔ g.reconv[k]? = some (e :: rest) := by
  unfold Gang.stack
  cases g.reconv[k]? <;> simp

theorem setStack_reconv {g : Gang} {k : Nat} {st : List StackEntry} (h : g.reconv[k]? = some st) (st' : List StackEntry) :
    (g.setStack k st').reconv[k]? = some st' := by
  simp [Gang.setStack, h]

theorem sliceEm_em_and_lanesOfSlice (g : Gang) (k : Nat) (x : Lanes) :
    (g.sliceEm k x).em &&& lanesOfSlice k = x &&& lanesOfSlice k := by
  ext i hi
  simp only [Gang.sliceEm, BitVec.getElem_and, BitVec.getElem_or, BitVec.getElem_not]
  cases (lanesOfSlice k)[i] <;> simp

/-- Case 4 of R117, among the slices of a set. -/
theorem joinBad_iff (g : Gang) (label : W64) (x : Slices) : g.joinBad label x = true ↔ ∃ k, k < 16 ∧ x.getLsbD k = true ∧
    ∃ e rest, g.reconv[k]? = some (e :: rest) ∧ e.merge = true ∧ e.addr ≠ label := by
  simp only [Gang.joinBad, List.any_eq_true, mem_sliceList, ← stack_eq_cons_iff, and_assoc]
  refine exists_congr fun k => and_congr_right fun _ => and_congr_right fun _ => ?_
  cases g.stack k with
  | nil => simp
  | cons e rest => simp

/-- A join onto a MERGE entry pops it: its lanes come back to `em`, and the slice is held at the label (R117, case 2). -/
theorem joinSlice_merge {g : Gang} {k : Nat} {e : StackEntry} {rest : List StackEntry} (h : g.stack k = e :: rest)
    (he : e.merge = true) (label : W64) :
    g.joinSlice label k = ((g.setStack k rest).sliceEm k (g.em ||| e.lanes), ⟨k, label, true⟩) := by
  rw [Gang.joinSlice, h]
  exact if_pos he

/-- A join onto a PENDING entry leaves a MERGE entry of the lanes that have come, and the pending ones go on (R117, case 3). -/
theorem joinSlice_pending {g : Gang} {k : Nat} {e : StackEntry} {rest : List StackEntry} (h : g.stack k = e :: rest)
    (he : e.merge = false) (label : W64) :
    g.joinSlice label k = ((g.setStack k ({ merge := true, lanes := g.em &&& lanesOfSlice k, addr := label } :: rest)).sliceEm k e.lanes,
      ⟨k, e.addr, false⟩) := by
  rw [Gang.joinSlice, h]
  exact if_neg (by rw [he]; exact Bool.false_ne_true)

/-! ## Exits -/

/-- No error is raised at an exit where none is latched, or where the gang goes on (R209). -/
theorem exit_raises_none {c : Ctx} (h : c.gang.errs = [] ∨ c.lastExit = false) :
    (if c.lastExit then c.gang.latchedErr 0 none true else none) = none := by
  rcases h with h | h
  · simp [Gang.latchedErr, h]
  · simp [h]

/-- Settles O23, by the top entry of each slice's stack, and by the place of the gang that exits. -/
theorem joinAndExit : Obligations.JoinAndExit := by
  unfold Obligations.JoinAndExit
  intro s c h
  refine ⟨fun f => ⟨fun hbad => ?_, fun hgood => ?_⟩, fun f herr => ⟨fun hplace => ?_, fun core hplace => ?_, fun core hplace => ?_⟩,
    fun g label k e rest _ hst => ?_⟩
  · refine congrArg Host.Outcome.next (issueWord_trap h ?_)
    exact if_pos ((joinBad_iff _ _ _).mpr hbad)
  · refine congrArg Host.Outcome.next (issueWord_left h ?_)
    exact if_neg (mt (joinBad_iff _ _ _).mp hgood)
  · refine congrArg Host.Outcome.next (issueWord_left h ?_)
    rw [exit_raises_none herr]
    rcases hplace with ⟨core, part, hp⟩ | ⟨core, gslot, part, hp⟩ <;> rw [hp]
  · refine congrArg Host.Outcome.next (issueWord_left h ?_)
    rw [exit_raises_none herr, hplace]
  · refine congrArg Host.Outcome.next (issueWord_left h ?_)
    rw [exit_raises_none herr, hplace]
  · have hstack := stack_eq_cons_iff.mpr hst
    refine ⟨fun hm => ?_, fun hm => ?_⟩
    · rw [joinSlice_merge hstack hm]
      exact ⟨rfl, setStack_reconv hst _, sliceEm_em_and_lanesOfSlice _ _ _⟩
    · rw [joinSlice_pending hstack hm]
      exact ⟨rfl, sliceEm_em_and_lanesOfSlice _ _ _, setStack_reconv hst _⟩

end Sys2Proof.ScalarControl
end

section
/-!
PROOFS. The vector words: integer arithmetic and moves (R133, R135), packed elements (R136 to R138), conversions from slot to slot
(R142 to R144), and the cross-lane forms, read at issue and landing later (R145 to R151).
-/
namespace Sys2Proof.PressVector
open Sys2Proof.Machine Sys2Proof.PressEncoding Sys2Proof.FormatsNumbers Sys2Proof.ScalarControl

/-! ## Integer arithmetic -/

/-- A number below the range of a type clamps to the least, and SAT is set (R97). -/
theorem outW_of_lt_minOf {sg : Bool} {w : Nat} {v : Int} (h : v < minOf sg w) : outW true sg w v = (wrapI w (minOf sg w), flagSAT) := by
  have hne : minOf sg w ≠ v := Int.ne_of_gt h
  simp only [outW, clampTo_eq, if_pos h, if_neg hne, if_true]

/-- A number above the range of a type clamps to the greatest, and SAT is set (R97). -/
theorem outW_of_maxOf_lt {sg : Bool} {w : Nat} {v : Int} (h : maxOf sg w < v) : outW true sg w v = (wrapI w (maxOf sg w), flagSAT) := by
  have hmin : ¬ v < minOf sg w := Int.not_lt.mpr (Int.le_of_lt (Int.lt_of_le_of_lt (minOf_le_maxOf sg w) h))
  have hne : maxOf sg w ≠ v := Int.ne_of_lt h
  simp only [outW, clampTo_eq, if_neg hmin, if_pos h, if_neg hne, if_true]

theorem neg_two_pow_lt_minOf (sg : Bool) {w : Nat} (hw : 0 < w) : -((2 ^ w : Nat) : Int) < minOf sg w := by
  have hhalf : 2 ^ (w - 1) < 2 ^ w := Nat.pow_lt_pow_right Nat.one_lt_two (Nat.sub_one_lt (Nat.ne_of_gt hw))
  have hfull := Nat.two_pow_pos w
  cases sg <;> simp only [minOf, if_true, Bool.false_eq_true, if_false] <;> omega

theorem maxOf_lt_two_pow (sg : Bool) (w : Nat) : maxOf sg w < ((2 ^ w : Nat) : Int) := by
  have hhalf : 2 ^ (w - 1) ≤ 2 ^ w := Nat.pow_le_pow_right Nat.two_pos (Nat.sub_le w 1)
  cases sg <;> simp only [maxOf, if_true, Bool.false_eq_true, if_false] <;> omega

/-- A nonzero number shifted left by the width or more clamps to the bound on the side of its sign, however far it is shifted. -/
theorem outW_mul_two_pow (sg : Bool) {w n : Nat} (hw : 0 < w) (hn : w ≤ n) (v : Int) :
    outW true sg w (v * (2 ^ n : Nat)) = if v = 0 then outW true sg w 0
      else (wrapI w (if v < 0 then minOf sg w else maxOf sg w), flagSAT) := by
  have hpow : ((2 ^ w : Nat) : Int) ≤ (2 ^ n : Nat) := Int.ofNat_le.mpr (Nat.pow_le_pow_right Nat.two_pos hn)
  rcases Int.lt_trichotomy v 0 with hv | rfl | hv
  · have hbelow : v * (2 ^ n : Nat) ≤ -1 * (2 ^ n : Nat) := Int.mul_le_mul_of_nonneg_right (by omega) (Int.natCast_nonneg _)
    have hmin := neg_two_pow_lt_minOf sg hw
    rw [if_neg (Int.ne_of_lt hv), if_pos hv, outW_of_lt_minOf (by omega)]
  · rw [Int.zero_mul, if_pos rfl]
  · have habove : 1 * ((2 ^ n : Nat) : Int) ≤ v * (2 ^ n : Nat) := Int.mul_le_mul_of_nonneg_right (by omega) (Int.natCast_nonneg _)
    have hmax := maxOf_lt_two_pow sg w
    rw [if_neg (Int.ne_of_gt hv), if_neg (Int.not_lt.mpr (Int.le_of_lt hv)), outW_of_maxOf_lt (by omega)]

/-- A left shift is the exact product, wrapped or clamped, with no bound on its count (R133). -/
theorem shlOut_eq (t : Ty) (sat : Bool) (x n : Nat) : shlOut t sat x n = outT t sat (numOf t x * (2 ^ n : Nat)) := by
  unfold shlOut outT
  split
  · rfl
  · next hn =>
    have hle := Nat.not_lt.mp hn
    cases sat
    · have hdvd : ((2 ^ t.width : Nat) : Int) ∣ numOf t x * (2 ^ n : Nat) :=
        Int.dvd_mul_of_dvd_right (Int.natCast_dvd_natCast.mpr (Nat.pow_dvd_pow 2 hle))
      rw [if_neg Bool.false_ne_true, outW, if_neg Bool.false_ne_true, wrapI, Int.emod_eq_zero_of_dvd hdvd]
      rfl
    · rw [if_pos rfl, outW_mul_two_pow _ (width_pos t) (Nat.le_refl _), outW_mul_two_pow _ (width_pos t) hle]

theorem natAbs_eq_ite (v : Int) : (v.natAbs : Int) = if v < 0 then -v else v := by
  split <;> omega

/-- A vector form answers with what its lanes compute (R128). -/
theorem vecForm_passes {mask : MaskSel} {gang : Bool} {s : State} {c : Ctx} (h : Issues s c gang false) (t : Ty) (dst : Opd)
    (f : Nat → LaneFn) : .next (vecForm mask gang t dst f s) =
      s.passes c (c.gang.eachLane (c.active s.now mask) (f s.now) (fun g k x => g.wrLane t dst k x)) :=
  congrArg Host.Outcome.next (vecForm_issues h t dst f)

theorem vecForm32_passes {mask : MaskSel} {gang : Bool} {s : State} {c : Ctx} (h : Issues s c gang false) (dst : Opd)
    (f : Nat → LaneFn) : .next (vecForm32 mask gang dst f s) =
      s.passes c (c.gang.eachLane (c.active s.now mask) (f s.now) (fun g k x => g.wrLane32 dst k x)) :=
  congrArg Host.Outcome.next (vecForm32_issues h f)

/-- Settles O24, by the number that each lane computes; a shift with no bound on its count. -/
theorem vectorInteger : Obligations.VectorInteger := by
  unfold Obligations.VectorInteger
  intro s c
  refine ⟨fun f h => ?_, fun f h => vecForm_passes h _ _ _⟩
  intro w num n lanes
  have hnum (o : Opd) (g : Gang) (k : Nat) : num o g k = numOf f.ty (g.laneVal s.now f.ty o k) := (numOf_eq f.ty _).symm
  have hpow (m : Nat) : (2 : Int) ^ m = ((2 ^ m : Nat) : Int) := (Int.natCast_pow 2 m).symm
  have computes (sat : Bool) (v : Nat → Gang → Nat → Int) :
      .next (vecForm f.mask f.gang f.ty f.dst (fun now g k => outT f.ty sat (v now g k)) s) = lanes sat (v s.now) :=
    vecForm_passes h _ _ _
  have shifts : .next (vecForm f.mask f.gang f.ty f.dst (fun now g k => outT f.ty f.sat
      (numOf f.ty (g.laneVal now f.ty f.a k) * (2 ^ g.lane32 now f.b k : Nat))) s) = exec (.vshl f) s := by
    simp only [← shlOut_eq]
    rfl
  clear_value num
  simp only [hnum, hpow, ← natAbs_eq_ite]
  exact ⟨computes _ _, computes _ _, computes _ _, computes false _, computes _ _, computes false _, computes false _,
    fun _ => shifts.symm.trans (computes _ _)⟩

/-! ## Bits and moves -/

/-- A form that moves bits takes an immediate sign-extended to the width, whatever TYPE is (R133). -/
theorem dataVal_imm (g : Gang) (now : Nat) (t : Ty) (i : BitVec 7) (k : Nat) :
    g.dataVal now t (.imm i) k = (immInt i % (2 : Int) ^ t.width).toNat := wrapI_eq_toNat_emod _ _

/-- A selection takes A in the lanes where the condition holds, B in the others (R133). -/
theorem ite_bne_zero {α : Type} (l : Lanes) (x y : α) : (if l != 0 then x else y) = if l = 0 then y else x := by
  by_cases hl : l = 0 <;> simp [hl]

/-- Settles O25: the forms as their bodies give them, a right shift with no bound on its count, a copied immediate by its bits. -/
theorem vectorBits : Obligations.VectorBits := by
  unfold Obligations.VectorBits
  intro s c copied
  have hcopied : copied = fun t o g k => g.dataVal s.now t o k := by
    funext t o g k
    cases o with
    | imm i => exact (dataVal_imm g s.now t i k).symm
    | _ => rfl
  clear_value copied
  subst hcopied
  refine ⟨fun f h => ?_, fun f h => ?_, fun f h => vecForm_passes h _ _ _⟩
  · intro w x y n sx lanes lanes32
    have hsx (g : Gang) (k : Nat) : sx g k = sintOf w (x g k) := (sintOf_of_pos (width_pos f.ty) _).symm
    clear_value sx
    simp only [hsx, ← shrBits_eq, ← sraBits_eq, ← leadingZeros_eq, ← popcount_eq_sum]
    have form (v : Nat → LaneFn) := vecForm_passes (mask := f.mask) h f.ty f.dst v
    have count (v : Nat → LaneFn) := vecForm32_passes (mask := f.mask) h f.dst v
    exact ⟨form _, form _, form _, form _, form _, form _, form _, count _, count _⟩
  · intro lanes
    have form (v : Nat → LaneFn) := vecForm_passes (mask := f.mask) h f.ty f.dst v
    refine ⟨form _, form _, ?_⟩
    simp only [← ite_bne_zero]
    exact form _

/-! ## Packed elements -/

theorem packElems_pair (w : Nat) (lo hi : Nat × W32) :
    packElems w [lo, hi] = (lo.1 % 2 ^ w + hi.1 % 2 ^ w * 2 ^ w, lo.2 ||| hi.2) := by
  simp [packElems]

/-- Two 16-bit elements, each by itself (R136). -/
theorem packedBin_two (f : Int → Int → Nat × W32) (sg : Bool) (x y : Nat) : packedBin 16 f sg x y =
    let lo := f (elem sg 16 x 0) (elem sg 16 y 0)
    let hi := f (elem sg 16 x 1) (elem sg 16 y 1)
    (lo.1 % 2 ^ 16 + hi.1 % 2 ^ 16 * 2 ^ 16, lo.2 ||| hi.2) := packElems_pair 16 _ _

theorem wrapI_mod (w : Nat) (v : Int) : wrapI w v % 2 ^ w = wrapI w v := by
  refine Nat.mod_eq_of_lt ?_
  have hpos : (0 : Int) < ((2 ^ w : Nat) : Int) := Int.natCast_pos.mpr (Nat.two_pow_pos w)
  have hlt := Int.emod_lt_of_pos v hpos
  unfold wrapI
  omega

theorem packVal_of_16 {t : Ty} (h : t.width = 16) (sat : Bool) (x y : Nat) : packVal t sat x y =
    let lo := outW sat t.isI 16 (elem true 32 x 0)
    let hi := outW sat t.isI 16 (elem true 32 y 0)
    (lo.1 % 2 ^ 16 + hi.1 % 2 ^ 16 * 2 ^ 16, lo.2 ||| hi.2) := (if_pos h).trans (packElems_pair 16 _ _)

theorem packVal_of_8 {t : Ty} (h : t.width = 8) (sat : Bool) (x y : Nat) : packVal t sat x y =
    packElems 8 [outW sat t.isI 8 (elem true 16 x 0), outW sat t.isI 8 (elem true 16 x 1), outW sat t.isI 8 (elem true 16 y 0),
      outW sat t.isI 8 (elem true 16 y 1)] := if_neg (by omega)

theorem unpackVal_of_16 {t : Ty} (h : t.width = 16) (part x : Nat) :
    unpackVal t part x = (elem t.isI 16 x part % (2 : Int) ^ 32).toNat := by
  rw [unpackVal, if_pos h, wrapI_eq_toNat_emod]

theorem unpackVal_of_8 {t : Ty} (h : t.width = 8) (part x : Nat) : unpackVal t part x =
    (elem t.isI 8 x (2 * part) % (2 : Int) ^ 16).toNat + (elem t.isI 8 x (2 * part + 1) % (2 : Int) ^ 16).toNat * 2 ^ 16 := by
  have h16 : t.width ≠ 16 := by omega
  rw [unpackVal, if_neg h16, packElems_pair, wrapI_mod, wrapI_mod, wrapI_eq_toNat_emod, wrapI_eq_toNat_emod]

/-- Settles O27, element by element. -/
theorem packedForms : Obligations.PackedForms := by
  unfold Obligations.PackedForms
  intro s c
  refine ⟨fun f h => ?_, fun f h => ?_, fun f h => ?_⟩
  · intro sg w lanes two q
    have form (op : Nat → Nat → Nat × W32) : .next (packForm f op s) = lanes op := vecForm32_passes h _ _
    clear_value lanes
    have pair (v : Int → Int → Int) : two v = packedBin 16 (fun x y => outW f.sat sg 16 (v x y)) sg := by
      funext x y
      exact (packedBin_two (fun a b => outW f.sat sg 16 (v a b)) sg x y).symm
    rw [pair, pair]
    have packs : exec (.vpack f) s = lanes (packVal f.ty f.sat) := form _
    exact ⟨form _, form _, form _, form _, form _,
      fun hw => packs.trans (congrArg lanes (funext fun x => funext (packVal_of_16 hw f.sat x))),
      fun hw => packs.trans (congrArg lanes (funext fun x => funext (packVal_of_8 hw f.sat x)))⟩
  · intro sg lanes
    have form (op : Nat → Nat → Nat → Nat × W32) : .next (packForm3 f op s) = lanes op := vecForm32_passes h _ _
    exact ⟨form _, form _⟩
  · intro sg part lanes
    have form : exec (.vunpack f) s = lanes (unpackVal f.ty part) := vecForm32_passes h _ _
    clear_value lanes
    exact ⟨fun hw => form.trans (congrArg lanes (funext (unpackVal_of_16 hw part))),
      fun hw => form.trans (congrArg lanes (funext (unpackVal_of_8 hw part)))⟩

/-! ## Conversions -/

/-- A conversion takes each active lane's source slot into its destination slot (R143). -/
theorem convForm_passes {f : FmtCV} {s : State} {c : Ctx} (h : Issues s c f.gang false) (op : Bool → Nat → Nat × W32) :
    .next (convForm f op s) = s.passes c (c.gang.eachLane (c.active s.now f.mask) (fun g k => op g.ftz (g.slotVal s.now f k))
      (fun g k x => g.wrSlot f k x)) :=
  congrArg Host.Outcome.next (issueWord_ok h rfl)

/-- Settles O29: each conversion as its body gives it, from slot to slot. -/
theorem conversions : Obligations.Conversions := by
  unfold Obligations.Conversions
  intro s c f h lanes
  have converts (op : Bool → Nat → Nat × W32) := convForm_passes h op
  exact ⟨converts _, converts _, converts _, converts _⟩

/-! ## Cross-lane forms -/

/-- A word whose results and sticky bits are left to land, computed from its sources at issue (R130). -/
theorem result_lands {gang : Bool} {body : Ctx → State → Res} {s : State} {c : Ctx} (h : Issues s c gang false) {w : List RegWrite}
    {x : W32} (hb : body c s = .ok (s.addResult c w x)) : (.next (issueWord gang false body s) : Answer) =
      .next ((s.addResult c w x).advance c.uid c.slice) :=
  congrArg Host.Outcome.next (issueWord_ok h hb)

/-- A source lane is read where it is a present lane of the group; elsewhere the destination lane's fill is taken (R146). -/
theorem sourceOr_eq (c : Ctx) (now : Nat) (f : FmtA3S) (src : Int) (k : Nat) : c.sourceOr now f src k =
    if 0 ≤ src ∧ src < 128 ∧ c.lanes.getLsbD src.toNat = true then c.gang.laneVal now f.ty f.a src.toNat
    else c.gang.laneVal now f.ty f.c k := by
  simp only [Ctx.sourceOr, Ctx.readable, Bool.and_eq_true, decide_eq_true_eq, and_assoc]

/-- The source position by MODE[1:0]: IDX, then UP, DOWN and XOR (R147). -/
theorem shflPos_idx {mode : Nat} (h : mode % 4 = 0) (pos b : Nat) : shflPos mode pos b = b := by
  simp only [shflPos, h]

theorem shflPos_up {mode : Nat} (h : mode % 4 = 1) (pos b : Nat) : shflPos mode pos b = (pos : Int) - b := by
  simp only [shflPos, h]

theorem shflPos_down {mode : Nat} (h : mode % 4 = 2) (pos b : Nat) : shflPos mode pos b = (pos : Int) + b := by
  simp only [shflPos, h]

theorem shflPos_xor {mode : Nat} (h : mode % 4 = 3) (pos b : Nat) : shflPos mode pos b = ((pos ^^^ b : Nat) : Int) := by
  simp only [shflPos, h]

theorem sub_mod_eq_mul_div (k n : Nat) : k - k % n = n * (k / n) :=
  Nat.sub_eq_of_eq_add (Nat.div_add_mod k n).symm

theorem ofNat_boolNat (b : Bool) : BitVec.ofNat 32 (boolNat b) = if b then 1 else 0 := by cases b <;> rfl

/-- Settles O30: each form's sources as its mode gives them, and where its results are left to land. -/
theorem crossLaneForms : Obligations.CrossLaneForms := by
  unfold Obligations.CrossLaneForms
  intro s c
  refine ⟨fun f h => ?_, fun f h => ?_⟩
  · intro act b fill source lands
    have form (t : Ty) (v : Ctx → Nat → Nat → Nat) : .next (crossForm f.mask f.gang t f.dst v s) = lands t (v c s.now) :=
      result_lands h rfl
    have hsource : source = c.sourceOr s.now f := funext fun src => funext fun k => (sourceOr_eq c s.now f src k).symm
    clear_value lands source
    subst hsource
    have shuffles : exec (.vshfl f) s = lands f.ty (fun k => c.sourceOr s.now f (shflPos f.sel.toNat k (b k)) k) := form _ _
    have broadcasts : exec (.vbcast f) s = lands f.ty (fun k => if f.sel == 0 then c.sourceOr s.now f (c.gang.scalar32 s.now f.b) k
        else if c.gang.scalar32 s.now f.b < 8 then c.sourceOr s.now f ((8 * (k / 8) + c.gang.scalar32 s.now f.b : Nat) : Int) k
        else fill k) := form _ _
    have slides : exec (.vslide f) s = lands (if f.ty.is64 then .b64 else .b32) _ := form _ _
    refine ⟨fun hm => ?_, fun hm => ?_, fun hm => ?_, fun hm => ?_, ?_, fun hm => ?_, fun hm => ?_, fun ht => ?_, fun ht => ?_⟩
    · simp only [shuffles, shflPos_idx hm]
    · simp only [shuffles, shflPos_up hm]
    · simp only [shuffles, shflPos_down hm]
    · simp only [shuffles, shflPos_xor hm]
    · simp only [← sub_mod_eq_mul_div]
      exact form _ _
    · rw [broadcasts]
      simp only [hm, BEq.rfl, if_true]
    · rw [broadcasts]
      simp only [beq_iff_eq, hm, if_false]
    · rw [slides]
      simp only [ht, if_true]
    · rw [slides]
      simp only [ht, Bool.false_eq_true, if_false]
  · intro act hold vals op red lands bool
    refine ⟨fun n hd => ?_, fun n hd => ?_, fun n hd => ⟨?_, result_lands h rfl⟩⟩
    · exact result_lands h (by rw [hd])
    · have votes : exec (.vvote f) s = lands [.s n.toNat (BitVec.ofNat 32 (if op = 1 then boolNat (hold != 0)
          else if op = 2 then boolNat (hold == c.active s.now f.mask) else if op = 3 then boolNat (vals.all (fun v => v == vals.headD 0))
          else laneCount hold))] 0 := result_lands h (by rw [hd])
      refine ⟨fun ho => ?_, fun ho => ?_, fun ho => ?_, fun h1 h2 h3 => ?_, result_lands h (by rw [hd])⟩
      · simp [votes, ho, ofNat_boolNat, bool]
      · simp [votes, ho, ofNat_boolNat, bool]
      · simp [votes, ho, ofNat_boolNat, bool]
      · simp only [votes, h1, h2, h3, if_false]
    · exact result_lands h (by rw [hd])

end Sys2Proof.PressVector
end

section
/-!
PROOFS. The memory words of a press core: the effective address (R152), stores and atomics from their checks to the operation they
leave (R155 to R165, R174 to R178, R206), the detach of a commit (R168), and the barriers (R181 to R185).
-/
namespace Sys2Proof.PressMemory
open Sys2Proof.Machine

/-! ## The gang of the issuing word -/

/-- The context of the current word holds its gang as the machine has it. -/
theorem gang?_of_ctx? {s : State} {c : Ctx} (h : s.ctx? = some c) : s.gang? c.uid = some c.gang := by
  unfold State.ctx? at h
  repeat' split at h
  all_goals cases h
  assumption

theorem updGang_eq_setGang {s : State} {uid : Nat} {g : Gang} (h : s.gang? uid = some g) (f : Gang → Gang) :
    s.updGang uid f = s.setGang (f g) := by
  unfold State.updGang
  rw [h]

theorem gang?_updGang_self {s : State} {uid : Nat} {g : Gang} (h : s.gang? uid = some g) {f : Gang → Gang} (hf : (f g).uid = g.uid) :
    (s.updGang uid f).gang? uid = some (f g) := by
  have huid := s.gang?_uid uid g h
  subst huid
  rw [updGang_eq_setGang h, ← hf]
  exact s.gang?_setGang_self (f g) g (hf ▸ h)

/-! ## The effective address -/

/-- Settles O13: the sum of base and offset, reduced to a word. -/
theorem effectiveAddress : Obligations.EffectiveAddress := by
  unfold Obligations.EffectiveAddress
  intro g now lane base v imm
  have sum (x : W64) (off : Int) : ((x + BitVec.ofInt 64 off).toNat : Int) = ((x.toNat : Int) + off) % 2 ^ 64 := by
    rw [BitVec.toNat_add, BitVec.toNat_ofInt]
    omega
  refine ⟨?_, ?_, fun ea => ?_⟩
  · rw [Gang.effAddr, sum, Int.add_assoc]
  · rw [Gang.effAddr, sum, Int.zero_add]
  · have hlt := ea.isLt
    rw [spaceOf, BitVec.extractLsb'_toNat, Nat.shiftRight_eq_div_pow]
    omega

/-! ## The operation of a memory word -/

theorem laterDue_self (d : Option Nat) : laterDue d d = d := by
  cases d <;> simp [laterDue]

/-- A word that is no replay leaves a new operation. -/
theorem joinOp_new {s : State} {c : Ctx} (h : c.run.replay = none) (new : Nat → Op) (f : Op → Op) :
    s.joinOp c new f = (s.addOp c.uid (fun id => f (new id)), s.nextOp) := by
  unfold State.joinOp
  rw [h]

/-- Replayed lanes join the operation of their word (R206). -/
theorem joinOp_replay {s : State} {c : Ctx} {id : Nat} {g : Gang} {o : Op} (h : c.run.replay = some id) (hg : s.gang? c.uid = some g)
    (ho : g.op? id = some o) (new : Nat → Op) (f : Op → Op) :
    s.joinOp c new f = (State.updGang { s with nextOp := s.nextOp + 1 } c.uid (fun g => g.setOp (f o)), id) := by
  have hg' : State.gang? { s with nextOp := s.nextOp + 1 } c.uid = some g := hg
  unfold State.joinOp
  rw [h]
  dsimp only
  rw [updGang_eq_setGang hg', updGang_eq_setGang hg', ho]

/-- The end of a memory word: the group goes on where no lane missed, else the lanes that missed wait (R205, R206). -/
theorem issueWord_memEnd {coll : Bool} {body : Ctx → State → Res} {s t : State} {c : Ctx} {pasid : Nat} {wr : Bool}
    {miss : List Miss} {pend : Lanes} {op : Option Nat} (h : Issues s c coll false)
    (hb : body c s = c.memEnd t pasid wr miss pend op) :
    (miss = [] → issueWord coll false body s = t.advance c.uid c.slice) ∧
    (miss ≠ [] → issueWord coll false body s = t.waitFor c pasid wr miss pend op) := by
  refine ⟨fun hm => issueWord_ok h ?_, fun hm => issueWord_left h ?_⟩
  · rw [hb, hm]
    rfl
  · rw [hb, Ctx.memEnd, if_neg (by simpa using hm)]

/-! ## Stores -/

@[simp] theorem writeByte_gangs (s : State) (a : Nat) (b : Byte) : (s.writeByte a b).gangs = s.gangs := by
  unfold State.writeByte
  dsimp only
  split <;> rfl

@[simp] theorem writeBytes_gangs (s : State) (l : List (Nat × Byte)) : (s.writeBytes l).gangs = s.gangs :=
  foldl_field State.gangs _ (fun _ _ => writeByte_gangs _ _ _) l s

/-- The entry of a lane's bytes changes nothing of the gang but its galley (R157, R160). -/
theorem enterStore_gang? {s : State} {uid : Nat} {g : Gang} (hg : s.gang? uid = some g) (h : Hit) (n x : Nat) :
    ∃ y, (s.enterStore uid h n x).gang? uid = some { g with galley := y } := by
  unfold State.enterStore
  dsimp only
  split
  · exact ⟨_, gang?_updGang_self hg rfl⟩
  · refine ⟨g.galley, ?_⟩
    rw [State.gang?, writeBytes_gangs]
    exact hg

/-- Nor does the entry of one lane after another, whatever the watchpoints have seen before. -/
theorem storeLanes_gang? {uid n : Nat} (l : List (Hit × Nat)) {s : State} {g : Gang} (hg : s.gang? uid = some g) :
    ∃ y, (s.storeLanes uid n l).1.gang? uid = some { g with galley := y } := by
  unfold State.storeLanes
  generalize ([] : List Seen) = seen
  induction l generalizing s g seen with
  | nil => exact ⟨g.galley, hg⟩
  | cons e l ih =>
    obtain ⟨y, hy⟩ := enterStore_gang? hg e.1 n e.2
    exact ih hy _

/-- The operation of a store, once its bytes are entered: a new one, or the one that its replayed lanes join. -/
def storeJoin (c : Ctx) (s : State) (hits : List Hit) (entered : State) : State × Nat :=
  entered.joinOp c (fun id => { Op.make id .store (some .st) c.run.header.fa c.pc with done := true, due := s.memDue c.gang hits })
    (fun o => { o with due := laterDue o.due (s.memDue c.gang hits) })

theorem storeJoin_new {c : Ctx} (h : c.run.replay = none) (s : State) (hits : List Hit) (entered : State) :
    storeJoin c s hits entered = (entered.addOp c.uid (fun id => { Op.make id .store (some .st) c.run.header.fa c.pc with
      done := true, due := s.memDue c.gang hits }), entered.nextOp) := by
  rw [storeJoin, joinOp_new h]
  simp only [laterDue_self]

section
variable {c : Ctx} {s : State} {ty : Ty} {data : Nat → Nat} {l : List (Nat × W64)} {pend : List Miss → Lanes}
  (hheld : s.heldRemote (l.map (·.2)) = false)
include hheld

theorem store_bad {tval : W64} {code : Code}
    (h : s.checkAll (c.gang.party s) c.grp .plain false true ty.bytes ty.bytes l = .bad tval code) :
    c.store s ty data l pend = .trap s code tval := by
  rw [Ctx.store, hheld, h]
  rfl

theorem store_wait {miss : List Miss}
    (h : s.checkAll (c.gang.party s) c.grp .plain false true ty.bytes ty.bytes l = .wait miss) :
    c.store s ty data l pend = .left (s.awaitPages c (c.gang.party s).pasid true miss (pend miss)) := by
  rw [Ctx.store, hheld, h]
  rfl

theorem store_overflow {hits : List Hit} {miss : List Miss} {ea : W64}
    (h : s.checkAll (c.gang.party s) c.grp .plain false true ty.bytes ty.bytes l = .go hits miss)
    (ho : c.gang.storeOverflow hits = some ea) : c.store s ty data l pend = .trap s .accessDenied ea := by
  rw [Ctx.store, hheld, h]
  dsimp only
  rw [ho]
  rfl
/-- A store that passes its checks and fits the galley: the lanes' bytes entered, and the operation (R164). -/
theorem store_go {hits : List Hit} {miss : List Miss}
    (h : s.checkAll (c.gang.party s) c.grp .plain false true ty.bytes ty.bytes l = .go hits miss)
    (ho : c.gang.storeOverflow hits = none) :
    let r := s.storeLanes c.uid ty.bytes (hits.map (fun h => (h, data h.lane)))
    let js := storeJoin c s hits r.1
    c.store s ty data l pend = c.memEnd ((js.1.watchSees c.uid (some c.slice) c.pc ((js.1.gang? c.uid).bind (fun g => g.op? js.2))
      r.2).fireTriggers c.uid 1 (fun g => (hits.flatMap (fun h => wholeWords h.ea ty.bytes (data h.lane))).any
        (fun e => g.dataMatch e.1 e.2))) (c.gang.party s).pasid true miss (pend miss) (some js.2) := by
  rw [Ctx.store, hheld, h]
  dsimp only
  rw [ho]
  rfl
end

/-- Settles O32, by what the checks, the galley and the missed pages come to, for the lanes of `st` and the one of `sts`. -/
theorem stores : Obligations.Stores := by
  unfold Obligations.Stores
  intro s c f w data form
  have stores {coll : Bool} {body : Ctx → State → Res} {l : List (Nat × W64)} {pend : List Miss → Lanes} (h : Issues s c coll false)
      (hb : body c s = c.store s f.ty data l pend) : form l pend (.next (issueWord coll false body s)) := by
    intro hheld checked
    refine ⟨fun tval code hc => ?_, fun miss hc => ?_, fun hits miss hc => ⟨fun ea ho => ?_, fun ho => ?_⟩⟩
    · exact congrArg Host.Outcome.next (issueWord_trap h (hb.trans (store_bad hheld hc)))
    · exact congrArg Host.Outcome.next (issueWord_left h (hb.trans (store_wait hheld hc)))
    · exact congrArg Host.Outcome.next (issueWord_trap h (hb.trans (store_overflow hheld hc ho)))
    · intro r ends
      have ends_of {u : State} {id : Nat} (hj : storeJoin c s hits r.1 = (u, id)) : ends u id := by
        have hend := issueWord_memEnd h (hb.trans (store_go hheld hc ho))
        rw [hj] at hend
        exact ⟨fun hm => congrArg Host.Outcome.next (hend.1 hm), fun hm => congrArg Host.Outcome.next (hend.2 hm)⟩
      refine ⟨fun hreplay => ends_of (storeJoin_new hreplay s hits r.1), fun id o hreplay hop => ends_of ?_⟩
      obtain ⟨y, hy⟩ := storeLanes_gang? (n := w) (hits.map (fun h => (h, data h.lane))) (gang?_of_ctx? h.ctx)
      exact joinOp_replay hreplay hy hop _ _
  exact ⟨fun h => stores h rfl, fun h => stores h rfl⟩

/-! ## Atomics -/

/-- The requests of an atomic's lanes: each value and, for `atomcas`, the compared one (R176, R178). -/
def atomicReqs (c : Ctx) (s : State) (kind : Nat) (f : FmtMA) (hits : List Hit) : List AReq :=
  atomReqs s.nextOp hits (fun k => BitVec.ofNat 64 (c.gang.laneVal s.now f.ty f.b k))
    (if kind = 2 then fun k => BitVec.ofNat 64 (c.gang.laneVal s.now f.ty f.dst k) else fun _ => 0)

/-- A new operation of an atomic with some requests. -/
def atomicOp (c : Ctx) (kind : Nat) (f : FmtMA) (reqs : List AReq) (due : Option Nat) (id : Nat) : Op :=
  { Op.make id (.atom { kind := kind, op := f.sel.toNat, ty := f.ty, scope := f.scope
                        dst := (match f.dst with | .v n => some n.toNat | _ => none), reqs := reqs })
      (some .ld) c.run.header.fa c.pc with done := reqs.isEmpty, due := due }

/-- Requests join the operation of an atomic. -/
def joinReqs (reqs : List AReq) (due : Option Nat) (o : Op) : Op :=
  match o.kind with
  | .atom a => { o with kind := .atom { a with reqs := a.reqs ++ reqs }, done := o.done && reqs.isEmpty, due := laterDue o.due due }
  | _ => o

theorem joinReqs_atom {o : Op} {a : AtomOp} (h : o.kind = .atom a) (reqs : List AReq) (due : Option Nat) :
    joinReqs reqs due o =
      { o with kind := .atom { a with reqs := a.reqs ++ reqs }, done := o.done && reqs.isEmpty, due := laterDue o.due due } := by
  rw [joinReqs, h]

theorem joinReqs_atomicOp (c : Ctx) (kind : Nat) (f : FmtMA) (reqs : List AReq) (due : Option Nat) (id : Nat) :
    joinReqs reqs due (atomicOp c kind f [] due id) = atomicOp c kind f reqs due id := by
  rw [joinReqs_atom rfl, show (atomicOp c kind f [] due id).due = due from rfl, laterDue_self]
  rfl

section
variable {c : Ctx} {s : State} {kind : Nat} {f : FmtMA} {l : List (Nat × W64)}
  (hl : (laneList (c.active s.now f.mask)).map (fun k => (k, c.gang.effAddr s.now f.base f.voff 0 k)) = l)
  (hheld : s.heldRemote (l.map (·.2)) = false)
include hl hheld

theorem atomic_bad {tval : W64} {code : Code}
    (h : s.checkAll (c.gang.party s) c.grp (.atomic (f.scope == .domain)) true true f.ty.bytes f.ty.bytes l = .bad tval code) :
    c.atomic s kind f = .trap s code tval := by
  rw [Ctx.atomic, hl, hheld, h]
  rfl

theorem atomic_wait {miss : List Miss}
    (h : s.checkAll (c.gang.party s) c.grp (.atomic (f.scope == .domain)) true true f.ty.bytes f.ty.bytes l = .wait miss) :
    c.atomic s kind f = .left (s.awaitPages c (c.gang.party s).pasid true miss (missLanes miss)) := by
  rw [Ctx.atomic, hl, hheld, h]
  rfl

/-- An atomic that passes its checks: its requests in a new operation, or in the one that its replayed lanes join (R176, R206). -/
theorem atomic_go {hits : List Hit} {miss : List Miss}
    (h : s.checkAll (c.gang.party s) c.grp (.atomic (f.scope == .domain)) true true f.ty.bytes f.ty.bytes l = .go hits miss) :
    let due := s.atomDue c.gang f.scope hits
    let js := s.joinOp c (atomicOp c kind f [] due) (joinReqs (atomicReqs c s kind f hits) due)
    c.atomic s kind f = c.memEnd js.1 (c.gang.party s).pasid true miss (missLanes miss) (some js.2) := by
  rw [Ctx.atomic, hl, hheld, h]
  rfl
end

/-- Settles O34, by what the checks and the missed pages come to, for the three words that issue as one. -/
theorem atomics : Obligations.Atomics := by
  unfold Obligations.Atomics
  intro s c f h l checked val form
  have atomics {kind : Nat} {cmp : Nat → W64} (hcmp : (if kind = 2 then val f.dst else fun _ => 0) = cmp) :
      form kind cmp (.next (issue (fun c s => c.atomic s kind f) s)) := by
    subst hcmp
    intro hheld
    refine ⟨fun tval code hc => ?_, fun miss hc => ?_, fun hits miss hc => ?_⟩
    · exact congrArg Host.Outcome.next (issueWord_trap h (atomic_bad rfl hheld hc))
    · exact congrArg Host.Outcome.next (issueWord_left h (atomic_wait rfl hheld hc))
    · intro reqs ends
      have ends_of {t : State} {id : Nat} (hj : s.joinOp c (atomicOp c kind f [] (s.atomDue c.gang f.scope hits))
          (joinReqs reqs (s.atomDue c.gang f.scope hits)) = (t, id)) : ends t id := by
        have hend := issueWord_memEnd (body := fun c s => c.atomic s kind f) h (atomic_go rfl hheld hc)
        rw [show atomicReqs c s kind f hits = reqs from rfl, hj] at hend
        exact ⟨fun hm => congrArg Host.Outcome.next (hend.1 hm), fun hm => congrArg Host.Outcome.next (hend.2 hm)⟩
      refine ⟨fun hreplay => ends_of ?_, fun id o a hreplay hop hkind => ends_of ?_⟩
      · rw [joinOp_new hreplay]
        simp only [joinReqs_atomicOp]
        rfl
      · rw [joinOp_replay hreplay (gang?_of_ctx? h.ctx) hop, joinReqs_atom hkind]
  exact ⟨atomics rfl, atomics rfl, atomics rfl⟩

/-! ## Commits -/

/-- Settles O37: the operation joins the gang, then its galley is detached. -/
theorem commitDetaches : Obligations.CommitDetaches := by
  unfold Obligations.CommitDetaches
  intro s c lvl cond hctx
  refine ⟨sameBytes_of _ _ (State.issueCommit_mem ..) (State.issueCommit_hostCopy ..), ?_⟩
  have hadd (f : Nat → Op) : (s.addOp c.uid f).gang? c.uid = some (c.gang.addOp (f s.nextOp)) :=
    gang?_updGang_self (s := { s with nextOp := s.nextOp + 1 }) (gang?_of_ctx? hctx) rfl
  exact ⟨_, _, gang?_updGang_self (hadd _) rfl, rfl, rfl, rfl, rfl, rfl, rfl, rfl, rfl, rfl⟩

/-! ## Barriers -/

theorem bar_gang_gang (b : Bar) (uid : Nat) : (b.gang uid).gang = uid := by
  unfold Bar.gang
  cases h : b.gangs.find? (fun x => x.gang == uid) with
  | none => rfl
  | some x => simpa using List.find?_some h

/-- A gang's part of a barrier is what it was set to, whether or not the barrier held one before. -/
theorem gang_setGang (b : Bar) (x : BarGang) {uid : Nat} (hx : x.gang = uid) : (b.setGang x).gang uid = x := by
  subst hx
  unfold Bar.gang Bar.setGang
  dsimp only
  split
  · next hany =>
    obtain ⟨y, hy⟩ := Option.isSome_iff_exists.mp (List.find?_isSome.trans List.any_eq_true.symm |>.mpr hany)
    have hkey := List.find?_some hy
    rw [find?_replace BarGang.gang, hy]
    simp [beq_iff_eq.mp hkey]
  · next hany =>
    have hnone : b.gangs.find? (fun y => y.gang == x.gang) = none := by simpa using hany
    simp [List.find?_append, hnone]

/-- Do some more slices make a gang's arrival count: not counted yet in this phase, and all its live slices arrived (R183)? -/
abbrev Counts (b : Bar) (uid : Nat) (slices live : Slices) : Prop :=
  (b.gang uid).counted = false ∧ (b.gang uid).arrived ||| slices ≠ 0 ∧ live ≠ 0 ∧
    live &&& ~~~ ((b.gang uid).arrived ||| slices) = 0

/-- An arrival that counts. -/
theorem arrive_of_counts {b : Bar} {uid : Nat} {slices live : Slices} (h : Counts b uid slices live) :
    b.arrive uid slices live = { b with arrivals := b.arrivals + 1 }.setGang { b.gang uid with
      arrived := (b.gang uid).arrived ||| slices, counted := true, ever := true, last := some (b.phase + 1) } := by
  obtain ⟨hcounted, harrived, hlive, hall⟩ := h
  refine if_pos ?_
  simp only [hcounted, hall, bne_iff_ne.mpr harrived, bne_iff_ne.mpr hlive]
  rfl

/-- One that does not: the slices are marked, if there are any. -/
theorem arrive_of_not_counts {b : Bar} {uid : Nat} {slices live : Slices} (h : ¬ Counts b uid slices live) :
    b.arrive uid slices live = if (b.gang uid).arrived ||| slices = 0 then b
      else b.setGang { b.gang uid with arrived := (b.gang uid).arrived ||| slices } := by
  refine (if_neg (fun hb => h ?_)).trans (ite_congr (propext beq_iff_eq) (fun _ => rfl) (fun _ => rfl))
  simpa only [Counts, Bool.and_eq_true, Bool.not_eq_true', bne_iff_ne, beq_iff_eq, and_assoc] using hb

theorem arrive_gang_arrived (b : Bar) (uid : Nat) (slices live : Slices) :
    ((b.arrive uid slices live).gang uid).arrived = (b.gang uid).arrived ||| slices := by
  by_cases h : Counts b uid slices live
  · rw [arrive_of_counts h, gang_setGang]
    exact bar_gang_gang b uid
  · rw [arrive_of_not_counts h]
    split
    · next hz =>
      rw [hz]
      exact (BitVec.or_eq_zero_iff.mp hz).1
    · rw [gang_setGang]
      exact bar_gang_gang b uid

/-- An arrival changes the count of arrivals and the gang's part alone. -/
theorem arrive_frame (b : Bar) (uid : Nat) (slices live : Slices) :
    (b.arrive uid slices live).members = b.members ∧ (b.arrive uid slices live).phase = b.phase ∧
    (b.arrive uid slices live).bytes = b.bytes ∧
    (b.arrive uid slices live).arrivals = if Counts b uid slices live then b.arrivals + 1 else b.arrivals := by
  by_cases h : Counts b uid slices live
  · rw [arrive_of_counts h, if_pos h]
    exact ⟨rfl, rfl, rfl, rfl⟩
  · rw [arrive_of_not_counts h, if_neg h]
    split <;> exact ⟨rfl, rfl, rfl, rfl⟩

theorem complete_iff (b : Bar) : b.complete = true ↔ b.members ≠ 0 ∧ b.arrivals = b.members ∧ b.bytes = 0 := by
  simp only [Bar.complete, Bool.and_eq_true, bne_iff_ne, beq_iff_eq, and_assoc, ne_eq]

/-- A phase that completes clears what has arrived in it (R183). -/
theorem flip_gang (b : Bar) (uid : Nat) : b.flip.gang uid = { b.gang uid with arrived := 0, counted := false } := by
  simp only [Bar.flip, Bar.gang, List.find?_map, Function.comp_def]
  cases b.gangs.find? (fun x => x.gang == uid) <;> rfl

/-- A gang that withdraws leaves no part of its own (R185). -/
theorem withdraw_gang (b : Bar) (uid : Nat) :
    (b.withdraw uid).gang uid = { gang := uid, arrived := 0, counted := false, ever := false, last := none } := by
  have hgangs : (b.withdraw uid).gangs = b.gangs.filter (fun y => y.gang != uid) := by
    unfold Bar.withdraw
    dsimp only
    split <;> rfl
  have hnone : (b.withdraw uid).gangs.find? (fun y => y.gang == uid) = none := by simp [hgangs]
  rw [Bar.gang, hnone]
  rfl

theorem withdraw_counts (b : Bar) (uid : Nat) :
    (b.withdraw uid).members = (if (b.gang uid).ever then b.members - 1 else b.members) ∧
    (b.withdraw uid).arrivals = (if (b.gang uid).ever && (b.gang uid).counted then b.arrivals - 1 else b.arrivals) := by
  unfold Bar.withdraw
  dsimp only
  cases (b.gang uid).ever <;> simp

/-- Settles O39, operation by operation. -/
theorem barrierPhases : Obligations.BarrierPhases := by
  unfold Obligations.BarrierPhases
  intro b uid slices live b'
  obtain ⟨hmembers, hphase, hbytes, harrivals⟩ := arrive_frame b uid slices live
  obtain ⟨hleft, hgone⟩ := withdraw_counts b uid
  refine ⟨hmembers, hphase, hbytes, harrivals, arrive_gang_arrived b uid slices live, complete_iff b, rfl, rfl, ?_, ?_, hleft, hgone,
    withdraw_gang b uid⟩ <;> rw [flip_gang]

/-! ## Barrier words -/

section
variable {s : State} {c : Ctx} {n : Nat} {blk : Block} {b : Bar} (hbar : c.bar? s n = some (blk, b))
include hbar

/-- A second arrival of a slice in a phase is misuse, one still on its way counted (R183; log 54). -/
theorem arriveAt_again (h : ((b.gang c.uid).arrived ||| c.gang.arrivalPending n) &&& c.grp.slices ≠ 0) (commit sleep : Bool) (lvl : Nat) :
    c.arriveAt s n commit sleep lvl = .trap s .barrierMisuse c.pc := by
  rw [Ctx.arriveAt, hbar]
  exact if_pos (bne_iff_ne.mpr h)

variable (h : ((b.gang c.uid).arrived ||| c.gang.arrivalPending n) &&& c.grp.slices = 0)
include h

/-- An arrival without commit is taken at once. -/
theorem arriveAt_plain {commit : Bool} (hc : commit = false) (sleep : Bool) (lvl : Nat) :
    c.arriveAt s n commit sleep lvl = .ok (State.sendArrival
      (if sleep then s.setGang (c.gang.setGroup { c.grp with status := .sleepBar n none }) else s) c.uid n c.grp.slices c.pc) := by
  rw [hc, Ctx.arriveAt, hbar]
  exact if_neg (by rw [h]; decide)

/-- With commit, it follows the grant. -/
theorem arriveAt_commit {commit : Bool} (hc : commit = true) {lvl : Nat} (hfault : c.commitFaults s lvl = false)
    (hdomain : lvl = 3 → s.domainPending = none) (sleep : Bool) : c.arriveAt s n commit sleep lvl = .ok (State.issueCommit
      (if sleep then s.setGang (c.gang.setGroup { c.grp with status := .sleepBar n none }) else s) c lvl none
      (some (n, c.grp.slices, sleep))) := by
  have hfree : ¬ (lvl = 3 ∧ s.domainPending.isSome = true) := fun ⟨hl, hp⟩ => by simp [hdomain hl] at hp
  rw [hc, Ctx.arriveAt, hbar]
  dsimp only
  rw [if_neg (by rw [h]; decide), hfault]
  simp [hfree]
end

theorem arriveAt_disabled {s : State} {c : Ctx} {n : Nat} (h : c.bar? s n = none) (commit sleep : Bool) (lvl : Nat) :
    c.arriveAt s n commit sleep lvl = .trap s .barrierMisuse c.pc := by
  rw [Ctx.arriveAt, h]

section
variable {s : State} {c : Ctx} {f : FmtY} {blk : Block} {b : Bar} (h : Issues s c false false)
  (hbar : c.bar? s (FmtY.barNum f) = some (blk, b))
include h hbar

/-- A waiter sleeps for an arrival that is still on its way (log 54). -/
theorem barw_pending (hp : c.gang.arrivalPending (FmtY.barNum f) ≠ 0) :
    exec (.barw f) s = s.passes c (c.gang.setGroup { c.grp with status := .sleepBar (FmtY.barNum f) none }) := by
  refine congrArg Host.Outcome.next (issueWord_ok h ?_)
  rw [hbar]
  exact if_pos (bne_iff_ne.mpr hp)

/-- One whose gang has never arrived, or whose phase is complete, goes on. -/
theorem barw_goes_on (hp : c.gang.arrivalPending (FmtY.barNum f) = 0) (hlast : ∀ p, (b.gang c.uid).last = some p → p ≤ b.phase) :
    exec (.barw f) s = .next (s.advance c.uid c.slice) := by
  refine congrArg Host.Outcome.next (issueWord_ok h ?_)
  rw [hbar]
  refine (if_neg (by rw [hp]; decide)).trans ?_
  cases hl : (b.gang c.uid).last with
  | none => rfl
  | some p => exact if_neg (Nat.not_lt.mpr (hlast p hl))

/-- Else it sleeps until the phase of its last arrival is complete (R183). -/
theorem barw_awaits (hp : c.gang.arrivalPending (FmtY.barNum f) = 0) {p : Nat} (hlast : (b.gang c.uid).last = some p) (hlt : b.phase < p) :
    exec (.barw f) s = s.passes c (c.gang.setGroup { c.grp with status := .sleepBar (FmtY.barNum f) (some p) }) := by
  refine congrArg Host.Outcome.next (issueWord_ok h ?_)
  rw [hbar]
  refine (if_neg (by rw [hp]; decide)).trans ?_
  rw [hlast]
  exact if_pos hlt

/-- The expected bytes stay below 2^47 in magnitude, or the word is misuse (R184). -/
theorem barx_adds : exec (.barx f) s = .next (
    if -(2 : Int) ^ 47 < b.bytes + (c.gang.scalar32 s.now f.a : Int) ∧ b.bytes + (c.gang.scalar32 s.now f.a : Int) < (2 : Int) ^ 47
    then (s.setBar blk { b with bytes := b.bytes + (c.gang.scalar32 s.now f.a : Int) }).advance c.uid c.slice
    else s.faults c .barrierMisuse c.pc) := by
  have hpow : (2 : Int) ^ 47 = 140737488355328 := rfl
  have hlimit (x : Int) : (byteLimit < x || x < -byteLimit) = true ↔ ¬ (-(2 : Int) ^ 47 < x ∧ x < (2 : Int) ^ 47) := by
    rw [Bool.or_eq_true, decide_eq_true_eq, decide_eq_true_eq, byteLimit, hpow]
    omega
  split
  · next hin =>
    refine congrArg Host.Outcome.next (issueWord_ok h ?_)
    rw [hbar]
    exact if_neg (fun hout => (hlimit _).mp hout hin)
  · next hout =>
    refine congrArg Host.Outcome.next (issueWord_trap h ?_)
    rw [hbar]
    exact if_pos ((hlimit _).mpr hout)
end

section
variable {s : State} {c : Ctx} {f : FmtY} (h : Issues s c (FmtY.barCommit f) false)
include h

/-- `bara` and `bars` fault alike. -/
theorem arrival_faults {code : Code} {tval : W64}
    (ha : ∀ sleep, c.arriveAt s (FmtY.barNum f) (FmtY.barCommit f) sleep f.lvl.rank = .trap s code tval) :
    exec (.bara f) s = .next (s.faults c code tval) ∧ exec (.bars f) s = .next (s.faults c code tval) :=
  ⟨congrArg Host.Outcome.next (issueWord_trap h (ha false)), congrArg Host.Outcome.next (issueWord_trap h (ha true))⟩

/-- They pass alike, `bars` with its group asleep. -/
theorem arrival_passes {t : Bool → State}
    (ha : ∀ sleep, c.arriveAt s (FmtY.barNum f) (FmtY.barCommit f) sleep f.lvl.rank = .ok (t sleep)) :
    exec (.bara f) s = .next ((t false).advance c.uid c.slice) ∧ exec (.bars f) s = .next ((t true).advance c.uid c.slice) :=
  ⟨congrArg Host.Outcome.next (issueWord_ok h (ha false)), congrArg Host.Outcome.next (issueWord_ok h (ha true))⟩
end

/-- The waiter and the expected bytes have no barrier to look at where it is disabled (R185). -/
theorem disabled_faults {s : State} {c : Ctx} {f : FmtY} (h : Issues s c false false) (hnone : c.bar? s (FmtY.barNum f) = none) :
    exec (.barw f) s = .next (s.faults c .barrierMisuse c.pc) ∧ exec (.barx f) s = .next (s.faults c .barrierMisuse c.pc) := by
  refine ⟨congrArg Host.Outcome.next (issueWord_trap h ?_), congrArg Host.Outcome.next (issueWord_trap h ?_)⟩ <;> rw [hnone]

/-- Settles O38: the arrivals, the waiter and the expected bytes, each by what stands at the barrier. -/
theorem barrierWords : Obligations.BarrierWords := by
  unfold Obligations.BarrierWords
  intro s c f n commit lvl
  refine ⟨fun h hnone => arrival_faults h fun sleep => arriveAt_disabled hnone commit sleep lvl,
    fun h hnone => disabled_faults h hnone,
    fun blk b hbar => ⟨fun h => ⟨fun hagain => ?_, fun hfirst => ⟨fun hc => ?_, fun hc hf hd => ?_⟩⟩, fun h =>
      ⟨fun hp => barw_pending h hbar hp, fun hp hlast => ?_, fun p hp hlast => ⟨fun hle => ?_, fun hlt => ?_⟩⟩⟩,
    fun h blk b hbar => ⟨fun hin => ?_, fun hout => ?_⟩⟩
  · exact arrival_faults h fun sleep => arriveAt_again hbar hagain commit sleep lvl
  · exact arrival_passes h fun sleep => arriveAt_plain hbar hfirst hc sleep lvl
  · exact arrival_passes h fun sleep => arriveAt_commit hbar hfirst hc hf hd sleep
  · exact barw_goes_on h hbar hp fun p hsome => nomatch hlast.symm.trans hsome
  · exact barw_goes_on h hbar hp fun q hsome => Option.some.inj (hlast.symm.trans hsome) ▸ hle
  · exact barw_awaits h hbar hp hlast hlt
  · exact (barx_adds h hbar).trans (congrArg Host.Outcome.next (if_pos hin))
  · exact (barx_adds h hbar).trans (congrArg Host.Outcome.next (if_neg hout))

end Sys2Proof.PressMemory
end

section
/-!
PROOFS. The words that leave every byte of memory alone, form by form: stores wait in the galley, commits in D(g), engines in their
queues (R157, R168, R188, R255); and a load, at its issue and at its RESOLVE (R161).
-/
namespace Sys2Proof.MemoryFrame
open Sys2Proof.Machine

/-! ## The bytes of memory behind a word -/

/-- Memory and the copies of host memory are as they were. -/
abbrev SameStore (s t : State) : Prop := t.mem = s.mem ∧ t.hostCopy = s.hostCopy

theorem sameBytes_refl (s : State) : SameBytes s s := fun _ => rfl

theorem sameBytes_trans {s t u : State} (h : SameBytes s t) (h' : SameBytes t u) : SameBytes s u := fun a => (h' a).trans (h a)

/-- What a step answers is what its meaning leaves. -/
theorem sameBytes_of_next {s t u : State} (he : (Host.Outcome.next u : Answer) = .next t) (hu : SameBytes s u) : SameBytes s t := by
  cases he
  exact hu

/-- A word whose effect leaves memory and the copies leaves every byte. -/
theorem issueWord_sameBytes {coll mask : Bool} {body : Ctx → State → Res} {s : State}
    (hb : ∀ c, (body c s).All (SameStore s)) : SameBytes s (issueWord coll mask body s) := by
  obtain ⟨hmem, hcopy⟩ := issueWord_bytes coll mask body s (fun c _ => hb c)
  exact sameBytes_of _ _ hmem hcopy

/-- Issuing a word keeps what its effect keeps of the bytes of memory. -/
theorem issueWord_keeps_sameBytes {coll mask : Bool} {body : Ctx → State → Res} {s : State}
    (hb : ∀ c, (body c s).All (SameBytes s)) : SameBytes s (issueWord coll mask body s) := by
  have keep {t u : State} (h : SameBytes s t) (hm : u.mem = t.mem) (hc : u.hostCopy = t.hostCopy) : SameBytes s u :=
    sameBytes_trans h (sameBytes_of _ _ hm hc)
  exact issueWord_keeps (SameBytes s) (fun _ _ _ h => keep h (State.advance_mem ..) (State.advance_hostCopy ..))
    (fun _ _ _ h => keep h (State.holdAs_mem ..) (State.holdAs_hostCopy ..))
    (fun _ _ _ _ h => keep h (State.takeFault_mem ..) (State.takeFault_hostCopy ..))
    (fun _ _ _ h => keep h (State.raiseErr_mem ..) (State.raiseErr_hostCopy ..)) _ _ _ _ (sameBytes_refl s) (fun c _ => hb c)

theorem all_ite {P : State → Prop} {p : Prop} [Decidable p] {a b : Res} (ha : a.All P) (hb : b.All P) : (if p then a else b).All P := by
  split <;> assumption

/-! ## The forms of words -/

section
variable (s : State)

/-- A word whose effect is in its gang alone. -/
theorem gangWord_sameBytes {coll mask : Bool} (f : Ctx → State → Gang) :
    SameBytes s (issueWord coll mask (fun c s => .ok (s.setGang (f c s))) s) :=
  issueWord_sameBytes fun _ => ⟨rfl, rfl⟩

theorem scalarForm_sameBytes (f : Nat → Gang → Gang) : SameBytes s (scalarForm f s) := by
  unfold scalarForm
  exact gangWord_sameBytes s _

theorem maskCount_sameBytes (f : Nat → Gang → Lanes → Gang) : SameBytes s (maskCount f s) := by
  unfold maskCount
  exact gangWord_sameBytes s _

theorem vecForm_sameBytes (mask : MaskSel) (gang : Bool) (t : Ty) (dst : Opd) (f : Nat → LaneFn) :
    SameBytes s (vecForm mask gang t dst f s) := by
  unfold vecForm
  exact gangWord_sameBytes s _

theorem vecForm32_sameBytes (mask : MaskSel) (gang : Bool) (dst : Opd) (f : Nat → LaneFn) :
    SameBytes s (vecForm32 mask gang dst f s) := by
  unfold vecForm32
  exact gangWord_sameBytes s _

/-- A result that lands later is an operation for now (R130). -/
theorem addResult_sameStore (c : Ctx) (writes : List RegWrite) (sticky : W32) : SameStore s (s.addResult c writes sticky) :=
  ⟨State.addResult_mem .., State.addResult_hostCopy ..⟩

theorem longForm_sameBytes (op : FVal → FVal × W32) (f : FmtF2) : SameBytes s (longForm op f s) := by
  unfold longForm
  exact issueWord_sameBytes fun _ => addResult_sameStore s _ _ _

theorem crossForm_sameBytes (mask : MaskSel) (gang : Bool) (t : Ty) (dst : Opd) (f : Ctx → Nat → Nat → Nat) :
    SameBytes s (crossForm mask gang t dst f s) := by
  unfold crossForm
  exact issueWord_sameBytes fun _ => addResult_sameStore s _ _ _

/-- A word without an effect. -/
theorem emptyWord_sameBytes {coll mask : Bool} : SameBytes s (issueWord coll mask (fun _ s => .ok s) s) :=
  issueWord_sameBytes fun _ => ⟨rfl, rfl⟩

/-- A matrix instruction joins its unit's queue (R233). -/
theorem matIssue_sameBytes (prep : Ctx → State → Prep) : SameBytes s (matIssue prep s) := by
  unfold matIssue
  refine issueWord_sameBytes fun c => ?_
  split
  · exact ⟨rfl, rfl⟩
  · split
    · exact ⟨rfl, rfl⟩
    · exact ⟨by simp, by simp⟩

theorem releaseFor_sameStore {t : State} (h : SameStore s t) (rel : Bool) (c : Ctx) (op : Nat) :
    SameStore s (if rel then t.releaseFor c op else t) := by
  cases rel
  · exact h
  · exact ⟨by simp [h.1], by simp [h.2]⟩

/-- A request joins its engine's queue (R251, R255). -/
theorem reqIssue_sameBytes (rel : Bool) (mk : Ctx → State → ReqOp) : SameBytes s (reqIssue rel mk s) := by
  unfold reqIssue
  refine issueWord_sameBytes fun c => ?_
  dsimp only
  split
  · exact ⟨rfl, rfl⟩
  · exact all_ite ⟨rfl, rfl⟩ (all_ite trivial (releaseFor_sameStore s ⟨by simp, by simp⟩ rel c _))

/-- A debug word faults, or has an effect of its own (R305). -/
theorem debugForm_sameBytes {right : Option Nat} {body : Ctx → Nat → Proof → State → Res}
    (hb : ∀ c core p, (body c core p s).All (SameStore s)) : SameBytes s (debugForm right body s) := by
  unfold debugForm
  refine issueWord_sameBytes fun c => ?_
  split
  · split
    · trivial
    · exact all_ite (hb _ _ _) ⟨rfl, rfl⟩
  · exact ⟨rfl, rfl⟩

end

/-! ## Loads -/

/-- What a load leaves in the device cache reads as before (R341). -/
theorem touchHost_sameBytes (l : List (Nat × Nat)) (s : State) : SameBytes s (s.touchHost l) := by
  unfold State.touchHost
  induction l generalizing s with
  | nil => exact sameBytes_refl s
  | cons e l ih =>
    refine sameBytes_trans ?_ (ih _)
    dsimp only
    split
    · exact State.readByte_touchLine s _
    · exact sameBytes_refl s

/-- A load that resolves puts its values into its operation; no byte of memory changes (R161). -/
theorem resolveOp_sameBytes (s : State) (uid : Nat) (issuing : Option Nat) (o : Op) : SameBytes s (s.resolveOp uid issuing o) := by
  unfold State.resolveOp
  split
  · next accs _ _ =>
    refine sameBytes_trans (touchHost_sameBytes (accs.map (fun a => (a.addr, a.lane))) s) (sameBytes_of _ _ ?_ ?_) <;>
      dsimp only <;> split <;> simp
  · exact sameBytes_refl s

theorem updOp_sameBytes (s : State) (uid id : Nat) (f : Op → Op) : SameBytes s (s.updOp uid id f) :=
  sameBytes_of _ _ (State.updGang_mem ..) (State.updGang_hostCopy ..)

theorem resolveNow_sameBytes (s : State) (uid id : Nat) : SameBytes s (s.resolveNow uid id) := by
  unfold State.resolveNow
  split
  · exact sameBytes_refl s
  · split
    · exact sameBytes_refl s
    · split
      · split
        · exact sameBytes_refl s
        · dsimp only
          split
          · exact sameBytes_trans (resolveOp_sameBytes _ _ _ _) (updOp_sameBytes _ _ _ _)
          · exact resolveOp_sameBytes _ _ _ _
      · exact sameBytes_refl s

theorem joinOp_sameStore (s : State) (c : Ctx) (new : Nat → Op) (f : Op → Op) : SameStore s (s.joinOp c new f).1 := by
  unfold State.joinOp
  split <;> exact ⟨by simp, by simp⟩

/-- The end of a memory word behind an effect that leaves every byte. -/
theorem memEnd_sameBytes {s t : State} (h : SameBytes s t) (c : Ctx) (pasid : Nat) (wr : Bool) (miss : List Miss) (pend : Lanes)
    (op : Option Nat) : (c.memEnd t pasid wr miss pend op).All (SameBytes s) := by
  unfold Ctx.memEnd
  split
  · exact h
  · exact sameBytes_trans h (sameBytes_of _ _ (State.waitFor_mem ..) (State.waitFor_hostCopy ..))

/-- A load changes no byte at its issue, nor where it resolves there (R60, R161). -/
theorem load_sameBytes (c : Ctx) (s : State) (ty : Ty) (scalar : Bool) (dst : Nat) (l : List (Nat × W64)) (pend : List Miss → Lanes) :
    (c.load s ty scalar dst l pend).All (SameBytes s) := by
  unfold Ctx.load
  dsimp only
  split
  · trivial
  · split
    · exact sameBytes_refl s
    · exact sameBytes_of _ _ (State.awaitPages_mem ..) (State.awaitPages_hostCopy ..)
    · refine memEnd_sameBytes ?_ ..
      have joined {g : Gang} {new : Nat → Op} {f : Op → Op} : SameBytes s ((s.setGang g).joinOp c new f).1 :=
        sameBytes_of _ _ (joinOp_sameStore (s.setGang g) c new f).1 (joinOp_sameStore (s.setGang g) c new f).2
      split
      · split
        · exact sameBytes_trans joined (resolveOp_sameBytes _ _ _ _)
        · exact joined
      · exact joined

/-! ## Words with branches of their own -/

theorem atomic_sameStore (c : Ctx) (s : State) (kind : Nat) (f : FmtMA) : (c.atomic s kind f).All (SameStore s) := by
  unfold Ctx.atomic
  dsimp only
  refine all_ite trivial ?_
  split
  · exact ⟨rfl, rfl⟩
  · exact ⟨by simp, by simp⟩
  · unfold Ctx.memEnd
    refine all_ite (joinOp_sameStore ..) ⟨?_, ?_⟩
    · rw [State.waitFor_mem, (joinOp_sameStore ..).1]
    · rw [State.waitFor_hostCopy, (joinOp_sameStore ..).2]

theorem arriveAt_sameStore (c : Ctx) (s : State) (n : Nat) (commit sleep : Bool) (lvl : Nat) :
    (c.arriveAt s n commit sleep lvl).All (SameStore s) := by
  unfold Ctx.arriveAt
  split
  · exact ⟨rfl, rfl⟩
  · refine all_ite ⟨rfl, rfl⟩ (all_ite ⟨rfl, rfl⟩ (all_ite trivial ?_))
    cases sleep <;> exact all_ite ⟨by simp, by simp⟩ ⟨by simp, by simp⟩

theorem releaseGuest_sameStore (s : State) (uid : Nat) (stepping : Bool) : SameStore s (s.releaseGuest uid stepping) := by
  unfold State.releaseGuest
  split
  · exact ⟨rfl, rfl⟩
  · split
    · exact ⟨rfl, rfl⟩
    · dsimp only
      split
      · exact ⟨by simp, by simp⟩
      · exact ⟨rfl, rfl⟩

theorem splitTo_sameStore (c : Ctx) (s : State) (take : Lanes) (t : W64) : (c.splitTo s take t).All (SameStore s) := by
  unfold Ctx.splitTo
  split
  · exact ⟨by simp, by simp⟩
  · exact ⟨rfl, rfl⟩

section
variable {s t : State}

theorem exit_sameBytes {f : FmtK} (he : exec (.exit f) s = .next t) : SameBytes s t := by
  refine sameBytes_of_next he (issueWord_sameBytes fun c => ?_)
  dsimp only
  generalize (if c.lastExit then c.gang.latchedErr 0 none true else none) = e
  cases e with
  | some e => exact ⟨rfl, rfl⟩
  | none => cases c.gang.place <;> exact ⟨by simp, by simp⟩

theorem rte_sameBytes {f : FmtK} (he : exec (.rte f) s = .next t) : SameBytes s t := by
  refine sameBytes_of_next he (issueWord_sameBytes fun c => ?_)
  dsimp only
  split
  · exact ⟨by simp, by simp⟩
  · exact all_ite ⟨by simp, by simp⟩ ⟨rfl, rfl⟩

theorem srd_sameBytes {f : FmtS} (he : exec (.srd f) s = .next t) : SameBytes s t := by
  refine sameBytes_of_next he (issueWord_sameBytes fun c => ?_)
  dsimp only
  split
  · exact ⟨rfl, rfl⟩
  · exact ⟨rfl, rfl⟩
  · exact ⟨rfl, rfl⟩
  · split <;> exact ⟨rfl, rfl⟩
  · exact ⟨rfl, rfl⟩

theorem mark_sameBytes {f : FmtY} (he : exec (.mark f) s = .next t) : SameBytes s t := by
  refine sameBytes_of_next he (issueWord_sameBytes fun c => ?_)
  dsimp only
  split
  · exact all_ite trivial (all_ite ⟨rfl, rfl⟩ ⟨rfl, rfl⟩)
  · split
    · exact all_ite ⟨rfl, rfl⟩ ⟨rfl, rfl⟩
    · exact ⟨rfl, rfl⟩
  · split
    · exact all_ite ⟨rfl, rfl⟩ ⟨rfl, rfl⟩
    · exact ⟨rfl, rfl⟩

theorem waitcnt_sameBytes {f : FmtY} (he : exec (.waitcnt f) s = .next t) : SameBytes s t := by
  refine sameBytes_of_next he (issueWord_sameBytes fun c => all_ite trivial ?_)
  split <;> exact ⟨rfl, rfl⟩

theorem barw_sameBytes {f : FmtY} (he : exec (.barw f) s = .next t) : SameBytes s t := by
  refine sameBytes_of_next he (issueWord_sameBytes fun c => ?_)
  dsimp only
  split
  · exact ⟨rfl, rfl⟩
  · refine all_ite ⟨rfl, rfl⟩ ?_
    split
    · exact all_ite ⟨rfl, rfl⟩ ⟨rfl, rfl⟩
    · exact ⟨rfl, rfl⟩

theorem barx_sameBytes {f : FmtY} (he : exec (.barx f) s = .next t) : SameBytes s t := by
  refine sameBytes_of_next he (issueWord_sameBytes fun c => ?_)
  dsimp only
  split
  · exact ⟨rfl, rfl⟩
  · exact all_ite ⟨rfl, rfl⟩ ⟨by simp, by simp⟩

theorem abort_sameBytes {f : FmtY} (he : exec (.abort f) s = .next t) : SameBytes s t := by
  refine sameBytes_of_next he (issueWord_sameBytes fun c => ?_)
  dsimp only
  split
  · exact all_ite trivial ⟨rfl, rfl⟩
  · exact ⟨by simp, by simp⟩

theorem vralloc_sameBytes {f : FmtS} (he : exec (.vralloc f) s = .next t) : SameBytes s t :=
  sameBytes_of_next he (issueWord_sameBytes fun _ => all_ite ⟨rfl, rfl⟩ (all_ite ⟨rfl, rfl⟩ (all_ite
    (all_ite ⟨rfl, rfl⟩ ⟨rfl, rfl⟩) (all_ite ⟨rfl, rfl⟩ (all_ite ⟨rfl, rfl⟩ ⟨rfl, rfl⟩)))))

theorem sigop_sameBytes {f : FmtS} (he : exec (.sigop f) s = .next t) : SameBytes s t := by
  refine sameBytes_of_next he (issueWord_sameBytes fun c => all_ite ⟨rfl, rfl⟩ ?_)
  split
  · exact ⟨rfl, rfl⟩
  · exact ⟨by simp, by simp⟩
  · exact ⟨by simp, by simp⟩
  · dsimp only [Res.All]
    split <;> exact ⟨by simp, by simp⟩

theorem rqlist_sameBytes {f : FmtRQ} (he : exec (.rqlist f) s = .next t) : SameBytes s t := by
  refine sameBytes_of_next he (issueWord_sameBytes fun c => all_ite ⟨rfl, rfl⟩ ?_)
  split
  · exact ⟨rfl, rfl⟩
  · refine releaseFor_sameStore s ⟨?_, ?_⟩ f.rel c _
    · rw [State.writeKick, State.updCore_mem]
      exact foldl_field State.mem _ (fun _ _ => State.queueReq_mem ..) _ _
    · rw [State.writeKick, State.updCore_hostCopy]
      exact foldl_field State.hostCopy _ (fun _ _ => State.queueReq_hostCopy ..) _ _
end

/-! ## Debug words -/

section
variable {s t : State} {f : FmtQ}

theorem dbgrd_sameBytes (he : exec (.dbgrd f) s = .next t) : SameBytes s t := by
  refine sameBytes_of_next he (debugForm_sameBytes s fun c core p => ?_)
  split <;> exact ⟨rfl, rfl⟩

/-- A write waits in the shadow of its guest (R300). -/
theorem dbgwr_sameBytes (he : exec (.dbgwr f) s = .next t) : SameBytes s t := by
  refine sameBytes_of_next he (debugForm_sameBytes s fun c core p => ?_)
  dsimp only
  split
  · exact ⟨rfl, rfl⟩
  · split
    · exact ⟨rfl, rfl⟩
    · split
      · exact ⟨rfl, rfl⟩
      · exact all_ite ⟨rfl, rfl⟩ ⟨rfl, rfl⟩

theorem dstep_sameBytes (he : exec (.dstep f) s = .next t) : SameBytes s t := by
  refine sameBytes_of_next he (debugForm_sameBytes s fun c core p => ?_)
  split
  · exact releaseGuest_sameStore ..
  · exact ⟨rfl, rfl⟩

theorem dresume_sameBytes (he : exec (.dresume f) s = .next t) : SameBytes s t := by
  refine sameBytes_of_next he (debugForm_sameBytes s fun c core p => ?_)
  split
  · exact releaseGuest_sameStore (s.setGang _) ..
  · exact ⟨rfl, rfl⟩

theorem dreturn_sameBytes (he : exec (.dreturn f) s = .next t) : SameBytes s t := by
  refine sameBytes_of_next he (debugForm_sameBytes s fun c core p => ?_)
  split <;> exact ⟨rfl, rfl⟩
end

/-! ## Every word -/

/-- Settles O59, word by word: the form that a word issues through, or its own branches. -/
theorem issueMemoryFrame : Obligations.IssueMemoryFrame := by
  unfold Obligations.IssueMemoryFrame
  intro s t i hi he
  cases i with
  | st f | sts f | pktld f | pktdone f | sigrmw f | qsave f | qload f | dispatch f | pendscan f | qarm f | trctl f => exact hi.elim
  | smov f | smovi f | sadd f | ssub f | smul f | smulh f | sand f | sor f | sxor f | sshl f | sshr f | ssra f | smin f | smax f
  | scmp f | ssel f | sclz f | spopc f | sbfe f | sbfi f => exact sameBytes_of_next he (scalarForm_sameBytes s _)
  | mpopc f | mfirst f => exact sameBytes_of_next he (maskCount_sameBytes s _)
  | vadd f | vsub f | vmul f | vmulh f | vmad f | vand f | vor f | vxor f | vnot f | vshl f | vshr f | vsra f | vmin f | vmax f | vabs f
  | vbfe f | vbfi f | vsel f | vmov f | vmovi f | vfadd f | vfsub f | vfmul f | vfma f | vfmin f | vfmax f =>
    exact sameBytes_of_next he (vecForm_sameBytes s _ _ _ _ _)
  | vclz f | vpopc f | vadd2 f | vsub2 f | vmac2 f | vdot4 f | vqadd f | vqsub f | vshrr f | vpack f | vunpack f | vfclass f =>
    exact sameBytes_of_next he (vecForm32_sameBytes s _ _ _ _)
  | mand f | mor f | mxor f | mnot f | mmov f | vcmp f | vfcmp f | vcvt f | vfcvt f | vftoi f | vitof f | measure f | bra f | skip f
  | call f | ret f | yield f => exact sameBytes_of_next he (gangWord_sameBytes s _)
  | vfrcp f | vfrsq f | vfsqrt f | vfexp2 f | vflog2 f => exact sameBytes_of_next he (longForm_sameBytes s _ _)
  | vshfl f | vshflx f | vslide f | vbcast f => exact sameBytes_of_next he (crossForm_sameBytes s _ _ _ _ _)
  | vvote f | vreduce f | vscan f => exact sameBytes_of_next he (issueWord_sameBytes fun _ => addResult_sameStore s _ _ _)
  | gangAll f | nop f | prefetch f => exact sameBytes_of_next he (emptyWord_sameBytes s)
  | bru f => exact sameBytes_of_next he (issueWord_sameBytes fun _ => all_ite ⟨rfl, rfl⟩ ⟨rfl, rfl⟩)
  | brau f => exact sameBytes_of_next he (issueWord_sameBytes fun _ => all_ite ⟨rfl, rfl⟩ (all_ite ⟨rfl, rfl⟩ ⟨rfl, rfl⟩))
  | brv f => exact sameBytes_of_next he (issueWord_sameBytes fun _ => splitTo_sameStore ..)
  | join f => exact sameBytes_of_next he (issueWord_sameBytes fun _ => all_ite ⟨rfl, rfl⟩ ⟨rfl, rfl⟩)
  | trap f => exact sameBytes_of_next he (issueWord_sameBytes fun _ => all_ite ⟨by simp, by simp⟩ ⟨by simp, by simp⟩)
  | exit f => exact exit_sameBytes he
  | rte f => exact rte_sameBytes he
  | srd f => exact srd_sameBytes he
  | swr f =>
    refine sameBytes_of_next he (issueWord_sameBytes fun c => ?_)
    split <;> exact ⟨rfl, rfl⟩
  | ld f | lds f => exact sameBytes_of_next he (issueWord_keeps_sameBytes fun _ => load_sameBytes ..)
  | atom f | atomf f | atomcas f => exact sameBytes_of_next he (issueWord_sameBytes fun _ => atomic_sameStore ..)
  | commit f => exact sameBytes_of_next he (issueWord_sameBytes fun _ => all_ite ⟨rfl, rfl⟩ (all_ite trivial ⟨by simp, by simp⟩))
  | commitc f => exact sameBytes_of_next he (issueWord_sameBytes fun _ => ⟨by simp, by simp⟩)
  | mark f => exact mark_sameBytes he
  | abort f => exact abort_sameBytes he
  | waitcnt f => exact waitcnt_sameBytes he
  | bara f | bars f => exact sameBytes_of_next he (issueWord_sameBytes fun _ => arriveAt_sameStore ..)
  | barw f => exact barw_sameBytes he
  | barx f => exact barx_sameBytes he
  | vralloc f => exact vralloc_sameBytes he
  | launch f => exact sameBytes_of_next he (issueWord_sameBytes fun _ => all_ite ⟨rfl, rfl⟩ ⟨by simp, by simp⟩)
  | sigop f => exact sigop_sameBytes he
  | mma f | mmas f | mmac f | mmag f | qhist f | qscale f | qcvt f | qclr f => exact sameBytes_of_next he (matIssue_sameBytes s _)
  | rqcopy f | rqfill f | rqgather f | rqscatter f | rqputs f | rqred f | rqswap f => exact sameBytes_of_next he (reqIssue_sameBytes s _ _)
  | rqlist f => exact rqlist_sameBytes he
  | dbgrd f => exact dbgrd_sameBytes he
  | dbgwr f => exact dbgwr_sameBytes he
  | dstep f => exact dstep_sameBytes he
  | dresume f => exact dresume_sameBytes he
  | dreturn f => exact dreturn_sameBytes he
  | wpset f => exact sameBytes_of_next he (debugForm_sameBytes s fun _ _ _ => all_ite ⟨rfl, rfl⟩ ⟨by simp, by simp⟩)
  | vhrd f => exact sameBytes_of_next he (debugForm_sameBytes s fun _ _ _ => all_ite ⟨rfl, rfl⟩ ⟨rfl, rfl⟩)
  | resolve g o => exact sameBytes_of_next he (resolveNow_sameBytes s _ _)
  | _ => exact (Bool.false_ne_true hi).elim

end Sys2Proof.MemoryFrame
end

section
/-!
PROOFS. `vralloc`, `launch` and `sigop` (R204, R216, R219); entry to a gang's handler and the record of a fault that has none (R196,
R197, R202); the transitions of latched faults and of translation (R198, R205 to R208).
-/
namespace Sys2Proof.PressTraps
open Sys2Proof.Machine

/-! ## `vralloc` -/

section
variable {s : State} {c : Ctx} {f : FmtS} (h : Issues s c false false)
include h

/-- A group that is not the whole gang may not change its allotment. -/
theorem vralloc_split (hsplit : c.gang.live &&& ~~~ c.grp.slices ≠ 0) :
    exec (.vralloc f) s = .next (s.faults c .illegalConvergence c.pc) :=
  congrArg Host.Outcome.next (issueWord_trap h (if_pos (bne_iff_ne.mpr hsplit)))

theorem vralloc_outOfRange (hwhole : c.gang.live &&& ~~~ c.grp.slices = 0)
    (ha : c.gang.scalar32 s.now f.a = 0 ∨ 32 < c.gang.scalar32 s.now f.a) :
    exec (.vralloc f) s = .next (s.faults c .illegalInstruction c.pc) :=
  congrArg Host.Outcome.next (issueWord_trap h ((if_neg (by simp [hwhole])).trans (if_pos (by simpa using ha))))
end

/-- A whole gang passes the tests of `vralloc` with an allotment in range (R203, R204). -/
theorem vralloc_tests {g : Gang} {x : Slices} {a : Nat} (hwhole : g.live &&& ~~~ x = 0) (hlo : 1 ≤ a) (hhi : a ≤ 32) (r1 r2 r3 : Res) :
    (if g.live &&& ~~~ x != 0 then r1 else if a = 0 || 32 < a then r2 else r3) = r3 :=
  (if_neg (by simp [hwhole])).trans (if_neg (by simp only [Bool.or_eq_true, decide_eq_true_eq]; omega))

section
variable {s : State} {c : Ctx} {f : FmtS} (h : Issues s c false false) (hwhole : c.gang.live &&& ~~~ c.grp.slices = 0)
  (hlo : 1 ≤ c.gang.scalar32 s.now f.a) (hhi : c.gang.scalar32 s.now f.a ≤ 32)
include h hwhole hlo hhi

theorem vralloc_shrinks (hsel : f.sel = 0) (hle : 8 * c.gang.scalar32 s.now f.a ≤ c.allotNow.1) :
    exec (.vralloc f) s = .next ((c.takeAllot s f.dst (8 * c.gang.scalar32 s.now f.a) 0).advance c.uid c.slice) :=
  congrArg Host.Outcome.next (issueWord_ok h ((vralloc_tests hwhole hlo hhi ..).trans
    ((if_pos (beq_iff_eq.mpr hsel)).trans (if_neg (Nat.not_lt.mpr hle)))))

theorem vralloc_shrink_upwards (hsel : f.sel = 0) (hlt : c.allotNow.1 < 8 * c.gang.scalar32 s.now f.a) :
    exec (.vralloc f) s = .next (s.faults c .illegalInstruction c.pc) :=
  congrArg Host.Outcome.next (issueWord_trap h ((vralloc_tests hwhole hlo hhi ..).trans
    ((if_pos (beq_iff_eq.mpr hsel)).trans (if_pos hlt))))

theorem vralloc_grow_downwards (hsel : f.sel ≠ 0) (hlt : 8 * c.gang.scalar32 s.now f.a < c.allotNow.1) :
    exec (.vralloc f) s = .next (s.faults c .illegalInstruction c.pc) :=
  congrArg Host.Outcome.next (issueWord_trap h ((vralloc_tests hwhole hlo hhi ..).trans
    ((if_neg (mt beq_iff_eq.mp hsel)).trans (if_pos hlt))))

/-- GROW takes the registers where its partition has their bytes free. -/
theorem vralloc_grows (hsel : f.sel ≠ 0) (hle : c.allotNow.1 ≤ 8 * c.gang.scalar32 s.now f.a)
    (hfree : s.partUsed c.gang.home.1 c.gang.home.2 + (8 * c.gang.scalar32 s.now f.a - c.allotNow.1) * c.gang.measure * 4 ≤ regFileBytes) :
    exec (.vralloc f) s = .next ((c.takeAllot s f.dst (8 * c.gang.scalar32 s.now f.a)
      (8 * c.gang.scalar32 s.now f.a - c.allotNow.1)).advance c.uid c.slice) :=
  congrArg Host.Outcome.next (issueWord_ok h ((vralloc_tests hwhole hlo hhi ..).trans
    ((if_neg (mt beq_iff_eq.mp hsel)).trans ((if_neg (Nat.not_lt.mpr hle)).trans (if_pos hfree)))))

/-- Else it writes 0 and takes none. -/
theorem vralloc_grow_refused (hsel : f.sel ≠ 0) (hle : c.allotNow.1 ≤ 8 * c.gang.scalar32 s.now f.a)
    (hfull : ¬ s.partUsed c.gang.home.1 c.gang.home.2 + (8 * c.gang.scalar32 s.now f.a - c.allotNow.1) * c.gang.measure * 4 ≤ regFileBytes) :
    exec (.vralloc f) s = s.passes c (c.gang.wrScalar32 f.dst 0) :=
  congrArg Host.Outcome.next (issueWord_ok h ((vralloc_tests hwhole hlo hhi ..).trans
    ((if_neg (mt beq_iff_eq.mp hsel)).trans ((if_neg (Nat.not_lt.mpr hle)).trans (if_neg hfull)))))
end

/-! ## `launch` and `sigop` -/

section
variable {s : State} {c : Ctx} {f : FmtS} (h : Issues s c false false)
include h

theorem launch_tooDeep (hdepth : 10 ≤ c.gang.depth s) : exec (.launch f) s = .next (s.faults c .nestingOverflow c.pc) :=
  congrArg Host.Outcome.next (issueWord_trap h (if_pos hdepth))

/-- A launch leaves an operation that holds its lanes' descriptors, and the detach that its grant waits for (R216). -/
theorem launch_issues (hdepth : c.gang.depth s < 10) :
    exec (.launch f) s = .next (((s.addOp c.uid (fun id =>
      { Op.make id (.launch (regNum f.dst) ((laneList c.activeAll).map (fun k => (k, c.gang.lane64 s.now f.a k))))
          none c.run.header.fa c.pc with
        due := behindDue (s.releaseDue c.gang) (s.dueAt c.gang s.flash.latLaunch) })).releaseFor c s.nextOp).advance c.uid c.slice) :=
  congrArg Host.Outcome.next (issueWord_ok h (if_neg (Nat.not_le.mpr hdepth)))

/-- The space of a signal's address is tested before anything else. -/
theorem sigop_outOfSpace (hspace : 2 < (c.gang.scalar64 s.now f.a).toNat / 2 ^ 57) :
    exec (.sigop f) s = .next (s.faults c .spaceInvalid (c.gang.scalar64 s.now f.a)) :=
  congrArg Host.Outcome.next (issueWord_trap h (if_pos (by simpa [signalSpace] using hspace)))
end

theorem signalSpace_test {ea : W64} (hspace : ea.toNat / 2 ^ 57 ≤ 2) (r1 r2 : Res) : (if !signalSpace ea then r1 else r2) = r2 :=
  if_neg (by simpa [signalSpace] using hspace)

/-- The one access of a signal: its group lane's eight bytes, written unless the signal is read (R165, R219). -/
def sigopAccess (s : State) (c : Ctx) (f : FmtS) : Checked :=
  s.checkAll (c.gang.party s) c.grp .plain true (f.sel.toNat != 2) 8 8 [(c.groupLane, c.gang.scalar64 s.now f.a)]

/-- The operation of a signal at its unified address; a read has started, and waits for no release. -/
def sigopOp (s : State) (c : Ctx) (f : FmtS) (addr id : Nat) : Op :=
  { Op.make id (.sigop f.sel.toNat (regNum f.dst) addr (c.gang.scalar64 s.now f.a) (c.gang.scalar64 s.now f.b)) none
      c.run.header.fa c.pc with
    due := behindDue (if f.sel.toNat = 2 then none else s.releaseDue c.gang) (s.dueAt c.gang s.flash.latDevice)
    started := f.sel.toNat == 2 }

section
variable {s : State} {c : Ctx} {f : FmtS} (h : Issues s c false false)
  (hspace : (c.gang.scalar64 s.now f.a).toNat / 2 ^ 57 ≤ 2)
include h hspace

theorem sigop_bad {tval : W64} {code : Code} (hc : sigopAccess s c f = .bad tval code) :
    exec (.sigop f) s = .next (s.faults c code tval) := by
  refine congrArg Host.Outcome.next (issueWord_trap h ((signalSpace_test hspace ..).trans ?_))
  unfold sigopAccess at hc
  rw [hc]

theorem sigop_waits {miss : List Miss} (hc : sigopAccess s c f = .wait miss) :
    exec (.sigop f) s = .next (s.awaitPages c (c.gang.party s).pasid (f.sel.toNat != 2) miss c.activeAll) := by
  refine congrArg Host.Outcome.next (issueWord_left h ((signalSpace_test hspace ..).trans ?_))
  unfold sigopAccess at hc
  rw [hc]

theorem sigop_parks {miss : List Miss} (hc : sigopAccess s c f = .go [] miss) :
    exec (.sigop f) s = .next (s.waitFor c (c.gang.party s).pasid (f.sel.toNat != 2) miss c.activeAll none) := by
  refine congrArg Host.Outcome.next (issueWord_left h ((signalSpace_test hspace ..).trans ?_))
  unfold sigopAccess at hc
  rw [hc]

/-- Every operation but a read waits for the grant of its release (R219). -/
theorem sigop_issues {hit : Hit} {rest : List Hit} {miss : List Miss} (hc : sigopAccess s c f = .go (hit :: rest) miss) :
    exec (.sigop f) s = .next ((if f.sel.toNat = 2 then s.addOp c.uid (sigopOp s c f hit.addr)
      else (s.addOp c.uid (sigopOp s c f hit.addr)).releaseFor c s.nextOp).advance c.uid c.slice) := by
  refine congrArg Host.Outcome.next (issueWord_ok h ((signalSpace_test hspace ..).trans ?_))
  unfold sigopAccess at hc
  rw [hc]
  rfl
end

/-- Settles O40: `vralloc` by its tests, its mode and the room of its partition, `launch` by its depth, `sigop` by its access. -/
theorem allotLaunchSignal : Obligations.AllotLaunchSignal := by
  unfold Obligations.AllotLaunchSignal
  intro s c f h a cur whole free
  refine ⟨fun hsplit => vralloc_split h hsplit, fun hwhole hlo hhi => ⟨fun hsel hle => vralloc_shrinks h hwhole hlo hhi hsel hle,
    fun hsel hlt => vralloc_shrink_upwards h hwhole hlo hhi hsel hlt, fun hsel hlt => vralloc_grow_downwards h hwhole hlo hhi hsel hlt,
    fun hsel hle hused => ?_⟩, fun hwhole ha => vralloc_outOfRange h hwhole ha, fun hdepth => launch_tooDeep h hdepth,
    fun hdepth => ⟨_, rfl, launch_issues h hdepth⟩, fun hspace => sigop_outOfSpace h hspace, fun hspace =>
    ⟨fun tval code hc => sigop_bad h hspace hc, fun miss hc => sigop_waits h hspace hc, fun miss hc => sigop_parks h hspace hc,
      fun hit rest miss hc => ⟨_, rfl, sigop_issues h hspace hc⟩⟩⟩
  have hfits : s.partUsed c.gang.home.1 c.gang.home.2 + (8 * a - cur) * c.gang.measure * 4 ≤ regFileBytes ↔
      (8 * a - cur) * c.gang.measure * 4 ≤ free := by
    unfold regFileBytes free
    omega
  exact ⟨fun hfree => vralloc_grows h hwhole hlo hhi hsel hle (hfits.mpr hfree),
    fun hfull => vralloc_grow_refused h hwhole hlo hhi hsel hle fun hle => Nat.not_le.mpr hfull (hfits.mp hle)⟩

/-! ## Entry to a gang's handler -/

/-- The group set in place of a slice's group is the slice's group. -/
theorem group?_setGroup {g : Gang} {k : Nat} {r r' : Group} (h : g.group? k = some r) (hs : r'.slices = r.slices) :
    (g.setGroup r').group? k = some r' := by
  have hk : r'.slices.getLsbD k = true := by
    rw [hs]
    simpa using List.find?_some h
  unfold Gang.group? at h ⊢
  unfold Gang.setGroup
  dsimp only
  generalize g.groups = l at h ⊢
  induction l with
  | nil => cases h
  | cons x l ih =>
    rw [List.map_cons]
    by_cases hx : x.slices &&& r'.slices = 0
    · have hxk : x.slices.getLsbD k = false := by
        have hand : (x.slices &&& r'.slices).getLsbD k = false := by simp [hx]
        rwa [BitVec.getLsbD_and, hk, Bool.and_true] at hand
      rw [if_neg (by simp [hx])]
      simp only [List.find?_cons, hxk] at h ⊢
      exact ih h
    · rw [if_pos (bne_iff_ne.mpr hx)]
      simp only [List.find?_cons, hk]

/-- The context of the current word holds its group as its gang has it. -/
theorem group?_of_ctx? {s : State} {c : Ctx} (h : s.ctx? = some c) : c.gang.group? c.slice = some c.grp := by
  unfold State.ctx? at h
  repeat' split at h
  all_goals cases h
  assumption

/-- A gang whose group has left its clause at a fault. -/
def faultedGang (g : Gang) (r : Group) : Gang := g.dropClause { r with status := .ready }

/-- That group: ready, outside a clause. -/
def faultedGroup (r : Group) : Group := { r with status := .ready, run := none }

theorem faultedGang_group? {g : Gang} {r : Group} {k : Nat} (h : g.group? k = some r) :
    (faultedGang g r).group? k = some (faultedGroup r) :=
  group?_setGroup (r' := faultedGroup r) h rfl

/-- Two changes of one gang leave the second. -/
theorem gang?_setGang_setGang {s : State} {g : Gang} {uid : Nat} (h : s.gang? uid = some g) {g1 g2 : Gang} (h1 : g1.uid = g.uid)
    (h2 : g2.uid = g.uid) : ((s.setGang g1).setGang g2).gang? uid = some g2 := by
  obtain rfl : g.uid = uid := s.gang?_uid uid g h
  have hg1 : (s.setGang g1).gang? g2.uid = some g1 := by
    rw [h2, ← h1]
    exact s.gang?_setGang_self g1 g (h1 ▸ h)
  rw [← h2]
  exact State.gang?_setGang_self _ g2 g1 hg1

/-- What entry to the handler sets, and what it leaves (R197). -/
theorem enterTrap_fields (g : Gang) (r : Group) (f : Raise) :
    let h := g.enterTrap r f
    h.image = g.tvec ∧ h.tcause = BitVec.ofNat 32 (f.word * 256 + f.code.num) ∧ h.tval = f.tval ∧ h.tret = f.tret ∧
    h.trap.isSome = true ∧ h.sregs = g.sregs ∧ h.vregs = g.vregs ∧ h.masks = g.masks ∧ h.em = g.em ∧ h.reconv = g.reconv ∧
    h.astatus = g.astatus ∧ h.galley = g.galley :=
  ⟨rfl, rfl, rfl, rfl, rfl, rfl, rfl, rfl, rfl, rfl, rfl, rfl⟩

/-- The entering group stands ready at the handler's entry clause, outside a clause (R197). -/
theorem enterTrap_group? {g : Gang} {r : Group} {k : Nat} (h : g.group? k = some r) (f : Raise) :
    ∃ q, (g.enterTrap r f).group? k = some q ∧ q.slices = r.slices ∧ q.pc = g.tvec + 64 ∧ q.status = .ready ∧ q.run = none := by
  unfold Gang.enterTrap
  refine ⟨_, group?_setGroup (r := r) ?_ rfl, ?_⟩
  · exact h
  · exact ⟨rfl, rfl, rfl, rfl⟩

/-! ## The record of an unhandled fault -/

theorem mem_descendants_self (s : State) (grid : Nat) : grid ∈ s.descendants grid := by
  unfold State.descendants
  exact List.foldlRecOn _ _ (motive := fun l => grid ∈ l) (List.mem_singleton.mpr rfl)
    fun _ hl _ _ => List.mem_append_left _ hl

/-- Changing the records of a table but not their keys: the record of a key is the one changed. -/
theorem find?_map_key {α : Type} (key : α → Nat) {f : α → α} (hf : ∀ x, key (f x) = key x) (k : Nat) (l : List α) :
    (l.map f).find? (fun x => key x == k) = (l.find? (fun x => key x == k)).map f := by
  rw [List.find?_map]
  simp only [Function.comp_def, hf]

/-- A grid that ends with a fault record halts and holds the record (R202). -/
theorem abortGrid_grid? {s : State} {k : Nat} {gr : Grid} (h : s.grid? k = some gr) (fr : FaultRec) :
    (s.abortGrid k (some fr)).grid? k = some { gr with aborted := true, stopped := true, fault := some fr } := by
  have hk : gr.uid = k := s.grid?_uid k gr h
  have hmem : (s.descendants k).contains k = true := List.contains_iff_mem.mpr (mem_descendants_self s k)
  refine (find?_map_key Grid.uid (fun x => ?_) k s.grids).trans ?_
  · split <;> rfl
  · rw [show s.grids.find? (fun x => x.uid == k) = some gr from h, Option.map_some, hk, if_pos hmem]
    simp

/-- An unhandled fault of a press core's gang ends its grid (R202). -/
theorem unhandled_press {s : State} {uid : Nat} {g : Gang} {blk : Block} (hg : s.gang? uid = some g)
    (hplace : ∃ core part, g.place = .press core part) (hb : s.block? g.block = some blk) (f : Raise) :
    s.unhandled uid f none = s.abortGrid blk.grid (some
      { code := f.code, first := none, tval := f.tval, tret := f.tret, block := blk.blockid, gang := g.gangid }) := by
  obtain ⟨core, part, hplace⟩ := hplace
  unfold State.unhandled
  rw [hg]
  dsimp only
  rw [hplace, hb]
  rfl

/-! ## A fault of a press core's gang that runs no handler and has latched no fault, outside a pre-emption -/

section
variable {s : State} {g : Gang} {r : Group} {uid k : Nat} (hg : s.gang? uid = some g) (hr : g.group? k = some r)
  (hplace : ∃ core part, g.place = .press core part) (htrap : g.trap = none) (hlatched : g.latched = [])
  (hpre : s.preempting g = false) (f : Raise)
include hg hr hplace htrap hlatched hpre

/-- It enters the gang's handler, or ends the grid where there is none (R197, R202). -/
theorem takeFault_of_free : s.takeFault uid k f = if g.tvec.toNat / 256 = 0
    then ((s.setGang (faultedGang g r)).setGang ((faultedGang g r).setGroup ((faultedGroup r).standsAt f))).unhandled uid f none
    else (s.setGang (faultedGang g r)).setGang ((faultedGang g r).enterTrap (faultedGroup r) f) := by
  obtain ⟨core, part, hplace⟩ := hplace
  have hplace' : (faultedGang g r).place = .press core part := hplace
  have htrap' : (faultedGang g r).trap = none := htrap
  have hfree : (!(faultedGang g r).latched.isEmpty || (s.setGang (faultedGang g r)).preempting (faultedGang g r)) = false :=
    Bool.or_eq_false_iff.mpr ⟨by simp [show (faultedGang g r).latched = [] from hlatched], hpre⟩
  unfold State.takeFault
  rw [hg]
  dsimp only
  rw [hr]
  dsimp only
  rw [← faultedGang, faultedGang_group? hr]
  dsimp only
  rw [hplace', htrap']
  dsimp only
  rw [hfree]
  rfl

theorem takeFault_enters (hvec : g.tvec.toNat / 256 ≠ 0) :
    (s.takeFault uid k f).gang? uid = some ((faultedGang g r).enterTrap (faultedGroup r) f) := by
  rw [takeFault_of_free hg hr hplace htrap hlatched hpre, if_neg hvec]
  exact gang?_setGang_setGang hg rfl rfl

theorem takeFault_ends_grid (hvec : g.tvec.toNat / 256 = 0) {b : Block} {gr : Grid} (hb : s.block? g.block = some b)
    (hgr : s.grid? b.grid = some gr) :
    (s.takeFault uid k f).grid? b.grid = some { gr with
      aborted := true, stopped := true
      fault := some { code := f.code, first := none, tval := f.tval, tret := f.tret, block := b.blockid, gang := g.gangid } } := by
  have hgang := gang?_setGang_setGang hg (g1 := faultedGang g r) (g2 := (faultedGang g r).setGroup ((faultedGroup r).standsAt f)) rfl rfl
  rw [takeFault_of_free hg hr hplace htrap hlatched hpre, if_pos hvec, unhandled_press hgang hplace hb]
  exact abortGrid_grid? hgr _
end

/-- Settles O60: the gang that has entered its handler, field by field; without a handler, the record of the grid. -/
theorem trapEntryFields : Obligations.TrapEntryFields := by
  unfold Obligations.TrapEntryFields
  intro s c code tval hctx hplace htrap hlatched hpre _
  have hg := PressMemory.gang?_of_ctx? hctx
  have hr := group?_of_ctx? hctx
  refine ⟨fun hvec => ?_, fun hvec b gr hb hgr _ => ?_, ?_⟩
  · have hfields := enterTrap_fields (faultedGang c.gang c.grp) (faultedGroup c.grp) (c.raise code tval)
    obtain ⟨q, hq, hslices, hpc, hstatus, hrun⟩ := enterTrap_group? (faultedGang_group? hr) (c.raise code tval)
    exact ⟨_, q, takeFault_enters hg hr hplace htrap hlatched hpre _ hvec, hq, hslices, hpc, hstatus, hrun, hfields⟩
  · exact ⟨_, takeFault_ends_grid hg hr hplace htrap hlatched hpre _ hvec hb hgr, rfl, rfl⟩
  · exact sameBytes_of _ _ (State.takeFault_mem ..) (State.takeFault_hostCopy ..)

/-! ## The entry of a latched fault -/

/-- The latched fault of the lowest group enters the gang's handler once nothing holds it back (R198). -/
theorem trapEntry_enters {s : State} {uid : Nat} {g : Gang} {l : Latched} {r : Group} (hg : s.gang? uid = some g)
    (htrap : g.trap = none) (hhalted : g.halted = false) (hpre : s.preempting g = false)
    (hthere : ∀ b, s.block? g.block = some b → b.stage = .resident) (hl : g.nextLatched = some l) (hvec : g.tvec.toNat / 256 ≠ 0)
    (hr : Gang.group? { g with latched := g.latched.erase l } (lowSlice l.slices) = some r) :
    exec (.trapEntry uid) s = .next (s.setGang (Gang.enterTrap { g with latched := g.latched.erase l } r
      ⟨l.code, l.tval, l.tret, l.word, l.mid, l.skips, l.allot⟩)) := by
  have hfree : (g.trap.isSome || g.halted || s.preempting g || !(match s.block? g.block with
      | some b => b.stage == .resident
      | none => true)) = false := by
    rw [htrap, hhalted, hpre]
    cases hb : s.block? g.block with
    | none => rfl
    | some b => simp [hthere b hb]
  refine congrArg Host.Outcome.next ?_
  rw [hg]
  dsimp only
  refine (if_neg (ne_true_of_eq_false hfree)).trans ?_
  rw [hl]
  dsimp only
  rw [hr]
  exact if_neg hvec

/-! ## Translations and pages -/

/-- The machine once a sent translation request is answered: it is gone, and the next that waits is sent (R205). -/
abbrev atsAnswered (s : State) (pasid page : Nat) (wr : Bool) : State :=
  { s with ats := sendNextAts (s.ats.filter (fun x => !x.asks pasid page wr)) }

section
variable {s : State} {pasid page : Nat} {wr : Bool} {a : Ats} (ha : s.ats.find? (fun a => a.asks pasid page wr && a.sent) = some a)
include ha

theorem atsCompletion_none : exec (.atsCompletion pasid page (wr, .none)) s =
    .next (((atsAnswered s pasid page wr).noTranslation a).resumeWaiting pasid) := by
  change execAtsCompletion pasid page (wr, .none) s = _
  unfold execAtsCompletion
  rw [ha]

/-- A translation of a page size that exists, to an aligned frame: one of this device's memory beyond what is installed stops the
model (R1), and one with a right fills the caches (R205). -/
theorem atsCompletion_page {log2 frame : Nat} (hsize : log2 = 12 ∨ log2 = 21 ∨ log2 = 30) (haligned : frame % 2 ^ log2 = 0)
    (own r w : Bool) :
    exec (.atsCompletion pasid page (wr, .page log2 own frame r w)) s =
      if own && dramBytes < frame + 2 ^ log2 then .fault (.outsideDram frame)
      else if !r && !w then .next (((atsAnswered s pasid page wr).noTranslation a).resumeWaiting pasid)
      else .next (((atsAnswered s pasid page wr).fillTlb a log2 own frame r w).resumeWaiting pasid) := by
  have hok : pageOk log2 frame = true := by
    simp only [pageOk, Bool.and_eq_true, Bool.or_eq_true, beq_iff_eq, or_assoc]
    exact ⟨hsize, haligned⟩
  change execAtsCompletion pasid page (wr, .page log2 own frame r w) s = _
  unfold execAtsCompletion
  rw [ha]
  dsimp only
  rw [hok]
  rfl
end

/-- The machine once a sent page request is answered: it is gone, and the next that waits is sent (R318). -/
abbrev priAnswered (s : State) (pasid page : Nat) (wr : Bool) : State :=
  { s with pri := sendNextPri s.tornDown (s.pri.filter (fun x => !x.asks pasid page wr)) }

/-- The host's answer to a page request lets the waiting groups translate again, or fails the page for them (R207). -/
theorem priResponse_answers {s : State} {pasid page : Nat} {wr : Bool} {p : Pri}
    (hp : s.pri.find? (fun p => p.asks pasid page wr && p.sent) = some p) (hup : s.tornDown pasid = false) (ans : PriAnswer) :
    exec (.priResponse pasid page (wr, ans)) s = .next (if ans = .success then (priAnswered s pasid page wr).resumeWaiting pasid
      else ((priAnswered s pasid page wr).pageFails pasid page wr p.waiters .accessDenied).resumeWaiting pasid) := by
  refine congrArg Host.Outcome.next ?_
  rw [hp]
  dsimp only
  refine (if_neg (ne_true_of_eq_false hup)).trans ?_
  cases ans <;> rfl

/-! ## Invalidation -/

/-- Where no block is suspended no cluster launch stands saved, and none is re-keyed. -/
theorem foldl_savedClusters {s : State} (h : ∀ c ∈ s.clusters, ∀ b ∈ s.blocksOf c.uid, b.stage ≠ .suspended) (pasid : Nat)
    (f : State → Nat → State) : (s.savedClusters pasid).foldl f s = s := by
  have hnone : s.savedClusters pasid = [] := by
    unfold State.savedClusters
    rw [List.map_eq_nil_iff, List.filter_eq_nil_iff]
    intro c hc
    have hany : (s.blocksOf c.uid).any (fun b => b.stage == .suspended) = false :=
      List.any_eq_false.mpr fun b hb => by simpa using h c hc b hb
    rw [hany, Bool.and_false]
    exact Bool.false_ne_true
  rw [hnone]
  rfl

/-- With no context saved, an invalidation is noted and drops the entries of its range, and nothing else (R208). -/
theorem invalidation_notes {s : State} (h : ∀ c ∈ s.clusters, ∀ b ∈ s.blocksOf c.uid, b.stage ≠ .suspended) (pasid lo hi : Nat) :
    ∃ i : Inval, exec (.invalidation pasid lo hi) s = .next { s with
      tlb := s.tlb.filter (fun t => !t.overlaps pasid lo hi), mapped := s.mapped.filter (fun t => !t.overlaps pasid lo hi)
      invals := s.invals ++ [i] } ∧ i.pasid = pasid ∧ i.lo = lo ∧ i.hi = hi ∧
      i.frames = (s.mapped.filter (fun t => t.overlaps pasid lo hi)).map Tlb.span := by
  refine ⟨_, congrArg Host.Outcome.next (foldl_savedClusters ?_ pasid _), ?_⟩
  · exact h
  · exact ⟨rfl, rfl, rfl, rfl⟩

/-- Settles O51, transition by transition. -/
theorem translationTransitions : Obligations.TranslationTransitions := by
  unfold Obligations.TranslationTransitions
  intro s
  refine ⟨fun uid g l r => trapEntry_enters,
    fun pasid page wr a ha => ⟨atsCompletion_none ha, fun log2 own frame r w hsize haligned => ⟨fun hown hout => ?_, fun hin hright => ?_⟩⟩,
    fun pasid page wr p hp hup => ⟨priResponse_answers hp hup .success, fun ans hans => ?_⟩, fun pasid lo hi h => ?_,
    fun pasid lo hi i hi' hdone => ?_⟩
  · exact (atsCompletion_page ha hsize haligned own r w).trans (if_pos (by simp [hown, hout]))
  · have hfits : ¬ (own && decide (dramBytes < frame + 2 ^ log2)) = true := by simpa using hin
    have hsome : ¬ (!r && !w) = true := by
      rw [← Bool.not_or, hright]
      exact Bool.false_ne_true
    exact (atsCompletion_page ha hsize haligned own r w).trans ((if_neg hfits).trans (if_neg hsome))
  · exact (priResponse_answers hp hup ans).trans (congrArg Host.Outcome.next (if_neg hans))
  · obtain ⟨i, hexec, hpasid, hlo, hhi, hframes⟩ := invalidation_notes h pasid lo hi
    exact ⟨_, i, hexec, rfl, hpasid, hlo, hhi, rfl, hframes⟩
  · refine congrArg Host.Outcome.next ?_
    rw [hi']
    exact if_pos hdone

end Sys2Proof.PressTraps
end

section
/-!
PROOFS. The issue of the matrix words (R233, R234, R238 to R244), and the engines' transitions: the start of a matrix operation (R233,
R237, R246), a request's units and its signal (R255, R256), the fetch of a list's block (R258).
-/
namespace Sys2Proof.MatrixEngines
open Sys2Proof.Machine

/-! ## What issuing a matrix word can come to -/

/-- The gang's own view of local ranges, as a matrix operation keeps it from its issue (R233). -/
def ownCells (g : Gang) (ranges : List (Nat × Nat)) : Cells :=
  (ranges.flatMap (fun r => g.ownView (localAddr g.block r.1) r.2)).foldl (fun (l : Cells) e => Store.put l e.1 e.2) []

theorem ownCells_nil (g : Gang) : ownCells g [] = [] := rfl

/-- The machine once a matrix operation has joined its partition's queue and the group has gone on (R233). -/
def matQueued (s : State) (c : Ctx) (m : MatOp) (own : Cells) : State :=
  ((s.addOp c.uid (fun id => { Op.make id (.matrix { m with own := own }) (some .mx) c.run.header.fb c.pc with
    due := s.dueAt c.gang s.flash.latMatrix })).queueMatrix c.gang s.nextOp).advance c.uid c.slice

section
variable {s : State} {c : Ctx} {prep : Ctx → State → Prep} (h : Issues s c false false)
include h

theorem matIssue_split (hsplit : c.wholeGang = false) : matIssue prep s = s.faults c .illegalConvergence c.pc := by
  unfold matIssue
  refine issueWord_trap h (if_pos ?_)
  rw [hsplit]
  rfl

section
variable (hwhole : c.wholeGang = true)
include hwhole

theorem matIssue_bad {code : Code} {tval : W64} (hp : prep c s = .bad code tval) : matIssue prep s = s.faults c code tval := by
  unfold matIssue
  refine issueWord_trap h ?_
  rw [hwhole, hp]
  rfl

theorem matIssue_go {m : MatOp} {ranges : List (Nat × Nat)} (hp : prep c s = .go m ranges) :
    matIssue prep s = matQueued s c m (ownCells c.gang ranges) := by
  unfold matIssue
  refine issueWord_ok h ?_
  rw [hwhole, hp]
  rfl

theorem matIssue_go_nothing {m : MatOp} (hp : prep c s = .go m []) : matIssue prep s = matQueued s c m [] :=
  (matIssue_go h hwhole hp).trans (congrArg (matQueued s c m) (ownCells_nil c.gang))
end
end

/-! ## Histogram, scale and quantisation -/

section
variable {s : State} {c : Ctx} {f : FmtQ} (h : Issues s c false false) (hwhole : c.wholeGang = true)
include h hwhole

theorem qclr_issues : exec (.qclr f) s = .next (matQueued s c (MatOp.make (.qclr f)) []) :=
  congrArg Host.Outcome.next (matIssue_go_nothing h hwhole rfl)

/-- A histogram counts its source at issue (R242). -/
theorem qhist_issues (hb : c.gang.scalar32 s.now f.b ≤ 32) (hin : regNum f.a + c.gang.scalar32 s.now f.b ≤ c.gang.allot) :
    exec (.qhist f) s = .next (matQueued s c { MatOp.make (.qhist f) with
      table := c.gang.binCounts f.sel.toNat (c.gang.tileWords s.now (regNum f.a) (c.gang.scalar32 s.now f.b)) } []) :=
  congrArg Host.Outcome.next (matIssue_go_nothing h hwhole ((if_neg (Nat.not_lt.mpr hb)).trans (if_neg (Nat.not_lt.mpr hin))))

theorem qhist_tooLong (hb : 32 < c.gang.scalar32 s.now f.b) : exec (.qhist f) s = .next (s.faults c .illegalInstruction c.pc) :=
  congrArg Host.Outcome.next (matIssue_bad h hwhole (if_pos hb))

theorem qhist_beyondAllotment (hb : c.gang.scalar32 s.now f.b ≤ 32) (hout : c.gang.allot < regNum f.a + c.gang.scalar32 s.now f.b) :
    exec (.qhist f) s = .next (s.faults c .regRange c.pc) :=
  congrArg Host.Outcome.next (matIssue_bad h hwhole ((if_neg (Nat.not_lt.mpr hb)).trans (if_pos hout)))

theorem qscale_issues (hb : c.gang.scalar32 s.now f.b ≤ 1024) (hsel : f.sel = 0x11 → s.feature 4 = true) :
    exec (.qscale f) s = .next (matQueued s c { MatOp.make (.qscale f) with b := BitVec.ofNat 64 (c.gang.scalar32 s.now f.b) } []) :=
  congrArg Host.Outcome.next (matIssue_go_nothing h hwhole (if_neg (by simpa using ⟨hb, hsel⟩)))

theorem qscale_outOfRange (hb : 1024 < c.gang.scalar32 s.now f.b) :
    exec (.qscale f) s = .next (s.faults c .illegalInstruction c.pc) :=
  congrArg Host.Outcome.next (matIssue_bad h hwhole (if_pos (by simp [hb])))

/-- A quantisation that passes its checks, in their order: scale and feature, space, alignment, the end of local memory (R244). -/
theorem qcvt_issues (hscale : c.gang.scalar32 s.now f.b % 256 ≠ 0xFF)
    (ho4 : (qcvtSel f).2.1 = 4 → s.feature 4 = true ∧ c.gang.scalar32 s.now f.c % 2 = 0)
    (hspace : c.gang.scalar32 s.now f.c < 2 ^ 19)
    (hend : c.gang.scalar32 s.now f.c + qcvtBytes c.gang.measure (qcvtSel f).2.1 (qcvtSel f).2.2 ≤ c.gang.localSize s) :
    exec (.qcvt f) s = .next (matQueued s c { MatOp.make (.qcvt f) with
      src := c.gang.tileWords s.now (regNum f.a) (qcvtSrcRegs c.gang.measure (qcvtSel f).1 (qcvtSel f).2.1)
      b := BitVec.ofNat 64 (c.gang.scalar32 s.now f.b % 256), c := BitVec.ofNat 64 (c.gang.scalar32 s.now f.c) } []) := by
  refine congrArg Host.Outcome.next (matIssue_go_nothing h hwhole ?_)
  refine (if_neg ?_).trans ((if_neg ?_).trans ((if_neg ?_).trans (if_neg (Nat.not_lt.mpr hend))))
  · simpa using ⟨hscale, fun h4 => (ho4 h4).1⟩
  · simpa [badOffset] using hspace
  · simpa using fun h4 => (ho4 h4).2
end

/-- Settles O41: a product or a word on a histogram faults, or joins the queue, as its checks say. -/
theorem matrixWords : Obligations.MatrixWords := by
  unfold Obligations.MatrixWords
  intro s c h
  have faults (prep : Ctx → State → Prep) (hsplit : c.wholeGang = false) :=
    congrArg (Host.Outcome.next : State → Answer) (matIssue_split (prep := prep) h hsplit)
  have queues (prep : Ctx → State → Prep) (hwhole : c.wholeGang = true) {m : MatOp} {l : List (Nat × Nat)} (hp : prep c s = .go m l) :=
    congrArg (Host.Outcome.next : State → Answer) (matIssue_go h hwhole hp)
  refine ⟨fun f => ⟨fun hsplit => ?_, fun hwhole m l => ?_⟩, fun f hsplit => ?_, fun f hwhole => ?_⟩
  · exact ⟨faults _ hsplit, faults _ hsplit, faults _ hsplit, faults _ hsplit⟩
  · exact ⟨queues (fun c s => c.prepProd s (.mma f) .mma f) hwhole, queues (fun c s => c.prepProd s (.mmas f) .mmas f) hwhole,
      queues (fun c s => c.prepProd s (.mmac f) .mmac f) hwhole, queues (fun c s => c.prepProd s (.mmag f) .mmag f) hwhole⟩
  · exact ⟨faults _ hsplit, faults _ hsplit, faults _ hsplit, faults _ hsplit⟩
  · exact ⟨qclr_issues h hwhole, qhist_issues h hwhole, qhist_tooLong h hwhole, qhist_beyondAllotment h hwhole,
      qscale_issues h hwhole, qscale_outOfRange h hwhole, qcvt_issues h hwhole⟩

/-! ## The start of a matrix operation -/

/-- The oldest entry of a partition's queue may start while its work is not done (R246). -/
theorem startEntry_of_head {s : State} {core part : Nat} {k : Core} {e : Nat × Nat × Nat} {g : Gang} {o : Op} (hk : s.core? core = some k)
    (he : (k.mq.filter (fun e => e.1 == part)).head? = some e) (hg : s.gang? e.2.1 = some g) (ho : g.op? e.2.2 = some o)
    (hdone : o.done = false) : s.startEntry core part = some e := by
  have hwork : s.entryDone e = false := by simp [State.entryDone, hg, ho, hdone]
  simp [State.startEntry, hk, he, hwork]

/-- A matrix operation once it has started: it has failed on an uncorrectable byte (R237), or it holds its results (R233). -/
def matStarted (s : State) (g : Gang) (o : Op) (m : MatOp) : Op :=
  match s.matBad g m with
  | some off => Op.fail { o with done := true } .uncorrectable (localEa off)
  | none => { o with done := true, writes := (s.startMat g m).1, sticky := (s.startMat g m).2.1
                     kind := .matrix { m with landBytes := (s.startMat g m).2.2 } }

/-- A start changes the started operation, and nothing else of the machine. -/
theorem mstart_starts {s : State} {core part : Nat} {e : Nat × Nat × Nat} {g : Gang} {o : Op} {m : MatOp}
    (he : s.startEntry core part = some e) (hg : s.gang? e.2.1 = some g) (ho : g.op? e.2.2 = some o) (hm : o.kind = .matrix m)
    (hdue : s.duePassed g o.due = true) : exec (.mstart core part) s = .next (s.setGang (g.setOp (matStarted s g o m))) := by
  refine congrArg Host.Outcome.next ?_
  unfold State.startHead matStarted
  simp only [he, hg, ho, hm, hdue, Bool.not_true, Bool.false_eq_true, if_false]
  cases s.matBad g m <;> rfl

/-! ## Requests -/

/-- Outside a deterministic launch nothing waits for a due clock. -/
theorem duePassed_of_none {s : State} {g : Gang} {due : Option Nat} (hdue : due = none) : s.duePassed g due = true := by
  rw [hdue]
  rfl

/-- A unit of a started or startable request, neither moved nor in flight, moves (R255). -/
theorem rqmove_moves {s : State} {core req u uid : Nat} {g : Gang} {o : Op} {r : ReqOp} (hcore : core ≠ ioKey)
    (he : s.reqEntry core req reqStarted = some (uid, g, o, r)) (hfetched : r.fetched = true) (hheld : r.held = none)
    (hdone : o.done = false) (hdue : o.due = none) (hu : u < r.units) (hmoved : r.moved.contains u = false)
    (hflying : r.flying.contains u = false) (hcount : s.countOver g.block r.bar (r.unitBytes u) = false)
    (t : State) (hmove : s.moveUnit uid req u g r = .ok t) : exec (.rqmove core req u) s = .next t := by
  refine congrArg Host.Outcome.next ((if_neg hcore).trans ?_)
  have hwaits : ¬ (!r.fetched || r.held.isSome || o.done || !s.duePassed g o.due) = true := by
    simp [hfetched, hheld, hdone, duePassed_of_none hdue]
  have hgone : ¬ (decide (r.units ≤ u) || r.moved.contains u || r.flying.contains u) = true := by
    rw [hmoved, hflying]
    simpa using hu
  have hover : ¬ (!(r.kind != 7 && s.remoteEa r.dst) && s.countOver g.block r.bar (r.unitBytes u)) = true := by simp [hcount]
  unfold State.moveReq
  rw [he]
  dsimp only
  rw [if_neg hwaits, if_neg (by simp [hdue]), if_neg hgone, if_neg hover, hmove]
  rfl

/-- A signal that is due is performed (R256). -/
theorem rqsignal_performs {s : State} {core req uid : Nat} {g : Gang} {o : Op} {r : ReqOp}
    (he : s.reqEntry core req (fun _ _ => true) = some (uid, g, o, r)) (hdue : o.due = none) (hsignal : r.signalDue = true)
    (hheld : r.held = none) (hfetched : r.fetched = true) (t : State) (hperform : s.performSignal uid req g r = .ok t) :
    exec (.rqsignal core req) s = .next t := by
  refine congrArg Host.Outcome.next ?_
  rw [he]
  dsimp only
  rw [if_neg (by simp [hdue, hsignal, hheld, hfetched]), hperform]
  rfl

/-- A good block of a list becomes the request that its bytes say (R258). -/
theorem rqlistBlockFetch_fetches {s : State} {core uid off : Nat} {g : Gang} {o : Op} {r q : ReqOp}
    (he : s.reqHead core = some (uid, g, o, r)) (hblock : r.block = some off) (hfetched : r.fetched = false) (hheld : r.held = none)
    (hdue : o.due = none) (hown : r.own = none) (hgood : ∀ k, k < 64 → s.badSeen g.block (localAddr g.block (off + k)) = false)
    (hq : parseBlock ((List.range 64).map (fun k => s.seenByte g.block (localAddr g.block (off + k)))) off none = some q)
    (hhome : s.heldRemote (q.addrs.map (fun a => a.2.1)) = false) (hchecks : s.checkReq (g.party s) q = none) (hbar : q.bar = none) :
    exec (.rqlistBlockFetch core) s = .next (s.updGang uid (fun g => g.setOp { o with
      kind := .request q, due := none, done := q.units == 0 && q.sig.isNone })) := by
  refine congrArg Host.Outcome.next ?_
  have hwaits : ¬ (r.fetched || r.held.isSome || !s.duePassed g o.due) = true := by simp [hfetched, hheld, duePassed_of_none hdue]
  have hbad : ¬ (List.range 64).any (fun k => s.badSeen g.block (localAddr g.block (off + k))) = true := by
    simpa using hgood
  unfold State.fetchBlock
  rw [he]
  dsimp only
  rw [hblock]
  dsimp only
  rw [if_neg hwaits, if_neg hbad, hq]
  dsimp only
  rw [if_neg (ne_true_of_eq_false hhome), hchecks, hbar, hdue, hown]
  simp [behindDue]

/-- Settles O50, transition by transition. -/
theorem engineTransitions : Obligations.EngineTransitions := by
  unfold Obligations.EngineTransitions
  intro s
  refine ⟨fun core part k e g o m hk he hg ho hm hdone hdue => ?_, fun core req u uid g o r => rqmove_moves,
    fun core req uid g o r => rqsignal_performs, fun core uid g o r off q => rqlistBlockFetch_fetches⟩
  have hstart := mstart_starts (startEntry_of_head hk he hg ho hdone) hg ho hm hdue
  unfold matStarted at hstart
  refine ⟨fun off hbad => ?_, fun hgood => ?_⟩
  · rwa [hbad] at hstart
  · rwa [hgood] at hstart

end Sys2Proof.MatrixEngines
end

section
/-!
PROOFS. The issue of the request words (R250 to R253): checks, barrier, release; lists and the kick register (R258, R259).
-/
namespace Sys2Proof.RequestEngine
open Sys2Proof.Machine

/-! ## What issuing a request can come to -/

/-- The machine once a request has joined its engine's queue, with its release in front where REL is set (R251). -/
def reqQueued (s : State) (c : Ctx) (rel : Bool) (r : ReqOp) : State :=
  if rel then (s.queueReq c { r with held := some s.nextOp } (behindDue (s.releaseDue c.gang) (s.reqDue c.gang r))).releaseFor c s.nextOp
  else s.queueReq c { r with held := none } (s.reqDue c.gang r)

/-- Nothing remote is held while no domain table waits (R324). -/
theorem heldRemote_of_none {s : State} (hd : s.domainPending = none) (l : List W64) : s.heldRemote l = false := by
  rw [State.heldRemote, hd]
  rfl

section
variable {s : State} {c : Ctx} {rel : Bool} {mk : Ctx → State → ReqOp} (h : Issues s c false false)
include h

theorem reqIssue_faults {code : Code} {tval : Option W64} (hc : s.checkReq (c.gang.party s) (mk c s) = some (code, tval)) :
    reqIssue rel mk s = s.faults c code (tval.getD c.pc) := by
  unfold reqIssue
  refine issueWord_trap h ?_
  dsimp only
  rw [hc]

section
variable (hc : s.checkReq (c.gang.party s) (mk c s) = none)
include hc

theorem reqIssue_badBar (hb : c.badBar s (mk c s).bar = true) : reqIssue rel mk s = s.faults c .barrierMisuse c.pc := by
  unfold reqIssue
  refine issueWord_trap h ?_
  dsimp only
  rw [hc]
  exact if_pos hb

theorem reqIssue_queues (hb : c.badBar s (mk c s).bar = false) (hd : s.domainPending = none) :
    reqIssue rel mk s = (reqQueued s c rel (mk c s)).advance c.uid c.slice := by
  unfold reqIssue
  refine issueWord_ok h ?_
  dsimp only
  rw [hc]
  refine (if_neg (ne_true_of_eq_false hb)).trans ((if_neg (by simp [heldRemote_of_none hd])).trans ?_)
  cases rel <;> rfl
end

/-- The three answers together, in the order of the checks. -/
theorem reqIssue_answers (rel : Bool) (mk : Ctx → State → ReqOp) :
    (∀ code tval, s.checkReq (c.gang.party s) (mk c s) = some (code, tval) →
      (.next (reqIssue rel mk s) : Answer) = .next (s.faults c code (tval.getD c.pc))) ∧
    (s.checkReq (c.gang.party s) (mk c s) = none → c.badBar s (mk c s).bar = true →
      (.next (reqIssue rel mk s) : Answer) = .next (s.faults c .barrierMisuse c.pc)) ∧
    (s.checkReq (c.gang.party s) (mk c s) = none → c.badBar s (mk c s).bar = false → s.domainPending = none →
      (.next (reqIssue rel mk s) : Answer) = .next ((reqQueued s c rel (mk c s)).advance c.uid c.slice)) :=
  ⟨fun _ _ hc => congrArg Host.Outcome.next (reqIssue_faults h hc),
    fun hc hb => congrArg Host.Outcome.next (reqIssue_badBar h hc hb),
    fun hc hb hd => congrArg Host.Outcome.next (reqIssue_queues h hc hb hd)⟩
end

/-! ## Lists -/

/-- The machine once each block of a list has joined the queue, all behind one release (R258). -/
def listQueued (s : State) (c : Ctx) (rel : Bool) (off n : Nat) : State :=
  (List.range n).foldl (fun t k => t.queueReq c { ReqOp.make 6 0 with
    block := some (off + 64 * k), fetched := false, own := s.dueAt c.gang s.flash.latRequest
    held := if rel then some s.nextOp else none }
    (if rel then behindDue (s.releaseDue c.gang) (s.dueAt c.gang s.flash.latRequest)
      else s.dueAt c.gang s.flash.latRequest)) s

section
variable {s : State} {c : Ctx} {f : FmtRQ} (h : Issues s c false false)
include h

theorem rqlist_outOfRange (hn : c.gang.scalar32 s.now f.b = 0 ∨ 64 < c.gang.scalar32 s.now f.b) :
    exec (.rqlist f) s = .next (s.faults c .illegalInstruction c.pc) :=
  congrArg Host.Outcome.next (issueWord_trap h (if_pos (by simpa using hn)))

theorem rqlist_queues (hlo : 1 ≤ c.gang.scalar32 s.now f.b) (hhi : c.gang.scalar32 s.now f.b ≤ 64)
    (hc : s.checkReqEa (c.gang.party s) true (localEa (c.gang.scalar32 s.now f.a)) 64 (64 * c.gang.scalar32 s.now f.b) = none)
    {t : State} (ht : t = (listQueued s c f.rel (c.gang.scalar32 s.now f.a) (c.gang.scalar32 s.now f.b)).writeKick c
      (kickValue (c.gang.scalar32 s.now f.a) (c.gang.scalar32 s.now f.b) c.gang.slotIndex)) :
    exec (.rqlist f) s = .next ((if f.rel then t.releaseFor c s.nextOp else t).advance c.uid c.slice) := by
  have hrange : ¬ (c.gang.scalar32 s.now f.b = 0 || 64 < c.gang.scalar32 s.now f.b) = true := by
    simp only [Bool.or_eq_true, decide_eq_true_eq]
    omega
  subst ht
  refine congrArg Host.Outcome.next (issueWord_ok h ((if_neg hrange).trans ?_))
  rw [hc]
  rfl
end

/-! ## The kick register -/

/-- A core's update is read back, where it keeps the core's key. -/
theorem core?_updCore_self {t : State} {key : Nat} {k : Core} (hk : t.core? key = some k) {f : Core → Core} (hf : (f k).key = k.key) :
    (t.updCore key f).core? key = some (f k) := by
  have hkey : (f k).key = key := hf.trans (t.core?_key key k hk)
  rw [State.updCore, hk]
  subst hkey
  exact t.core?_setCore_self (f k) k hk

/-- What a higher port has written in the same clock of the core stands (R259). -/
theorem core?_writeKick {t : State} {c : Ctx} {k : Core} (hk : t.core? c.gang.coreKey = some k) (x : W64) :
    ∃ m, (t.writeKick c x).core? c.gang.coreKey = some { k with
      kick := if k.kickMark.1 = k.clock + 1 ∧ 2 * (t.schedAt c.gang).2 + c.run.port.getD 0 < k.kickMark.2 then k.kick else x
      kickMark := m } := by
  unfold State.writeKick
  by_cases hlate : k.kickMark.1 = k.clock + 1 ∧ 2 * (t.schedAt c.gang).2 + c.run.port.getD 0 < k.kickMark.2
  · exact ⟨k.kickMark, (core?_updCore_self hk (by simp [hlate])).trans (by simp [hlate])⟩
  · exact ⟨(k.clock + 1, 2 * (t.schedAt c.gang).2 + c.run.port.getD 0),
      (core?_updCore_self hk (by simp [hlate])).trans (by simp [hlate])⟩

/-- Settles O42: the register forms are one issue with seven requests; a list by its count and its range. -/
theorem requestWords : Obligations.RequestWords := by
  unfold Obligations.RequestWords
  intro s c f h base form
  exact ⟨reqIssue_answers h f.rel (fun c s => c.reqBase s.now 0 f),
    reqIssue_answers h f.rel (fun c s => { c.reqBase s.now 1 f with src := BitVec.ofNat 64 (c.gang.scalar32 s.now f.a) }),
    reqIssue_answers h f.rel (fun c s => { c.reqBase s.now 2 f with idx := c.gang.scalar32 s.now f.c }),
    reqIssue_answers h f.rel (fun c s => { c.reqBase s.now 3 f with idx := c.gang.scalar32 s.now f.c }),
    reqIssue_answers h f.rel (fun c s => { c.reqBase s.now 4 f with sig := c.sigOf s.now f.c }),
    reqIssue_answers h f.rel (fun c s => { c.reqBase s.now 5 f with sig := c.sigOf s.now f.c }),
    reqIssue_answers h false (fun c s => c.reqBase s.now 7 f),
    ⟨fun hn => rqlist_outOfRange h hn, fun hlo hhi hc => rqlist_queues h hlo hhi hc rfl⟩,
    fun t x k hk => core?_writeKick hk x⟩

end Sys2Proof.RequestEngine
end

section
/-!
PROOFS. The compositor's words (R281 to R285): what a lane-wise word comes to, lane by lane, and `pendscan` (R283).
-/
namespace Sys2Proof.CompositorQueues
open Sys2Proof.Machine

/-! ## Firmware debug -/

/-- Without a domain of the firmware's own no COMPOSITOR record is written (R303). -/
theorem compRec_of_noFirmware {s : State} (h : ∀ d ∈ s.dbgDomains, d.firmware = false) (num idx qnum lane : Nat) :
    s.compRec num idx qnum lane = s := by
  have hnone : s.dbgDomains.find? (fun d => d.firmware) = none := List.find?_eq_none.mpr (by simpa using h)
  rw [State.compRec, hnone]

/-! ## Lane-wise words -/

/-- A word to issue, not skipped everywhere, puts its result into effect. -/
theorem issueWord_finish {coll mask : Bool} {body : Ctx → State → Res} {s : State} {c : Ctx} (h : Issues s c coll mask) :
    issueWord coll mask body s = (body c s).finish c s := by
  cases hb : body c s with
  | ok t => exact issueWord_ok h hb
  | left t => exact issueWord_left h hb
  | trap t code tval => exact issueWord_trap h hb
  | stay => exact issueWord_stay h hb

/-- The operation that a lane's results join, done with those of the last lane (R281). -/
def laneJoined (c : Ctx) (writes : List RegWrite) (rest : List Nat) (s : State) : State × Nat :=
  s.joinOp c (fun id => Op.make id .result none c.run.header.fa c.pc)
    (fun o => { o with done := rest.isEmpty, writes := o.writes ++ writes })

section
variable {s t : State} {c : Ctx}

/-- The last lane takes its group past the word. -/
theorem laneDone_last (atIssue : Bool) (writes : List RegWrite) :
    (c.laneDone atIssue writes [] t).finish c s =
      (if atIssue then t.updGang c.uid (fun g => g.writeNow writes) else (laneJoined c writes [] t).1).advance c.uid c.slice := by
  cases atIssue <;> rfl

/-- Behind every other lane the group stays at the word. -/
theorem laneDone_more (atIssue : Bool) (writes : List RegWrite) {rest : List Nat} (hrest : rest ≠ []) :
    (c.laneDone atIssue writes rest t).finish c s =
      if atIssue then (t.updGang c.uid (fun g => g.writeNow writes)).keepLanes c rest none
      else (laneJoined c writes rest t).1.keepLanes c rest (some (laneJoined c writes rest t).2) := by
  obtain ⟨k, l, rfl⟩ := List.exists_cons_of_ne_nil hrest
  cases atIssue <;> rfl

variable {atIssue : Bool} {f : Ctx → Nat → State → CRes (List RegWrite × State)} (h : Issues s c false false)
include h

/-- The next lane acts where it can, and where at the first one all could. -/
theorem compIssue_acts {k : Nat} {rest : List Nat} {w ws : List RegWrite} {u : State} (hlanes : laneList c.activeAll = k :: rest)
    (hall : c.run.replaying = false → compFold (f c) (k :: rest) s = .ok (w, u)) (hk : f c k s = .ok (ws, t)) :
    compIssue atIssue f s = (c.laneDone atIssue ws rest (t.dropWaiter (ioWork 4 (c.slotOf k)))).finish c s := by
  unfold compIssue
  refine (issueWord_finish h).trans (congrArg (Res.finish c s) ?_)
  dsimp only
  rw [hlanes]
  cases hr : c.run.replaying with
  | true => simp only [hk, if_true]
  | false => simp only [hall hr, hk, Bool.false_eq_true, if_false]

/-- A lane that may not act faults the word before any has acted. -/
theorem compIssue_faults (hlanes : laneList c.activeAll ≠ []) (hfirst : c.run.replaying = false)
    (hill : compFold (f c) (laneList c.activeAll) s = .ill) :
    compIssue atIssue f s = State.faults
      ((laneList c.activeAll).foldl (fun (t : State) k => t.dropWaiter (ioWork 4 (c.slotOf k))) s) c .illegalInstruction c.pc := by
  obtain ⟨k, rest, hkr⟩ := List.exists_cons_of_ne_nil hlanes
  rw [hkr] at hill ⊢
  unfold compIssue
  refine issueWord_trap h ?_
  dsimp only
  rw [hkr]
  simp only [hfirst, hill, Bool.false_eq_true, if_false]
  rfl

/-- The answers of a lane-wise word: the last lane, an earlier one, a lane that may not act. -/
theorem laneWord_answers {lane : Nat → State → CRes (List RegWrite × State)} {answer : Answer}
    (ha : answer = .next (compIssue atIssue f s)) (hf : f c = lane) :
    (∀ k rest w u ws t, laneList c.activeAll = k :: rest → (c.run.replaying = false → compFold lane (k :: rest) s = .ok (w, u)) →
      lane k s = .ok (ws, t) →
      let t := t.dropWaiter (ioWork 4 (c.slotOf k))
      let now := t.updGang c.uid (fun g => g.writeNow ws)
      let later := laneJoined c ws rest t
      (rest = [] → answer = .next ((if atIssue then now else later.1).advance c.uid c.slice)) ∧
      (rest ≠ [] → answer = .next (if atIssue then now.keepLanes c rest none else later.1.keepLanes c rest (some later.2)))) ∧
    (laneList c.activeAll ≠ [] → c.run.replaying = false → compFold lane (laneList c.activeAll) s = .ill →
      answer = .next (State.faults ((laneList c.activeAll).foldl (fun (t : State) k => t.dropWaiter (ioWork 4 (c.slotOf k))) s)
        c .illegalInstruction c.pc)) := by
  subst ha hf
  refine ⟨fun k rest w u ws t hlanes hall hk => ⟨fun hlast => ?_, fun hmore => ?_⟩,
    fun hlanes hfirst hill => congrArg Host.Outcome.next (compIssue_faults h hlanes hfirst hill)⟩
  · subst hlast
    exact congrArg Host.Outcome.next ((compIssue_acts h hlanes hall hk).trans (laneDone_last atIssue ws))
  · exact congrArg Host.Outcome.next ((compIssue_acts h hlanes hall hk).trans (laneDone_more atIssue ws hmore))
end

/-- The operation and the release scope in the selector of `sigrmw` (R282). -/
theorem sigrmw_selector (n : Nat) : bits n 1 0 = n % 4 ∧ bits n 3 2 = n / 4 % 4 :=
  ⟨congrArg (· % 4) (Nat.div_one n), rfl⟩

/-! ## `pendscan` -/

/-- With nothing pending there is no first pending queue. -/
theorem firstPending_of_empty {s : State} (h : s.pending = []) (start : Nat) : s.firstPending start = none := by
  rw [State.firstPending, h]
  rfl

section
variable {s : State} {c : Ctx} {f : FmtQ} (h : Issues s c false false) (hd : ∀ d ∈ s.dbgDomains, d.firmware = false)
include h hd

/-- A core's wake mask is taken and cleared. -/
theorem pendscan_lanes (hlanes : f.sel.getLsbD 0 = true) (hmask : s.wakeMask c.gang.coreKey ≠ 0) :
    exec (.pendscan f) s = .next (((s.setGang (c.gang.wrScalar32 f.dst (s.wakeMask c.gang.coreKey).toNat)).clearWake
      c.gang.coreKey).advance c.uid c.slice) := by
  refine congrArg Host.Outcome.next (issueWord_ok h ?_)
  dsimp only
  rw [compRec_of_noFirmware hd]
  simp only [hlanes, beq_false_of_ne hmask, Bool.and_false, Bool.false_eq_true, if_true, if_false]

section
variable (hqueues : f.sel.getLsbD 0 = false)
include hqueues

/-- The first pending queue is taken, its bit cleared. -/
theorem pendscan_takes {q : Nat} (hq : s.firstPending (c.gang.scalar32 s.now f.a) = some q) :
    exec (.pendscan f) s = .next ((State.setGang { s with pending := s.pending.filter (· != q) }
      (c.gang.wrScalar32 f.dst q)).advance c.uid c.slice) := by
  have hsome : s.pending ≠ [] := fun hnil => by simp [firstPending_of_empty hnil] at hq
  refine congrArg Host.Outcome.next (issueWord_ok h ?_)
  dsimp only
  rw [compRec_of_noFirmware hd]
  simp only [hqueues, hq, List.isEmpty_eq_false_iff.mpr hsome, Bool.and_false, Bool.false_eq_true, if_false]

variable (hnil : s.pending = [])
include hnil

theorem pendscan_none (hgo : f.sel.getLsbD 1 = false) :
    exec (.pendscan f) s = s.passes c (c.gang.wrScalar32 f.dst 0xFFFFFFFF) := by
  refine congrArg Host.Outcome.next (issueWord_ok h ?_)
  dsimp only
  rw [compRec_of_noFirmware hd]
  simp only [hqueues, hgo, firstPending_of_empty hnil, Bool.false_and, Bool.false_eq_true, if_false]

theorem pendscan_sleeps (hwait : f.sel.getLsbD 1 = true) (hnew : c.run.collected = false) :
    exec (.pendscan f) s = .next (s.holdAs c .sleepScan) := by
  refine congrArg Host.Outcome.next (issueWord_left h ?_)
  dsimp only
  rw [compRec_of_noFirmware hd]
  simp only [hqueues, hwait, hnew, hnil, List.isEmpty_nil, Bool.not_false, Bool.and_true, Bool.false_eq_true, if_true, if_false]
end
end

/-- Settles O43: the seven lane-wise words are one issue with seven effects of a lane; `pendscan` by what it finds. -/
theorem compositorWords : Obligations.CompositorWords := by
  unfold Obligations.CompositorWords
  intro s c f h dst core form
  obtain ⟨hop, hrel⟩ := sigrmw_selector f.sel.toNat
  exact ⟨laneWord_answers h rfl rfl, laneWord_answers h rfl rfl, laneWord_answers h rfl (by dsimp only; rw [hop, hrel]),
    laneWord_answers h rfl rfl, laneWord_answers h rfl rfl, laneWord_answers h rfl rfl, laneWord_answers h rfl rfl, fun hd =>
    ⟨pendscan_lanes h hd, fun hqueues _ => pendscan_takes h hd hqueues, fun hqueues hgo hnil => pendscan_none h hd hqueues hnil hgo,
      fun hqueues hwait hnew hnil => pendscan_sleeps h hd hqueues hnil hwait hnew⟩⟩

end Sys2Proof.CompositorQueues
end

section
/-!
PROOFS. The compositor's transitions: doorbells (R271), completions (R263, R268), the wake of `pendscan` (R283), the periodic check of
signals (R274) and the switch of code banks (R280).
-/
namespace Sys2Proof.CompositorTransitions
open Sys2Proof.Machine

/-! ## KICK -/

/-- The machine once a doorbell has kept the larger value. -/
def doorbellKept (s : State) (n : Nat) (x : BitVec 64) : State :=
  { s with doorbells := Store.putD 0 s.doorbells n (if s.doorbell n < x.toNat then x else BitVec.ofNat 64 (s.doorbell n)) }

/-- The larger of a doorbell's value and a word, as a word. -/
theorem ofNat_max_toNat (d : Nat) (x : BitVec 64) :
    BitVec.ofNat 64 (max d x.toNat) = if d < x.toNat then x else BitVec.ofNat 64 d := by
  split
  case isTrue hlt => rw [max_eq_right hlt.le, BitVec.ofNat_toNat, BitVec.setWidth_eq]
  case isFalse hge => rw [max_eq_left (not_lt.mp hge)]

/-- A kick of a queue that takes kicks reaches its slot, or its pending bit. -/
theorem kick_reaches {s : State} {n : Nat} {q : Queue} (x : BitVec 64) (hn : n < 4096) (hready : s.ready = true)
    (hq : s.queue? n = some q) (hstate : q.state = .mapped ∨ q.state = .unmapped)
    (hd : ∀ d ∈ s.dbgDomains, d.firmware = false) :
    exec (.kick n x) s = .next ((if q.slot.isSome && q.armed
      then (doorbellKept s n x).setQueue { q with wridx := (doorbellKept s n x).doorbell n }
      else doorbellKept s n x).wakeQueue q) := by
  have hopen : ¬ (decide (4096 ≤ n) || s.host.startStat.toNat % 16 != 1) = true := by
    simpa [State.ready, hn] using hready
  have hlive : ¬ (q.state == .teardown || q.state == .dead) = true := by
    rcases hstate with hst | hst <;> rw [hst] <;> decide
  have hq' : (doorbellKept s n x).queue? n = some q := hq
  have hrec : (doorbellKept s n x).compRec 0 x.toNat n (q.slot.getD 0 % 32) = doorbellKept s n x :=
    CompositorQueues.compRec_of_noFirmware (s := doorbellKept s n x) hd _ _ _ _
  refine congrArg Host.Outcome.next ((if_neg hopen).trans ?_)
  simp only [ofNat_max_toNat]
  rw [← doorbellKept, hq']
  dsimp only
  rw [hrec]
  exact if_neg hlive

/-! ## PACKET_COMPLETE -/

/-- The machine without a grid that has completed. -/
def gridGone (s : State) (uid : Nat) : State :=
  { s with grids := s.grids.filter (fun x => x.uid != uid), roots := s.roots.filter (fun r => r.grid != uid) }

/-- A dispatched LAUNCH whose grid has ended completes, and the grid is gone. -/
theorem packetComplete_launch {s t : State} {n idx : Nat} {q r : Queue} {p : Pkt} {gr : Grid} (hq : s.queue? n = some q)
    (hp : q.pkt? idx = some p) (hopen : p.done = false) (hdisp : p.dispatched = true) (hty : p.ty = 1)
    (hgr : p.grid.bind s.grid? = some gr) (hlive : gr.doomed = false) (hdone : s.gridDone gr = true)
    (ht : s.completePacket q p gr.aborted gr.record? = .ok t) (hr : t.queue? q.qnum = some r) :
    exec (.packetComplete n idx) s = .next (gridGone (t.wakeQueue r) gr.uid) := by
  have hlaunch : s.completeLaunch q p = gridGone (t.wakeQueue r) gr.uid := by
    unfold State.completeLaunch State.afterPacket gridGone
    simp only [hgr, hlive, hdone, ht, hr, Bool.not_true, Bool.or_false, Bool.false_eq_true, if_false]
  refine congrArg Host.Outcome.next ?_
  simp only [hq, hp, hopen, hdisp, hty, hlaunch, Bool.not_true, Bool.or_false, Bool.false_eq_true, if_false, if_true]

/-! ## PENDSCAN_WAKE -/

/-- A pending queue wakes the groups that sleep in `pendscan`. -/
theorem pendscanWake_wakes {s : State} (comp : Nat) (hpending : s.pending ≠ []) :
    exec (.pendscanWake comp) s = .next { s with gangs := s.gangs.map (fun g =>
      if g.place == .compositor (256 + comp % 2) then { g with groups := g.groups.map (fun r => if r.status == .sleepScan then
        { r with status := .ready, readyAt := none, run := r.run.map (fun u => { u with collected := true }) } else r) } else g) } :=
  congrArg Host.Outcome.next (if_neg (by simp [hpending]))

/-! ## SIGNAL_RECHECK -/

/-- The periodic check of a compositor that has one queue to look at. -/
theorem signalRecheck_single {s : State} {comp : Nat} {q : Queue}
    (hone : s.queues.filter (fun q => match q.slot with
      | some k => slotCore k == comp % 2
      | none => true) = [q]) (hq : s.queue? q.qnum = some q) :
    exec (.signalRecheck comp) s = .next (s.recheckQueue q) := by
  refine congrArg Host.Outcome.next ((congrArg (List.foldl _ s) hone).trans ?_)
  rw [List.foldl_cons, List.foldl_nil, hq]

/-! ## BANK_SWITCH -/

/-- A bank that is to switch does, once the gang sleeps and every lane of the core is between packets. -/
theorem bankSwitch_switches {s : State} {comp : Nat} (hswitch : (s.bankOf (256 + comp % 2)).switching = true)
    (hasleep : ∃ g ∈ s.gangs, g.place = .compositor (256 + comp % 2) ∧ g.liveGroups ≠ [] ∧
      ∀ r ∈ g.liveGroups, r.status = .sleepScan)
    (hclear : ∀ q ∈ s.queues, ∀ k, q.slot = some k → slotCore k = comp % 2 →
      ∀ p ∈ q.window, p.started = true ∨ p.done = true) :
    exec (.bankSwitch comp) s = .next ((s.setBank (256 + comp % 2) { s.bankOf (256 + comp % 2) with
      activeB := !(s.bankOf (256 + comp % 2)).activeB, switching := false, stopped := false }).startBank (256 + comp % 2)) := by
  have hgang : s.gangs.any (fun g => g.place == .compositor (256 + comp % 2) && !g.liveGroups.isEmpty &&
      g.liveGroups.all (fun r => r.status == .sleepScan)) = true := by
    obtain ⟨g, hg, hplace, hlive, hscan⟩ := hasleep
    exact List.any_eq_true.mpr ⟨g, hg, by simpa [hplace, hlive] using hscan⟩
  have hlane : ∀ q ∈ s.queues, (match q.slot with
      | some k => slotCore k != comp % 2 || q.between
      | none => true) = true := by
    intro q hq
    cases hslot : q.slot with
    | none => rfl
    | some k =>
      by_cases hcore : slotCore k = comp % 2
      · simpa [hcore, Queue.between] using hclear q hq k hslot hcore
      · simp [hcore]
  refine congrArg Host.Outcome.next (if_pos ?_)
  rw [Bool.and_eq_true, Bool.and_eq_true]
  exact ⟨⟨hswitch, hgang⟩, List.all_eq_true.mpr hlane⟩

/-- Settles O52: each transition where it is enabled, with its own effect. -/
theorem compositorTransitions : Obligations.CompositorTransitions := by
  unfold Obligations.CompositorTransitions
  intro s
  refine ⟨fun n x q hn hready hq hstate hd => kick_reaches x hn hready hq hstate hd,
    fun n idx q p gr hq hp hopen hdisp hty hgr hlive hdone t ht r hr =>
      packetComplete_launch hq hp hopen hdisp hty hgr hlive hdone ht hr,
    fun comp hpending => pendscanWake_wakes comp hpending,
    fun comp q hone hq => signalRecheck_single hone hq, ?_⟩
  rintro comp b rfl hswitch hasleep hclear
  exact bankSwitch_switches hswitch hasleep hclear

end Sys2Proof.CompositorTransitions
end

section
/-!
PROOFS. What teardown, the domain table and START_CLEAR do (R279, R318, R322, R324, R334); the start record comes back from its copy.
-/
namespace Sys2Proof.CommandEffects
open Sys2Proof.Machine

/-! ## Little-endian bytes -/

@[simp] theorem length_leBytes (n x : Nat) : (leBytes n x).length = n := by simp [leBytes]

theorem leBytes_succ (n x : Nat) : leBytes (n + 1) x = BitVec.ofNat 8 x :: leBytes n (x / 256) := by
  simp [leBytes, List.range_succ_eq_map, Nat.pow_succ', Nat.div_div_eq_div_mul]

theorem bytesVal_append (l m : List Byte) : bytesVal (l ++ m) = bytesVal l + 256 ^ l.length * bytesVal m := by
  induction l with
  | nil => simp [bytesVal]
  | cons b l ih => simp only [List.cons_append, bytesVal, ih, List.length_cons, Nat.pow_succ']; ring

theorem bytesVal_lt (l : List Byte) : bytesVal l < 256 ^ l.length := by
  induction l with
  | nil => simp [bytesVal]
  | cons b l ih =>
    have hb := b.isLt
    simp only [bytesVal, List.length_cons, Nat.pow_succ']
    omega

/-- Bytes are read back as the value they were cut from. -/
theorem bytesVal_leBytes (n x : Nat) : bytesVal (leBytes n x) = x % 256 ^ n := by
  induction n generalizing x with
  | zero => simp [leBytes, bytesVal, Nat.mod_one]
  | succ n ih => rw [leBytes_succ, bytesVal, ih, BitVec.toNat_ofNat, Nat.pow_succ' (n := n), Nat.mod_mul]

/-- Bytes fit the word of their length. -/
theorem toNat_ofNat_bytesVal (l : List Byte) {w : Nat} (hw : 8 * l.length = w) : (BitVec.ofNat w (bytesVal l)).toNat = bytesVal l := by
  subst hw
  have hlt := bytesVal_lt l
  rw [show (256 : Nat) = 2 ^ 8 from rfl, ← Nat.pow_mul] at hlt
  rw [BitVec.toNat_ofNat, Nat.mod_eq_of_lt hlt]

/-- A value is cut into the bytes it was read from. -/
theorem leBytes_bytesVal (l : List Byte) : leBytes l.length (bytesVal l) = l := by
  induction l with
  | nil => rfl
  | cons b l ih =>
    have hhead : BitVec.ofNat 8 (bytesVal (b :: l)) = b := by
      refine BitVec.eq_of_toNat_eq ?_
      have hb := b.isLt
      rw [BitVec.toNat_ofNat, bytesVal]
      omega
    have htail : bytesVal (b :: l) / 256 = bytesVal l := by
      have hb := b.isLt
      rw [bytesVal]
      omega
    rw [List.length_cons, leBytes_succ, hhead, htail, ih]

/-- A field fits its bytes. -/
theorem fieldOf_lt (l : List Byte) (off n : Nat) : fieldOf l off n < 256 ^ n :=
  (bytesVal_lt _).trans_le (Nat.pow_le_pow_right (by decide) (List.length_take_le n _))

/-- The field that leads a list. -/
theorem fieldOf_head {n x : Nat} (l : List Byte) (h : x < 256 ^ n) : fieldOf (leBytes n x ++ l) 0 n = x := by
  rw [fieldOf, List.drop_zero, List.take_left' (length_leBytes n x), bytesVal_leBytes, Nat.mod_eq_of_lt h]

/-- A field behind another one. -/
theorem fieldOf_tail (m x : Nat) (l : List Byte) {off : Nat} (h : m ≤ off) (n : Nat) :
    fieldOf (leBytes m x ++ l) off n = fieldOf l (off - m) n := by
  rw [fieldOf, fieldOf, List.drop_append, length_leBytes, List.drop_eq_nil_of_le (by simpa using h), List.nil_append]

/-! ## CRC-64/ECMA -/

/-- One bit of the check: a shift, and the polynomial where a one falls out. -/
theorem crcStep_lt {c : Nat} (hc : c < 2 ^ 64) : (if bit c 63 then 2 * c % 2 ^ 64 ^^^ 0x42F0E1EBA9EA3693 else 2 * c) < 2 ^ 64 := by
  split
  case isTrue => exact Nat.xor_lt_two_pow (Nat.mod_lt _ (by decide)) (by decide)
  case isFalse hbit =>
    simp only [bit, beq_iff_eq] at hbit
    omega

theorem crc64_lt (l : List Byte) : crc64 l < 2 ^ 64 := by
  refine List.foldlRecOn (motive := (· < 2 ^ 64)) l _ (by decide) fun c hc x _ => ?_
  refine List.foldlRecOn (motive := (· < 2 ^ 64)) (List.range 8) _ ?_ fun d hd _ _ => crcStep_lt hd
  have hx := x.isLt
  exact Nat.xor_lt_two_pow hc (by omega)

/-! ## The start record (R334) -/

/-- The fields of the record fit their bytes. -/
def StartRecFits (r : StartRec) : Prop := r.gen < 2 ^ 32 ∧ r.step < 2 ^ 8 ∧ r.outcome < 2 ^ 8

/-- The bytes of a record that its check covers. -/
def recordBytes (r : StartRec) : List Byte :=
  leBytes 4 r.gen ++ leBytes 1 r.step ++ leBytes 1 r.outcome ++ leBytes 2 0 ++ leBytes 8 r.fails.toNat ++ leBytes 4 r.alt.toNat ++
    leBytes 4 r.skip.toNat ++ leBytes 32 0

theorem length_recordBytes (r : StartRec) : (recordBytes r).length = 56 := by simp [recordBytes]

/-- A copy holds those bytes and their check. -/
theorem bytes_copy (r : StartRec) : leBytes 64 r.copy.toNat = recordBytes r ++ leBytes 8 (crc64 (recordBytes r)) := by
  have hlen : (recordBytes r ++ leBytes 8 (crc64 (recordBytes r))).length = 64 := by simp [length_recordBytes]
  have hval : r.copy.toNat = bytesVal (recordBytes r ++ leBytes 8 (crc64 (recordBytes r))) :=
    toNat_ofNat_bytesVal (recordBytes r ++ leBytes 8 (crc64 (recordBytes r))) (by rw [hlen])
  rw [hval, ← hlen, leBytes_bytesVal]

/-- A record comes back from its copy. -/
theorem parseStart_copy {r : StartRec} (h : StartRecFits r) : parseStart r.copy = some r := by
  obtain ⟨hgen, hstep, hout⟩ := h
  have hcheck : fieldOf (recordBytes r ++ leBytes 8 (crc64 (recordBytes r))) 56 8 = crc64 (recordBytes r) := by
    rw [fieldOf, List.drop_left' (length_recordBytes r), List.take_of_length_le (by simp), bytesVal_leBytes]
    exact Nat.mod_eq_of_lt (crc64_lt _)
  unfold parseStart
  dsimp only
  rw [bytes_copy, List.take_left' (length_recordBytes r), if_pos hcheck]
  have hfails := r.fails.isLt
  have halt := r.alt.isLt
  have hskip := r.skip.isLt
  simp (disch := omega) only [recordBytes, List.append_assoc, fieldOf_tail, fieldOf_head, Nat.reduceSub, BitVec.ofNat_toNat,
    BitVec.setWidth_eq]

/-- What is read from a copy fits. -/
theorem fits_of_parseStart {x : BitVec 512} {r : StartRec} (h : parseStart x = some r) : StartRecFits r := by
  unfold parseStart at h
  dsimp only at h
  split at h
  · obtain rfl := Option.some.inj h
    exact ⟨fieldOf_lt _ 0 4, fieldOf_lt _ 4 1, fieldOf_lt _ 5 1⟩
  · cases h

theorem record_fits (f : Flash) : StartRecFits f.record := by
  unfold Flash.record
  split
  case h_1 a b h0 h1 =>
    split
    · exact fits_of_parseStart h1
    · exact fits_of_parseStart h0
  case h_2 h0 _ => exact fits_of_parseStart h0
  case h_3 h1 => exact fits_of_parseStart h1
  case h_4 => exact ⟨by decide, by decide, by decide⟩

/-- Neither copy is newer than the record in use. -/
theorem gen_le_record {f : Flash} {r : StartRec} (h : parseStart f.rec0 = some r ∨ parseStart f.rec1 = some r) :
    r.gen ≤ f.record.gen := by
  unfold Flash.record
  rcases h with h0 | h1
  case inl =>
    rw [h0]
    cases parseStart f.rec1 with
    | none => exact le_rfl
    | some b => dsimp only; split <;> omega
  case inr =>
    rw [h1]
    cases parseStart f.rec0 with
    | none => exact le_rfl
    | some a => dsimp only; split <;> omega

/-- A newer copy is the record in use. -/
theorem record_of_newer0 {f : Flash} {a : StartRec} (h0 : parseStart f.rec0 = some a)
    (hnewer : ∀ b, parseStart f.rec1 = some b → b.gen < a.gen) : f.record = a := by
  unfold Flash.record
  rw [h0]
  cases h1 : parseStart f.rec1 with
  | none => rfl
  | some b => exact if_neg (hnewer b h1).not_gt

theorem record_of_newer1 {f : Flash} {b : StartRec} (h1 : parseStart f.rec1 = some b)
    (hnewer : ∀ a, parseStart f.rec0 = some a → a.gen < b.gen) : f.record = b := by
  unfold Flash.record
  rw [h1]
  cases h0 : parseStart f.rec0 with
  | none => rfl
  | some a => exact if_pos (hnewer a h0)

/-- The record in use after a write is the one written, where GEN can still grow. -/
theorem writeRecord_record {f : Flash} {r : StartRec} (hgen : f.record.gen + 1 < 2 ^ 32) (hstep : r.step < 2 ^ 8)
    (hout : r.outcome < 2 ^ 8) :
    (f.writeRecord r).record = { r with gen := f.record.gen + 1 } := by
  have hnew : parseStart ({ r with gen := f.record.gen + 1 } : StartRec).copy = some { r with gen := f.record.gen + 1 } :=
    parseStart_copy ⟨hgen, hstep, hout⟩
  rw [Flash.writeRecord_only]
  split
  · exact record_of_newer0 hnew fun b hb => Nat.lt_succ_of_le (gen_le_record (.inr hb))
  · exact record_of_newer1 hnew fun a ha => Nat.lt_succ_of_le (gen_le_record (.inl ha))

/-- START_CLEAR writes the record in use with no failure, alternative or skip. -/
theorem record_startClear {f : Flash} {r : StartRec} (hr : f.record = r) (hgen : r.gen + 1 < 2 ^ 32) :
    (f.writeRecord { r with fails := 0, alt := 0, skip := 0 }).record = { r with gen := r.gen + 1, fails := 0, alt := 0, skip := 0 } := by
  obtain ⟨_, hstep, hout⟩ := hr ▸ record_fits f
  have hwritten := writeRecord_record (f := f) (r := { r with fails := 0, alt := 0, skip := 0 }) (hr ▸ hgen) hstep hout
  rwa [hr] at hwritten

/-- START_CLEAR finishes with OK and writes the flash alone. -/
theorem startClear_writes (s : State) {r : StartRec} (hr : s.flash.record = r) :
    ∃ t, State.cmdStartClear s = .fin 0 t ∧ t.host = s.host ∧ t.mem = s.mem ∧
      (r.gen + 1 < 2 ^ 32 → t.flash.record = { r with gen := r.gen + 1, fails := 0, alt := 0, skip := 0 }) := by
  refine ⟨{ s with flash := s.flash.writeRecord { r with fails := 0, alt := 0, skip := 0 } }, ?_, rfl, rfl, ?_⟩
  · rw [← hr]
    rfl
  · intro hgen
    dsimp only
    exact record_startClear hr hgen

/-! ## TEARDOWN_PASID (R279, R318) -/

/-- Parking writes the gangs alone. -/
theorem parkWaiters_only (s : State) (l : List (Nat × Nat)) : s.parkWaiters l = { s with gangs := (s.parkWaiters l).gangs } := by
  refine List.foldlRecOn (motive := fun (t : State) => t = { s with gangs := t.gangs }) l _ rfl fun t ht e _ => ?_
  unfold State.updGang
  split
  · rw [ht]; rfl
  · exact ht

/-- Sending changes no request's PASID. -/
theorem map_pasid_sendAts (n : Nat) (l : List Ats) : (sendAts n l).map (fun a => a.pasid) = l.map (fun a => a.pasid) := by
  induction n, l using sendAts.induct with
  | case1 l => rw [sendAts]
  | case2 n hn => rw [sendAts]; exact hn
  | case3 n a l hsent ih => rw [sendAts, if_pos hsent, List.map_cons, List.map_cons, ih]
  | case4 n a l hsent ih => rw [sendAts, if_neg hsent, List.map_cons, List.map_cons, ih]

/-- No request of a torn down PASID is left. -/
theorem pasid_ne_of_discardAts {s : State} {pasid : Nat} {a : Ats} (h : a ∈ (s.discardAts pasid).ats) : a.pasid ≠ pasid := by
  have hmem := List.mem_map_of_mem (f := fun a : Ats => a.pasid) h
  rw [State.discardAts, map_pasid_sendAts] at hmem
  obtain ⟨b, hb, hpasid⟩ := List.mem_map.mp hmem
  rw [← hpasid]
  simpa using (List.mem_filter.mp hb).2

section
variable (s : State) (pasid : Nat)

/-- Every queue of a PASID torn down is in TEARDOWN, or was dead. -/
theorem tearDown_queues {q : Queue} (hq : q ∈ (s.tearDown pasid).queues) (hp : q.pasid = pasid) :
    q.state = .teardown ∨ q.state = .dead := by
  obtain ⟨x, _, rfl⟩ := List.mem_map.mp hq
  by_cases hx : (x.pasid == pasid && x.state != .dead) = true
  · exact .inl (by rw [if_pos hx])
  · rw [if_neg hx] at hp ⊢
    simp only [Bool.and_eq_true, beq_iff_eq, bne_iff_ne, not_and, not_not] at hx
    exact .inr (hx hp)

/-- Without a group that waits for a translation no gang changes. -/
theorem tearDown_gangs (h : ∀ g ∈ s.gangs, ∀ r ∈ g.groups, r.status ≠ .waitAts) : (s.tearDown pasid).gangs = s.gangs := by
  unfold State.tearDown
  rw [List.flatMap_eq_nil_iff.mpr fun g hg => ?_]
  · rfl
  split
  · rfl
  · rw [List.map_eq_nil_iff, List.filter_eq_nil_iff]
    intro r hr
    simp [h g hg r hr]

theorem tearDown_host : (s.tearDown pasid).host = s.host := by
  unfold State.tearDown State.discardAts
  rw [parkWaiters_only]

theorem tearDown_mem : (s.tearDown pasid).mem = s.mem := by
  unfold State.tearDown State.discardAts
  rw [parkWaiters_only]
end

/-- Settles O55: teardown by its parts, the domain table and START_CLEAR by their records, and a record by its copy. -/
theorem commandEffects : Obligations.CommandEffects := by
  unfold Obligations.CommandEffects
  intro s arg b
  refine ⟨fun hb hpasid => ?_, fun hb hfeature d hd => ?_, startClear_writes s rfl,
    fun r hgen hstep hout => parseStart_copy ⟨hgen, hstep, hout⟩⟩
  · refine ⟨(s.tearDown (fieldOf b 0 4)).stopMark (fieldOf b 0 4), ?_, fun q hq hp => tearDown_queues s _ hq hp,
      congrArg (fun h : HostLink => h.stopMarkers ++ [fieldOf b 0 4]) (tearDown_host s _), fun a ha => pasid_ne_of_discardAts ha,
      fun hgroups => tearDown_gangs s _ hgroups, tearDown_mem s _⟩
    rw [State.cmdTeardown, hb]
    exact if_pos (decide_eq_true hpasid)
  · rw [State.cmdDomainSet, hb]
    dsimp only
    rw [hfeature, hd]
    rfl

end Sys2Proof.CommandEffects
end

section
/-!
PROOFS. The debug words (R297 to R300, R305, R307 to R309): why `trctl` with MARK can wait where it names no guest.
-/
namespace Sys2Proof.DebugWords
open Sys2Proof.Machine

/-! ## MARK behind an overfull buffer (R298, R309) -/

/-- A debug word with its right waits where its body does. -/
theorem debugForm_stay {s : State} {c : Ctx} (h : Issues s c false false) {core k : Nat} {p : Proof}
    {body : Ctx → Nat → Proof → State → Res} (hplace : c.gang.place = .handler core) (hp : s.proof? core = some p)
    (hright : (s.kernelRights p.domain).getLsbD k = true) (hbody : body c core p s = .stay) : debugForm (some k) body s = s := by
  unfold debugForm
  refine issueWord_stay h ?_
  dsimp only
  rw [hplace]
  dsimp only
  rw [hp]
  exact (if_pos hright).trans hbody

/-- A mask without a bit for a guest slot names no guest. -/
theorem guestSlots_of_low_zero {m : Nat} (hm : m % 16 = 0) : (List.range 4).filter (fun k => bit m k) = [] := by
  refine List.filter_eq_nil_iff.mpr fun k hk => ?_
  rw [List.mem_range] at hk
  simp only [bit, beq_iff_eq]
  interval_cases k <;> omega

/-- Records that wait behind a full trace buffer hold MARK back even where it writes none. -/
theorem trctl_mark_stays {s : State} {c : Ctx} {f : FmtQ} (h : Issues s c false false) {core : Nat} {p : Proof}
    (hplace : c.gang.place = .handler core) (hp : s.proof? core = some p) (hright : (s.kernelRights p.domain).getLsbD 1 = true)
    (hnone : c.gang.scalar32 s.now f.a % 16 = 0) (hmark : f.sel.toNat = 3) (hfull : traceRoom < p.trace.length) :
    exec (.trctl f) s = .next s := by
  have hshort : s.traceShort core 0 = true := by simp [State.traceShort, hp, hfull]
  refine congrArg Host.Outcome.next (debugForm_stay h hplace hp hright ?_)
  dsimp only
  rw [guestSlots_of_low_zero hnone]
  simp [hmark, hshort]

/-! ## The counterexample -/

/-- `trctl` with MARK and a mask of no guest. -/
def mark : FmtQ := ⟨.v 0, .imm 0, .v 0, .v 0, 3⟩

/-- A handler at that word on proof core 40, with every right, and a list of records in the core's trace. -/
def handlerWith (trace : List TraceRec) : State :=
  let s := State.reset.withWord { plainHeader with cls := .debug } (encQ 0x006 mark)
  { s with
    cur := some (wordUid, 0)
    proofs := s.proofs.map (fun p => if p.key = 40 then { p with trace := trace } else p)
    dbgDomains := [⟨false, 1, 0xF, 0x20000, 0, 0x1000, 0, 0, false⟩] }

def handlerProof (trace : List TraceRec) : Proof := { Proof.reset 40 with handler := some wordUid, domain := 1, trace := trace }

theorem proof?_handlerWith (trace : List TraceRec) : (handlerWith trace).proof? 40 = some (handlerProof trace) := rfl

theorem kernelRights_handlerWith (trace : List TraceRec) :
    ((handlerWith trace).kernelRights (handlerProof trace).domain).getLsbD 1 = true := by
  simp [State.kernelRights, State.kernelDomain, handlerWith, handlerProof]

/-- The word is the handler's last: behind it the group has left its clause. -/
theorem ctx?_handlerWith (trace : List TraceRec) : ∃ c, (handlerWith trace).ctx? = some c ∧ c.skipped false = false ∧
    c.gang.place = .handler 40 ∧ ((handlerWith trace).advance c.uid c.slice).ctx? = none :=
  ⟨_, rfl, rfl, rfl, rfl⟩

/-- Refutes O44: `trctl` with MARK that names no guest (SEL 3, mask 0) waits while more records stand in the trace than its buffer
holds, as a fault of the handler can leave them (R296), and does not complete. -/
theorem not_debugWords : ¬ Obligations.DebugWords := by
  unfold Obligations.DebugWords
  intro hall
  obtain ⟨trace, hfull⟩ : ∃ trace : List TraceRec, traceRoom < trace.length :=
    ⟨List.replicate (traceRoom + 1) default, by rw [List.length_replicate]; exact Nat.lt_succ_self _⟩
  obtain ⟨c, hctx, hskip, hplace, hbehind⟩ := ctx?_handlerWith trace
  have hissues : Issues (handlerWith trace) c false false := ⟨hctx, hskip, fun h => nomatch h⟩
  have hstays : exec (.trctl mark) (handlerWith trace) = .next (handlerWith trace) :=
    trctl_mark_stays hissues hplace (proof?_handlerWith trace) (kernelRights_handlerWith trace) rfl rfl hfull
  obtain ⟨_, _, _, _, _, _, htrctl, _⟩ := (hall (handlerWith trace) c mark hissues).1 40 _ hplace (proof?_handlerWith trace)
  have hpasses : exec (.trctl mark) (handlerWith trace) = .next ((handlerWith trace).advance c.uid c.slice) :=
    (htrctl (kernelRights_handlerWith trace)).1 rfl
  have hsame : handlerWith trace = (handlerWith trace).advance c.uid c.slice := Host.Outcome.next.inj (hstays.symm.trans hpasses)
  rw [hsame, hbehind] at hctx
  cases hctx

end Sys2Proof.DebugWords
end

section
/-!
PROOFS. The proof cores' transitions (R288, R290 to R296, R298, R299, R305, R306): pull and return, messages, the debug handler, the
trace, revocation, triggers, and the end of an unlock by the status of its token.
-/
namespace Sys2Proof.ProofCores
open Sys2Proof.Machine

/-! ## PULL (R290) -/

section
variable {s : State} {uid : Nat} {g : Gang} {q : PullReq} (hg : s.gang? uid = some g) (hpull : g.pull = some q) (hlive : g.live ≠ 0)
  (htrap : g.trap = none) (hholds : s.holdsCore g = true) (hpre : s.preempting g = false)
  (hdet : g.det s = true → g.betweenClauses = true)
include htrap hholds hpre hdet

/-- Nothing keeps the gang where it stands. -/
theorem freezes : (g.trap.isSome || !s.holdsCore g || s.preempting g || (g.det s && !g.betweenClauses)) = false := by
  cases h : g.det s with
  | false => simp [htrap, hholds, hpre]
  | true => simp [htrap, hholds, hpre, hdet h]

include hg hpull hlive

theorem pull_withoutRoom (hplace : q.place = none) (hroom : s.guestPlace (dieOf g.home.1) q.core g = none) :
    exec (.pull uid) s = .next ((s.reportTrigger q.at0 q.trig 2).setGang { g with pull := none }) := by
  show execPull uid s = _
  simp only [execPull, hg, hpull, hlive, freezes htrap hholds hpre hdet, hplace, hroom, Bool.false_eq_true, if_false]

theorem pull_keepsPlace {x : Nat × Nat × Nat} (hplace : q.place = none) (hroom : s.guestPlace (dieOf g.home.1) q.core g = some x) :
    exec (.pull uid) s = .next (s.setGang { g with pull := some { q with place := some x } }) := by
  show execPull uid s = _
  simp only [execPull, hg, hpull, hlive, freezes htrap hholds hpre hdet, hplace, hroom, Bool.false_eq_true, if_false]

theorem pull_moves {core gslot part : Nat} (hplace : q.place = some (core, gslot, part)) (hdrained : s.drained g = true)
    (hroom : s.slotWaits core gslot = false) (herrs : g.errs = []) : exec (.pull uid) s = .next (s.movePulled g q core gslot part) := by
  show execPull uid s = _
  simp only [execPull, hg, hpull, hlive, freezes htrap hholds hpre hdet, hplace, hdrained, hroom, herrs, Bool.not_true, Bool.or_self,
    List.isEmpty_nil, Bool.false_eq_true, if_false]
end

/-! ## GUEST_RETURN (R291): edits leave the errors of a guest -/

theorem takePending_errs (g : Gang) (a : Option (Nat × Nat)) : (g.takePending a).errs = g.errs := by
  cases a <;> rfl

theorem leaveClause_errs (g : Gang) (r r' : Group) : (g.leaveClause r r').errs = g.errs :=
  takePending_errs g _

theorem editPc_errs (g : Gang) (slice : Nat) (high : Bool) (x : W32) : (g.editPc slice high x).errs = g.errs := by
  unfold Gang.editPc
  cases g.group? slice with
  | none => rfl
  | some r => exact (leaveClause_errs _ r _).trans (takePending_errs g _)

theorem applyEdit_errs (g : Gang) (e : W32 × W32) : (g.applyEdit e).errs = g.errs := by
  unfold Gang.applyEdit
  split
  · rfl
  · split
    · exact Gang.wrV_errs ..
    · exact Gang.wrS_errs ..
    · dsimp only
      split <;> rfl
    · split
      case h_3 => split <;> rfl
      case h_4 => split <;> rfl
      case h_5 => split <;> rfl
      all_goals rfl
    · exact editPc_errs ..
    · rfl

theorem applyShadow_errs (g : Gang) : g.applyShadow.errs = g.errs := by
  unfold Gang.applyShadow
  cases g.guest with
  | none => rfl
  | some q =>
    exact List.foldlRecOn (motive := fun h : Gang => h.errs = g.errs) q.edits _ rfl fun h hh e _ => (applyEdit_errs h e).trans hh

section
variable {s : State} {uid : Nat} {g : Gang} {q : Guest} (hg : s.gang? uid = some g) (hq : g.guest = some q) (hreq : q.retReq = true)
  (hstands : (if g.det s then g.betweenClauses else g.groups.all (s.groupHalted g)) = true)
include hg hq hreq hstands

theorem guestReturn_goesHome {t : State} (ht : t = s.setGang g.applyShadow) (hdrained : t.drained g.applyShadow = true)
    (hroom : t.recordWaits g.applyShadow = false) (herrs : g.errs = []) : exec (.guestReturn uid) s = .next (t.sendHome g.applyShadow) := by
  subst ht
  show execGuestReturn uid s = _
  simp only [execGuestReturn, hg, hq, hreq, hstands, hdrained, hroom, applyShadow_errs, herrs, Bool.not_true, Bool.or_self,
    List.isEmpty_nil, Bool.false_eq_true, if_false]

theorem guestReturn_drains {t : State} (ht : t = s.setGang g.applyShadow) (hdrained : t.drained g.applyShadow = false) :
    exec (.guestReturn uid) s = .next t := by
  subst ht
  show execGuestReturn uid s = _
  simp only [execGuestReturn, hg, hq, hreq, hstands, hdrained, Bool.not_true, Bool.not_false, Bool.or_self, Bool.true_or,
    Bool.false_eq_true, if_false, if_true]
end

/-! ## Messages (R292, R294) -/

section
variable {s : State} {uid : Nat} {g : Gang} (hg : s.gang? uid = some g)
include hg

theorem arrivalMessage_arrives {a : Nat × Slices × W64} {rest : List (Nat × Slices × W64)} (harr : g.arriving = a :: rest) :
    exec (.arrivalMessage uid) s = .next ((s.setGang { g with arriving := rest }).arrive uid a.1 a.2.1) := by
  show execArrivalMessage uid s = _
  simp only [execArrivalMessage, hg, harr]

theorem releaseMessage_wakes (hguest : g.isGuest = true) : exec (.releaseMessage uid) s = .next (s.wakeGuest g) := by
  show execReleaseMessage uid s = _
  simp only [execReleaseMessage, hg, hguest, if_true]

theorem clauseCountMessage_tells {guest : Nat} {p : Gang} (hp : s.gang? guest = some p) (hguest : p.isGuest = true)
    (hblock : p.block = g.block) :
    exec (.clauseCountMessage guest uid) s = .next (s.setGang { g with known := Store.put g.known guest p.clauseCount }) := by
  show execClauseCountMessage guest uid s = _
  simp only [execClauseCountMessage, State.updGang, hg, hp, hguest, hblock, beq_self_eq_true, Bool.and_self, if_true]
end

/-! ## The debug handler, the trace and the debug registers -/

/-- The oldest event enters the handler of its domain (R296). -/
theorem debugHandlerEntry_enters {s : State} {core : Nat} {p : Proof} {e : DbgEvent} {rest : List DbgEvent} {d : DbgDomain} {g : Gang}
    (hp : s.proof? core = some p) (hfree : p.current = none) (hevents : p.events = e :: rest) {t : State}
    (ht : t = s.setProof { p with events := rest }) (hd : t.kernelDomain (s.eventDomain e) = some d)
    (hg : t.handlerOf core (s.eventDomain e) = some g) :
    exec (.debugHandlerEntry core) s = .next ((t.setGang (g.enterHandler d.handler e.halt)).updProof
      core (fun p => { p with current := some e, handler := some g.uid, domain := s.eventDomain e })) := by
  rw [hfree] at ht
  show execDebugHandlerEntry core s = _
  simp only [execDebugHandlerEntry, hp, hfree, hevents, ← ht, hd, hg, Option.isSome_some, if_true]

/-- Without a domain that closes the drain is all (R299). -/
theorem traceDrain_drains {s : State} (core : Nat) (h : ∀ d ∈ s.dbgDomains, d.closing = false) :
    exec (.traceDrain core) s = .next (s.drainNow core) := by
  have hnone : s.dbgDomains.filter (fun d => d.closing) = [] := List.filter_eq_nil_iff.mpr fun d hd => by simp [h d hd]
  show execTraceDrain core s = _
  rw [execTraceDrain, hnone, List.foldl_nil]

/-- The proof core in `DBGATTN` is its die and its place there (R316). -/
theorem dbgAttnWrite_adds {s : State} {w : W64} {d : DbgDomain} (hd : s.kernelDomain (w.toNat % 2 ^ 20) = some d) :
    ∃ e, exec (.dbgAttnWrite w) s = .next (s.addEvent (64 * (w.toNat / 2 ^ 22 % 4) + 40 + w.toNat / 2 ^ 20 % 4) e) ∧
      e.kind = 5 ∧ e.gang = w.toNat % 2 ^ 20 := by
  refine ⟨{ kind := 5, unit := 0, gslot := 0, gang := w.toNat % 2 ^ 20, pc := 0, addr := 0, halt := 0, val := 0, clock := 0 }, ?_,
    rfl, rfl⟩
  exact congrArg Host.Outcome.next (if_neg (by rw [hd]; exact Bool.false_ne_true))

/-- What a trigger holds after a write of one of its four registers (R288). -/
theorem trigger_write (t : Trigger) {reg : Nat} (h : reg < 4) (w : W64) : t.write reg w =
    if reg = 0 then { t with addr := w } else if reg = 1 then { t with val := w.extractLsb' 0 32 }
      else if reg = 2 then { t with ctl := (w &&& 0x1FFFFFFF3007) ||| (t.ctl &&& 0xC000 &&& ~~~ w) }
      else { t with gangs := w.extractLsb' 0 32 } := by
  have hlow : BitVec.ofNat 32 w.toNat = w.extractLsb' 0 32 := by simp [BitVec.extractLsb']
  interval_cases reg <;> simp [Trigger.write, ptctlRw, hlow]

/-- A debugger with the right of its PASID writes a trigger of a press core. -/
theorem triggerRegisterWrite_writes {s : State} {core trig reg : Nat} {c : Core} (w : W64) (hc : s.core? core = some c)
    (hpress : isPressCore core = true) (htrig : trig < 2) (hreg : reg < 4) (hfeature : s.feature 2 = true)
    (hright : (s.kernelRights c.trigPasid.toNat).getLsbD 0 = true) : exec (.triggerRegisterWrite core trig reg w) s =
      .next (s.setCore (if trig = 0 then { c with trig0 := c.trig0.write reg w } else { c with trig1 := c.trig1.write reg w })) := by
  show execTriggerRegisterWrite core trig reg w s = _
  simp [execTriggerRegisterWrite, hc, hpress, htrig, hreg, hfeature, hright]

/-! ## The end of an unlock (R305) -/

theorem kernelDomain_none {s : State} {pasid : Nat} (h : ∀ d ∈ s.dbgDomains, d.firmware = false → d.pasid ≠ pasid) :
    s.kernelDomain pasid = none :=
  List.find?_eq_none.mpr fun d hd => by
    cases hf : d.firmware with
    | true => simp
    | false => simp [h d hd hf]

theorem closingDomain_none {s : State} {pasid : Nat}
    (h : ∀ d ∈ s.dbgDomains, d.firmware = false → d.closing = false ∨ d.pasid ≠ pasid) : s.closingDomain pasid = none :=
  List.find?_eq_none.mpr fun d hd => by
    cases hf : d.firmware with
    | true => simp
    | false => rcases h d hd hf with hclosing | hpasid <;> simp [*]

/-- Nothing is revoked where nothing is unlocked. -/
theorem revokeKernel_none {s : State} {pasid : Nat} (h : ∀ d ∈ s.dbgDomains, d.firmware = false → d.pasid ≠ pasid) :
    s.revokeKernel pasid = s := by
  rw [State.revokeKernel, kernelDomain_none h]
  refine (if_pos rfl).trans ?_
  rw [State.settleRevoke, closingDomain_none fun d hd hf => .inr (h d hd hf)]
  exact ite_self s

theorem revokeFirmware_none {s : State} (h : ∀ d ∈ s.dbgDomains, d.firmware = false) : s.revokeFirmware = s := by
  rw [State.revokeFirmware, List.find?_eq_none.mpr fun d hd => by simp [h d hd]]

/-- A token takes effect at once where no domain of its PASID is still to be closed. -/
theorem takeToken_installs {s : State} {b : List Byte} (v : Verify)
    (h : ∀ d ∈ s.dbgDomains, d.firmware = false → d.closing = false ∨ d.pasid ≠ fieldOf b 4 4) :
    s.takeToken v b = State.reportVerify (State.installToken { s with unlockVerify := none } b) v 0 := by
  rw [State.takeToken, closingDomain_none h]
  exact if_neg (by simp)

theorem endUnlock_fails (s : State) (v : Verify) {st : Nat} (h : st ≠ 0) :
    s.endUnlock v st = State.reportVerify { s with unlockVerify := none } v st := if_neg h

theorem endUnlock_accepts (s : State) (v : Verify) :
    s.endUnlock v 0 = (s.acceptToken (s.hostBytes v.addr 64)).takeToken v (s.hostBytes v.addr 64) := by
  unfold State.endUnlock
  exact if_pos rfl

theorem acceptToken_kernel {s : State} {b : List Byte} (hkind : fieldOf b 1 1 = 0)
    (h : ∀ d ∈ s.dbgDomains, d.firmware = false → d.pasid ≠ fieldOf b 4 4) :
    s.acceptToken b = { s with flash := { s.flash with nonceKernel := BitVec.ofNat 64 (fieldOf b 8 8) } } := by
  simp only [State.acceptToken, hkind, Nat.reduceBEq, Bool.false_eq_true, if_false]
  exact revokeKernel_none h

theorem acceptToken_firmware {s : State} {b : List Byte} (hkind : fieldOf b 1 1 = 1) (h : ∀ d ∈ s.dbgDomains, d.firmware = false) :
    s.acceptToken b = { s with flash := { s.flash with nonceFirmware := BitVec.ofNat 64 (fieldOf b 8 8) } } := by
  simp only [State.acceptToken, hkind, beq_self_eq_true, if_true]
  exact revokeFirmware_none h

/-- The first kernel domain of a PASID. -/
theorem endUnlock_kernel {s : State} {v : Verify} {b : List Byte} (hb : b = s.hostBytes v.addr 64) (hkind : fieldOf b 1 1 = 0)
    (h : ∀ d ∈ s.dbgDomains, d.firmware = false → d.pasid ≠ fieldOf b 4 4) :
    s.endUnlock v 0 = State.reportVerify (State.installToken { s with
      unlockVerify := none, flash := { s.flash with nonceKernel := BitVec.ofNat 64 (fieldOf b 8 8) } } b) v 0 := by
  rw [endUnlock_accepts, ← hb, acceptToken_kernel hkind h]
  exact takeToken_installs v fun d hd hf => .inr (h d hd hf)

/-- The first firmware domain: a token of KIND 1 does not wait for a kernel domain. -/
theorem endUnlock_firmware {s : State} {v : Verify} {b : List Byte} (hb : b = s.hostBytes v.addr 64) (hkind : fieldOf b 1 1 = 1)
    (h : ∀ d ∈ s.dbgDomains, d.firmware = false) :
    s.endUnlock v 0 = State.reportVerify (State.installToken { s with
      unlockVerify := none, flash := { s.flash with nonceFirmware := BitVec.ofNat 64 (fieldOf b 8 8) } } b) v 0 := by
  rw [endUnlock_accepts, ← hb, acceptToken_firmware hkind h, State.takeToken, hkind]
  rfl

section
variable {s : State} {v : Verify} (hv : s.unlockVerify = some v) (unchanged : Bool)
include hv

theorem unlockVerifyDone_ends (htoken : v.token = none) : exec (.unlockVerifyDone unchanged) s =
    .next (s.endUnlock v (s.tokenStatus (s.hostBytes v.addr 64) (unchanged && s.tokenSigned v.addr))) := by
  show execUnlockVerifyDone unchanged s = _
  simp only [execUnlockVerifyDone, hv, htoken]

theorem unlockVerifyDone_takes {b : List Byte} (htoken : v.token = some b) :
    exec (.unlockVerifyDone unchanged) s = .next (s.takeToken v b) := by
  show execUnlockVerifyDone unchanged s = _
  simp only [execUnlockVerifyDone, hv, htoken]
end

/-! ## The status of a token -/

section
variable {s : State} {b : List Byte} {good : Bool}

theorem tokenStatus_bad (h : s.tokenBad b = true) : s.tokenStatus b good = 2 := if_pos h

section
variable (hform : s.tokenBad b = false)
include hform

theorem tokenStatus_unsigned (h : s.flash.keySlot (fieldOf b 2 1) = none ∨ good = false) : s.tokenStatus b good = 3 :=
  (if_neg (ne_true_of_eq_false hform)).trans (if_pos (by simpa using h))

/-- A signed firmware token is judged by its nonce alone. -/
theorem tokenStatus_firmware (hslot : s.flash.keySlot (fieldOf b 2 1) ≠ none) (hgood : good = true) (hkind : fieldOf b 1 1 = 1) :
    s.tokenStatus b good = if fieldOf b 8 8 ≤ s.flash.nonceFirmware.toNat then stRollback else stOk := by
  refine (if_neg (ne_true_of_eq_false hform)).trans ((if_neg (by simp [hslot, hgood])).trans ?_)
  simp only [hkind, beq_self_eq_true, Bool.not_true, Bool.false_and, Bool.false_eq_true, if_true, if_false]
end
end

/-- Settles O53: each transition with its own effect, and a token by its verdict. -/
theorem proofTransitions : Obligations.ProofTransitions := by
  unfold Obligations.ProofTransitions
  intro s
  refine ⟨fun uid g q hg hpull hlive htrap hholds hpre hdet =>
      ⟨fun hplace hroom => pull_withoutRoom hg hpull hlive htrap hholds hpre hdet hplace hroom,
        fun x hplace hroom => pull_keepsPlace hg hpull hlive htrap hholds hpre hdet hplace hroom,
        fun core gslot part hplace hdrained hroom herrs =>
          pull_moves hg hpull hlive htrap hholds hpre hdet hplace hdrained hroom herrs⟩,
    fun uid g q hg hq hreq hstands =>
      ⟨fun hdrained hroom herrs => guestReturn_goesHome hg hq hreq hstands rfl hdrained hroom herrs,
        fun hdrained => guestReturn_drains hg hq hreq hstands rfl hdrained⟩,
    fun uid g a rest hg harr => arrivalMessage_arrives hg harr, fun uid g hg hguest => releaseMessage_wakes hg hguest,
    fun guest p uid g hp hg hguest hblock => clauseCountMessage_tells hg hp hguest hblock,
    fun core p e rest d g hp hfree hevents hd hg => debugHandlerEntry_enters hp hfree hevents rfl hd hg,
    fun core hopen => traceDrain_drains core hopen, fun w d hd => dbgAttnWrite_adds hd,
    fun w hfirmware => congrArg Host.Outcome.next (if_pos hfirmware),
    fun w hkernel => congrArg Host.Outcome.next (if_neg (ne_true_of_eq_false hkernel)), ?_, ?_, ?_⟩
  · intro core trig reg w c hc hpress htrig hreg hfeature hright new
    rw [triggerRegisterWrite_writes w hc hpress htrig hreg hfeature hright, trigger_write c.trig0 hreg w, trigger_write c.trig1 hreg w]
  · intro v unchanged hv b
    exact ⟨fun htoken => unlockVerifyDone_ends hv unchanged htoken, fun st hst => endUnlock_fails s v hst,
      fun hkind hfirst => endUnlock_kernel rfl hkind hfirst, fun hkind hfirst => endUnlock_firmware rfl hkind hfirst,
      fun b htoken hclosed => (unlockVerifyDone_takes hv unchanged htoken).trans
        (congrArg Host.Outcome.next (takeToken_installs v hclosed))⟩
  · intro b good slot
    refine ⟨tokenStatus_bad, tokenStatus_unsigned, fun hform hslot hgood hkind => ?_⟩
    rw [tokenStatus_firmware hform hslot hgood hkind]
    exact ⟨fun hold => if_pos hold, fun hnew => if_neg (Nat.not_le.mpr hnew)⟩

end Sys2Proof.ProofCores
end

section
/-!
PROOFS. Host commands (R321 to R324, R330, R334, R337): acceptance, loss and completion; the end of a firmware image's verification
and its status (R280, R336).
-/
namespace Sys2Proof.HostCommands
open Sys2Proof.Machine

/-! ## A write to `HCMD` (R321) -/

section
variable {s : State} {op : Nat} {tag : Byte} {arg : BitVec 48} {run : State → Cmd}

/-- While DONE is 1 the command runs, and its status stands for COMMAND_DONE. -/
theorem issueCmd_accepted (h : s.host.done = true) : s.issueCmd op tag arg run = (run { s with host := { s.host with
    hcmd := BitVec.ofNat 64 (op * 2 ^ 56 + tag.toNat * 2 ^ 48 + arg.toNat), done := false, pending := none } }).settle tag :=
  if_neg (by simp [h])

theorem issueCmd_lost (h : s.host.done = false) : s.issueCmd op tag arg run = { s with host := { s.host with lost := true } } :=
  if_pos (by simp [h])

/-- Both answers of an operation that is one write of a command. -/
theorem command_starts {i : Instr} (hi : exec i s = .next (s.issueCmd op tag arg run)) :
    (s.host.done = true → exec i s = .next ((run { s with host := { s.host with
      hcmd := BitVec.ofNat 64 (op * 2 ^ 56 + tag.toNat * 2 ^ 48 + arg.toNat), done := false, pending := none } }).settle tag)) ∧
    (s.host.done = false → exec i s = .next { s with host := { s.host with lost := true } }) :=
  ⟨fun h => hi.trans (congrArg Host.Outcome.next (issueCmd_accepted h)),
    fun h => hi.trans (congrArg Host.Outcome.next (issueCmd_lost h))⟩
end

/-- An opcode without a command is accepted like one, and ends as malformed (R322). -/
theorem unknownOp_issues (s : State) {op : BitVec 8} (tag : Byte) (arg : BitVec 48) (h : op.toNat = 0 ∨ 11 < op.toNat) :
    exec (.hcmdUnknownOp op tag arg) s = .next (s.issueCmd op.toNat tag arg (fun t => .fin stBad t)) :=
  congrArg Host.Outcome.next (if_neg (by simp only [Bool.and_eq_true, decide_eq_true_eq]; omega))

/-! ## COMMAND_DONE (R321) -/

/-- A command that neither halts launches nor saves them finishes as soon as its status stands. -/
theorem commandDone_finishes {s : State} {st tag : Byte} (hdone : s.host.done = false) (hpending : s.host.pending = some (st, tag))
    (hop : st = 0 → s.host.hcmd.toNat / 2 ^ 56 ≠ 3 ∧ s.host.hcmd.toNat / 2 ^ 56 ≠ 4) :
    exec .commandDone s = .next (s.finishCmd st tag) := by
  have hnoPreempt : ¬ (st = 0 && s.cmdOp = 4 && s.preemptRuns) = true := by
    simp only [Bool.and_eq_true, decide_eq_true_eq]
    exact fun h => (hop h.1.1).2 h.1.2
  have hnoDestroy : ¬ (st = 0 && s.cmdOp = 3) = true := by
    simp only [Bool.and_eq_true, decide_eq_true_eq]
    exact fun h => (hop h.1).1 h.2
  refine congrArg Host.Outcome.next ((if_neg (ne_true_of_eq_false hdone)).trans ?_)
  rw [hpending]
  exact (if_neg hnoPreempt).trans (if_neg hnoDestroy)

/-! ## Firmware images (R280, R336) -/

theorem fwVerifyDone_ends {s : State} {v : Verify} (h : s.fwVerify = some v) (unchanged : Bool) :
    exec (.fwVerifyDone unchanged) s =
      .next (s.endFwVerify v (s.flash.verify (s.imageAt v.addr) 1 (unchanged && s.imageSigned v.addr))) := by
  show execFwVerifyDone unchanged s = _
  rw [execFwVerifyDone, h]

/-- A status that is not OK leaves the flash, and spoils the inactive banks. -/
theorem endFwVerify_fails (s : State) (v : Verify) {st : Nat} (h : st ≠ 0) : s.endFwVerify v st =
    ((maskCores v.mask).foldl (fun (t : State) c => t.spoilBank c) { s with fwVerify := none }).reportVerify v st :=
  congrArg (fun t : State => t.reportVerify v st) (if_neg h)

/-- What R336 refuses in a header. -/
theorem imageBad_iff (f : Flash) (i : Image) (kind : Nat) : f.imageBad i kind = true ↔
    (i.magic ≠ 0x53564947 ∨ i.kind ≠ kind ∨ 3 < i.keyslot ∨ i.rsv ≠ 0 ∨ i.rsv2 ≠ 0 ∨ (kind ≠ 3 ∧ i.target ≠ 0) ∨
      (i.devid ≠ 0 ∧ i.devid ≠ f.deviceId.toNat)) := by
  simp only [Flash.imageBad, Bool.or_eq_true, Bool.and_eq_true, bne_iff_ne, decide_eq_true_eq, or_assoc]

section
variable {f : Flash} {i : Image} {kind : Nat} {good : Bool}

theorem verify_of_imageBad (h : f.imageBad i kind = true) : f.verify i kind good = 2 := if_pos h

section
variable (hform : ¬ f.imageBad i kind = true)
include hform

theorem verify_of_unsigned (h : f.keySlot i.keyslot = none ∨ good = false) : f.verify i kind good = 3 :=
  (if_neg hform).trans (if_pos (by simpa using h))

variable (hslot : f.keySlot i.keyslot ≠ none) (hgood : good = true)
include hslot hgood

/-- A well-formed, signed image is judged by its version alone. -/
theorem verify_of_signed : f.verify i kind good = if i.version < f.minOf kind then stRollback else stOk :=
  (if_neg hform).trans (if_neg (by simp [hslot, hgood]))
end
end

/-- Settles O54: the eleven commands and the unknown opcodes are one write; the ends by status, the status by its first failed check. -/
theorem hostCommands : Obligations.HostCommands := by
  unfold Obligations.HostCommands
  intro s tag arg starts
  refine ⟨command_starts rfl, command_starts rfl, command_starts rfl, command_starts rfl, command_starts rfl,
    fun unchanged => command_starts rfl, command_starts rfl, command_starts rfl, command_starts rfl, command_starts rfl,
    command_starts rfl, fun op hop => command_starts (unknownOp_issues s tag arg hop),
    fun hdone w => congrArg Host.Outcome.next (if_neg (ne_true_of_eq_false hdone)),
    fun hdone st t hpending hop => commandDone_finishes hdone hpending hop,
    fun v unchanged hv => ⟨fwVerifyDone_ends hv unchanged, rfl, fun st hst => endFwVerify_fails s v hst⟩,
    fun i kind good => ?_⟩
  intro bad
  have hbad : s.flash.imageBad i kind = true ↔ bad := imageBad_iff s.flash i kind
  refine ⟨fun h => verify_of_imageBad (hbad.mpr h), fun h hsig => verify_of_unsigned (mt hbad.mp h) hsig, fun h hslot hgood => ?_⟩
  rw [verify_of_signed (mt hbad.mp h) hslot hgood]
  exact ⟨fun hold => if_pos hold, fun hnew => if_neg (Nat.not_lt.mpr hnew)⟩

end Sys2Proof.HostCommands
end

section
/-!
PROOFS. What a revocation and the end of a context leave alone: the queues, through the drain of the trace to its sink and the close of the
domain (R279, R299, R306). Then the Function Level Reset (R318).
-/
namespace Sys2Proof.ContextReset
open Sys2Proof.Machine

/-! ## Memory that an engine writes -/

theorem writeByte_queues (s : State) (a : Nat) (b : Byte) : (s.writeByte a b).queues = s.queues := by
  unfold State.writeByte
  cases homeOf a <;> rfl

theorem writeBytes_queues (s : State) (l : List (Nat × Byte)) : (s.writeBytes l).queues = s.queues :=
  foldl_field State.queues (fun t (e : Nat × Byte) => t.writeByte e.1 e.2) (fun t e => writeByte_queues t e.1 e.2) l s

theorem noteWrites_queues (s : State) (rank scope : Nat) (lines : List Nat) (except : Option Nat) :
    (s.noteWrites rank scope lines except).queues = s.queues := rfl

theorem homeWrites_queues (s : State) (l : List (Nat × Byte)) (except : Option Nat) : (s.homeWrites l except).queues = s.queues := by
  refine (foldl_field State.queues _ (fun t ln => ?_) _ _).trans ((noteWrites_queues ..).trans (writeBytes_queues s l))
  split
  · split <;> rfl
  · rfl

theorem ioWrite_queues (s : State) (addrs : List Nat) (l : List Byte) : (s.ioWrite addrs l).queues = s.queues :=
  homeWrites_queues ..

theorem ask_queues (s : State) (q : Ask) : (s.ask q).queues = s.queues := by
  unfold State.ask State.requestAts
  dsimp only
  split <;> rfl

/-! ## Accesses that may miss -/

/-- What a chain of accesses has made was made by each of them. -/
theorem bind_eq_ok {α β : Type} {x : Eng α} {f : α → Eng β} {b : β} (h : x.bind f = .ok b) : ∃ a, x = .ok a ∧ f a = .ok b := by
  cases x with
  | ok a => exact ⟨a, rfl, h⟩
  | miss q => cases h
  | bad k => cases h

/-- An access of which what is made keeps the queues. -/
def KeepsQueues (s : State) (x : Eng State) : Prop := ∀ t, x = .ok t → t.queues = s.queues

theorem keepsQueues_ok {s t : State} (h : t.queues = s.queues) : KeepsQueues s (.ok t) := by
  rintro u ⟨⟩
  exact h

theorem KeepsQueues.bind {s : State} {x : Eng State} {f : State → Eng State} (hx : KeepsQueues s x) (hf : ∀ t, KeepsQueues t (f t)) :
    KeepsQueues s (x.bind f) := fun u hu => by
  obtain ⟨t, ht, hu⟩ := bind_eq_ok hu
  exact (hf t u hu).trans (hx t ht)

theorem keepsQueues_read {α : Type} {s : State} {x : Eng α} {f : α → Eng State} (hf : ∀ a, KeepsQueues s (f a)) :
    KeepsQueues s (x.bind f) := fun u hu => by
  obtain ⟨a, _, hu⟩ := bind_eq_ok hu
  exact hf a u hu

theorem keepsQueues_foldl {β : Type} {f : State → β → Eng State} (hf : ∀ s e, KeepsQueues s (f s e)) (l : List β) {s : State}
    {x : Eng State} (hx : KeepsQueues s x) : KeepsQueues s (l.foldl (fun x e => x.bind fun t => f t e) x) :=
  List.foldlRecOn (motive := KeepsQueues s) l _ hx fun _ hy e _ => hy.bind fun t => hf t e

/-! ## The trace and its sink (R299, R306) -/

theorem sinkWrite_queues (s : State) (io : Party) (d : DbgDomain) (off : Nat) (l : List Byte) : KeepsQueues s (s.sinkWrite io d off l) :=
  keepsQueues_read fun _ => keepsQueues_ok (ioWrite_queues ..)

theorem drainTrace_queues (s : State) (core : Nat) (d : DbgDomain) : KeepsQueues s (s.drainTrace core d) := by
  unfold State.drainTrace
  split
  · exact keepsQueues_ok rfl
  · refine keepsQueues_read fun _ => ?_
    refine (keepsQueues_foldl (fun t _ => sinkWrite_queues t _ _ _ _) _ (keepsQueues_ok rfl)).bind fun t => ?_
    refine (sinkWrite_queues t _ _ _ _).bind fun t => KeepsQueues.bind ?_ fun t => keepsQueues_ok (State.updProof_queues ..)
    split
    · exact keepsQueues_ok rfl
    · exact keepsQueues_read fun _ => sinkWrite_queues _ _ _ _ _

theorem drainDomain_queues (s : State) (core : Nat) (d : DbgDomain) : (s.drainDomain core d).queues = s.queues := by
  unfold State.drainDomain
  cases h : s.drainTrace core d with
  | ok t => exact drainTrace_queues s core d t h
  | miss q => exact ask_queues s q
  | bad k => exact State.updProof_queues ..

theorem truncateSink_queues (s : State) (d : DbgDomain) : KeepsQueues s (s.truncateSink d) := by
  unfold State.truncateSink
  refine keepsQueues_read fun cons => KeepsQueues.bind ?_ fun t => keepsQueues_read fun _ => sinkWrite_queues _ _ _ _ _
  split
  · exact keepsQueues_ok rfl
  · exact (sinkWrite_queues s _ _ _ _).bind fun t => sinkWrite_queues _ _ _ _ _

theorem closeDomain_queues (s : State) (pasid : Nat) : (s.closeDomain pasid).queues = s.queues := rfl

/-- Every proof core drains the closing domain's records. -/
theorem drainClosing_queues (s : State) (pasid : Nat) : (proofKeys.foldl (fun (s : State) k => match s.closingDomain pasid with
    | some d => s.drainDomain k d
    | none => s) s).queues = s.queues :=
  foldl_field State.queues _ (fun t k => by
    split
    · exact drainDomain_queues ..
    · rfl) proofKeys s

theorem settleRevoke_queues (s : State) (pasid : Nat) : (s.settleRevoke pasid).queues = s.queues := by
  have hdrained := drainClosing_queues ((s.dropWatches pasid).dropHandlers pasid) pasid
  unfold State.settleRevoke
  split
  · rfl
  · split
    · rfl
    · dsimp only
      split
      · exact hdrained
      · split
        · exact hdrained
        · split
          case h_1 h => exact (closeDomain_queues ..).trans ((truncateSink_queues _ _ _ h).trans hdrained)
          case h_2 => exact (ask_queues ..).trans hdrained
          case h_3 => exact (closeDomain_queues ..).trans hdrained

theorem revokeKernel_queues (s : State) (pasid : Nat) : (s.revokeKernel pasid).queues = s.queues := by
  unfold State.revokeKernel
  split
  · exact settleRevoke_queues s pasid
  · exact settleRevoke_queues _ pasid

/-! ## The end of a context (R279) -/

theorem discardLaunches_queues (s : State) (pasid : Nat) : (s.discardLaunches pasid).queues = s.queues :=
  foldl_field State.queues (fun t b => t.dropBlock b) (fun _ _ => rfl) _ s

/-- Every queue of the machine is dead. -/
def AllDead (s : State) : Prop := ∀ q ∈ s.queues, q.state = .dead

theorem tearDown_allDead {s : State} (h : AllDead s) (pasid : Nat) : AllDead (s.tearDown pasid) := by
  intro q hq
  unfold State.tearDown at hq
  rw [CommandEffects.parkWaiters_only] at hq
  obtain ⟨x, hx, rfl⟩ := List.mem_map.mp hq
  have hdead := h x hx
  rwa [if_neg (by simp [hdead])]

/-- Where no queue lives, nothing of a context needs a page: it is destroyed at once. -/
theorem destroy_allDead {s : State} (h : AllDead s) (pasid : Nat) : ∃ t, s.destroy pasid = .ok t ∧ AllDead t := by
  have hnone : s.queues.filter (fun q => q.pasid == pasid && q.state != .dead) = [] :=
    List.filter_eq_nil_iff.mpr fun q hq => by simp [h q hq]
  unfold State.destroy
  rw [hnone]
  refine ⟨_, rfl, fun q hq => h q ?_⟩
  rwa [← (revokeKernel_queues ..).trans (discardLaunches_queues s pasid)]

theorem destroyAll_allDead (ps : List Nat) {s : State} (h : AllDead s) :
    ∃ t, ps.foldl (fun (x : Eng State) p => x.bind (fun s => s.destroy p)) (.ok s) = .ok t := by
  induction ps generalizing s with
  | nil => exact ⟨s, rfl⟩
  | cons p ps ih =>
    obtain ⟨t, ht, hdead⟩ := destroy_allDead h p
    obtain ⟨u, hu⟩ := ih hdead
    exact ⟨u, (congrArg (List.foldl _ · ps) ht).trans hu⟩

theorem haltAll_allDead (ps : List Nat) {s : State} (h : AllDead s) :
    AllDead (ps.foldl (fun (s : State) p => (s.tearDown p).haltLaunches p) s) :=
  List.foldlRecOn (motive := AllDead) ps _ h fun _ ht p _ => tearDown_allDead ht p

/-- A Function Level Reset with every launch halted and no queue alive leaves nothing registered. -/
theorem functionLevelReset_clears {s : State}
    (hhalted : ∀ p ∈ s.pasids, (s.pasids.foldl (fun t p => (t.tearDown p).haltLaunches p) s).launchesHalted p = true)
    (hdead : AllDead s) : ∃ t, exec .functionLevelReset s = .next t ∧ t.queues = [] ∧ t.streams = [] ∧ t.domain = none ∧
      t.host.featAcc = 0 ∧ t.host.locked = false := by
  obtain ⟨t, ht⟩ := destroyAll_allDead s.pasids (haltAll_allDead s.pasids hdead)
  refine ⟨{ t.dropWaiter cmdWork with
    queues := [], watchTable := [], streams := [], domain := none, domainPending := none
    host := { t.host with featAcc := 0, locked := false } }, congrArg Host.Outcome.next ((if_neg ?_).trans ?_), rfl, rfl, rfl, rfl, rfl⟩
  · simpa using hhalted
  · rw [ht]

end Sys2Proof.ContextReset
end

section
/-!
PROOFS. The start (R333 to R335): no attempt gets past step 5 while neither copy of the configuration image verifies; what a start
leaves of the machine.
-/
namespace Sys2Proof.PowerOnStart
open Sys2Proof.Machine

/-! ## Attempts without a configuration image -/

section
variable {fail : Option Nat} {verifies : Bool → Bool}

/-- One step more of an attempt: the body of `attempt`. -/
def goOn (fail : Option Nat) (verifies : Bool → Bool) (a : Attempt) (k : Nat) : Attempt :=
  match a with
  | .ready r => startStep fail verifies r k
  | x => x

theorem attempt_eq (fail : Option Nat) (verifies : Bool → Bool) (r : StartRec) : attempt fail verifies r =
    ((List.range 32).map (· + 1)).foldl (goOn fail verifies) (.ready { r with step := 0, outcome := 0 }) := rfl

/-- An attempt that has ended short of step 6 goes no further. -/
theorem goOn_unverified {a : Attempt} (h : a.verified = false) (k : Nat) : goOn fail verifies a k = a := by
  cases a with
  | ready r => cases h
  | stopped step r => rfl
  | failed step r => rfl

theorem foldl_goOn_unverified {a : Attempt} (h : a.verified = false) (l : List Nat) : l.foldl (goOn fail verifies) a = a := by
  induction l with
  | nil => rfl
  | cons k l ih => rw [List.foldl_cons, goOn_unverified h, ih]

/-- A step that is run: it fails, or the attempt goes on. -/
def tryStep (fail : Option Nat) (verifies : Bool → Bool) (k : Nat) (r : StartRec) : Attempt :=
  if fail == some k || (k == 5 && !verifies (r.alt.getLsbD 4)) then (if k < 4 then .stopped k r else .failed k r)
  else .ready { r.setCount k 0 with step := k }

/-- What a step can do: it is run, with its alternative or without; it stops the start; or, where R333 lets it, it is skipped. -/
theorem startStep_cases (fail : Option Nat) (verifies : Bool → Bool) (r : StartRec) (k : Nat) :
    (∃ q, startStep fail verifies r k = tryStep fail verifies k q) ∨ startStep fail verifies r k = .stopped k r ∨
      (afterTwo k = .skip ∧ ∃ q, startStep fail verifies r k = .ready q) := by
  unfold startStep
  generalize r.count k = n
  obtain _ | _ | _ | n := n
  · exact .inl ⟨r, rfl⟩
  · exact .inl ⟨r, rfl⟩
  · cases afterTwo k with
    | stop => exact .inr (.inl rfl)
    | alternative => exact .inl ⟨{ r with alt := r.alt ||| stepBit k }, rfl⟩
    | skip => exact .inr (.inr ⟨rfl, _, rfl⟩)
  · exact .inr (.inl rfl)

/-- Still at work, or ended short of step 6. -/
def Early (a : Attempt) : Prop := (∃ r, a = .ready r) ∨ a.verified = false

/-- A start that ends at one of the first five steps has not got past them. -/
theorem ended_unverified {k : Nat} (hk : k ≤ 5) (r : StartRec) :
    (Attempt.stopped k r).verified = false ∧ (Attempt.failed k r).verified = false :=
  ⟨decide_eq_false (Nat.not_lt.mpr hk), decide_eq_false (Nat.not_lt.mpr hk)⟩

theorem startStep_early (r : StartRec) {k : Nat} (hk : k ≤ 5) : Early (startStep fail verifies r k) := by
  obtain ⟨q, hq⟩ | hstop | ⟨-, q, hq⟩ := startStep_cases fail verifies r k
  · rw [hq, tryStep]
    split
    · split
      · exact .inr (ended_unverified hk q).1
      · exact .inr (ended_unverified hk q).2
    · exact .inl ⟨_, rfl⟩
  · exact .inr (hstop ▸ (ended_unverified hk r).1)
  · exact .inl ⟨q, hq⟩

/-- Step 5 fails, or has failed too often: it has an alternative, the second copy, and is never skipped (R333). -/
theorem startStep_five (r : StartRec) (h : ∀ second, verifies second = false) : (startStep fail verifies r 5).verified = false := by
  obtain ⟨q, hq⟩ | hstop | ⟨hskip, -⟩ := startStep_cases fail verifies r 5
  · rw [hq, tryStep, if_pos (by simp [h])]
    exact (ended_unverified le_rfl q).2
  · rw [hstop]
    exact (ended_unverified le_rfl r).1
  · cases hskip

theorem foldl_goOn_early {a : Attempt} (ha : Early a) (l : List Nat) (hl : ∀ k ∈ l, k ≤ 5) :
    Early (l.foldl (goOn fail verifies) a) :=
  List.foldlRecOn (motive := Early) l _ ha fun b hb k hk => by
    obtain ⟨r, rfl⟩ | hb := hb
    · exact startStep_early r (hl k hk)
    · exact .inr (by rwa [goOn_unverified hb])

theorem attempt_unverified (r : StartRec) (h : ∀ second, verifies second = false) : (attempt fail verifies r).verified = false := by
  have hsteps : (List.range 32).map (· + 1) = [1, 2, 3, 4] ++ 5 :: (List.range 27).map (· + 6) := by decide
  have hfive : (goOn fail verifies ([1, 2, 3, 4].foldl (goOn fail verifies) (.ready { r with step := 0, outcome := 0 })) 5).verified =
      false := by
    obtain ⟨q, hq⟩ | hq := foldl_goOn_early (fail := fail) (verifies := verifies) (a := .ready { r with step := 0, outcome := 0 })
      (.inl ⟨_, rfl⟩) [1, 2, 3, 4] (by decide)
    · rw [hq]
      exact startStep_five q h
    · rwa [goOn_unverified hq]
  rw [attempt_eq, hsteps, List.foldl_append, List.foldl_cons, foldl_goOn_unverified hfive]
  exact hfive
end

/-! ## Starts without a configuration image -/

/-- Neither copy of the configuration image verifies. -/
def Unverified (good : Bool → Bool) (f : Flash) : Prop := ∀ second, f.verify (imageOf (f.cfgBytes second)) 2 (good second) ≠ stOk

/-- The start record says nothing of the images. -/
theorem writeRecord_images (f : Flash) (r : StartRec) : (f.writeRecord r).deviceId = f.deviceId ∧
    (f.writeRecord r).cfg0 = f.cfg0 ∧ (f.writeRecord r).cfg1 = f.cfg1 := by
  unfold Flash.writeRecord
  split
  · exact ⟨rfl, rfl, rfl⟩
  · exact ⟨rfl, rfl, rfl⟩

theorem imageBad_writeRecord (f : Flash) (r : StartRec) (i : Image) (kind : Nat) :
    (f.writeRecord r).imageBad i kind = f.imageBad i kind := by
  unfold Flash.imageBad
  rw [(writeRecord_images f r).1]

theorem keySlot_writeRecord (f : Flash) (r : StartRec) (k : Nat) : (f.writeRecord r).keySlot k = f.keySlot k := by
  unfold Flash.keySlot
  rw [Flash.writeRecord_keySlots]

theorem minOf_writeRecord (f : Flash) (r : StartRec) (kind : Nat) : (f.writeRecord r).minOf kind = f.minOf kind := by
  unfold Flash.minOf
  rw [Flash.writeRecord_minVersion]

theorem verify_writeRecord (f : Flash) (r : StartRec) (i : Image) (kind : Nat) (good : Bool) :
    (f.writeRecord r).verify i kind good = f.verify i kind good := by
  unfold Flash.verify
  rw [imageBad_writeRecord, keySlot_writeRecord, minOf_writeRecord]

theorem cfgBytes_writeRecord (f : Flash) (r : StartRec) (second : Bool) : (f.writeRecord r).cfgBytes second = f.cfgBytes second := by
  obtain ⟨-, hcfg0, hcfg1⟩ := writeRecord_images f r
  rw [Flash.cfgBytes, hcfg0, hcfg1, ← Flash.cfgBytes]

theorem configured_unverified (f : Flash) {a : Attempt} (h : a.verified = false) : f.configured a = f :=
  if_neg (ne_true_of_eq_false h)

/-- What follows an attempt: another one, where it failed. -/
def retry (x : Flash × Attempt) (again : Flash → Flash × Attempt) : Flash × Attempt :=
  match x with
  | (f, .failed _ _) => again f
  | x => x

theorem startAgain_zero (good : Bool → Bool) (f : Flash) : startAgain good 0 f = startOnce good none f := by
  delta startAgain
  rfl

theorem startAgain_succ (good : Bool → Bool) (n : Nat) (f : Flash) :
    startAgain good (n + 1) f = retry (startOnce good none f) (startAgain good n) := by
  delta startAgain
  rfl

theorem runStart_nil (good : Bool → Bool) (f : Flash) : runStart good [] f = startAgain good 4 f := by
  delta runStart
  rfl

theorem runStart_cons (good : Bool → Bool) (k : Nat) (rest : List Nat) (f : Flash) :
    runStart good (k :: rest) f = retry (startOnce good (some k) f) (runStart good rest) := by
  delta runStart
  rfl

section
variable {good : Bool → Bool} {f : Flash}

theorem Unverified.writeRecord (h : Unverified good f) (r : StartRec) : Unverified good (f.writeRecord r) := fun second => by
  rw [verify_writeRecord, cfgBytes_writeRecord]
  exact h second

/-- A failed attempt is followed by others of the same kind. -/
theorem retry_unverified {x : Flash × Attempt} {again : Flash → Flash × Attempt} (hx : Unverified good x.1 ∧ x.2.verified = false)
    (hagain : ∀ f, Unverified good f → (again f).2.verified = false) : (retry x again).2.verified = false := by
  obtain ⟨f, a⟩ := x
  cases a with
  | ready r => exact hx.2
  | stopped step r => exact hx.2
  | failed step r => exact hagain f hx.1

variable (h : Unverified good f)
include h

theorem startOnce_unverified (fail : Option Nat) :
    Unverified good (startOnce good fail f).1 ∧ (startOnce good fail f).2.verified = false := by
  have ha : (attempt fail (fun second => f.verify (imageOf (f.cfgBytes second)) 2 (good second) == stOk) f.record).verified = false :=
    attempt_unverified f.record fun second => beq_false_of_ne (h second)
  unfold startOnce
  dsimp only
  generalize attempt fail (fun second => f.verify (imageOf (f.cfgBytes second)) 2 (good second) == stOk) f.record = a at ha ⊢
  rw [configured_unverified f ha]
  cases a with
  | ready r => cases ha
  | stopped step r => exact ⟨h, ha⟩
  | failed step r =>
    refine ⟨?_, ha⟩
    dsimp only
    exact h.writeRecord _

theorem startAgain_unverified (n : Nat) : (startAgain good n f).2.verified = false := by
  induction n generalizing f with
  | zero => exact startAgain_zero good f ▸ (startOnce_unverified h none).2
  | succ n ih => exact startAgain_succ good n f ▸ retry_unverified (startOnce_unverified h none) fun _ hf => ih hf

theorem runStart_unverified (fails : List Nat) : (runStart good fails f).2.verified = false := by
  induction fails generalizing f with
  | nil => exact runStart_nil good f ▸ startAgain_unverified h 4
  | cons k rest ih => exact runStart_cons good k rest f ▸ retry_unverified (startOnce_unverified h (some k)) fun _ hf => ih hf

/-- Such a start does not reach READY. -/
theorem runStart_notReady (fails : List Nat) (r : StartRec) : (runStart good fails f).2 ≠ .ready r := fun hr => by
  have hend := runStart_unverified h fails
  rw [hr] at hend
  cases hend
end

/-! ## What a start leaves -/

/-- `STARTSTAT` of READY (R335). -/
theorem startStat_ready (alt : W32) : (startStat alt 32 1).toNat % 16 = 1 := by
  have halt := alt.isLt
  simp only [startStat, BitVec.toNat_ofNat]
  omega

/-- Queues, launches and debug rights are gone. -/
theorem startWith_empties (s : State) (good : Bool → Bool) (fails : List Nat) :
    (s.startWith good fails).queues = [] ∧ (s.startWith good fails).grids = [] ∧ (s.startWith good fails).dbgDomains = [] := by
  unfold State.startWith
  dsimp only
  cases (runStart good fails s.flash).2 with
  | ready r => exact ⟨rfl, rfl, rfl⟩
  | stopped step r => exact ⟨rfl, rfl, rfl⟩
  | failed step r => exact ⟨rfl, rfl, rfl⟩

theorem started_ready (s : State) (r : StartRec) : (State.started s r).ready = true ∧ (State.started s r).host.startSkip = r.skip :=
  ⟨beq_iff_eq.mpr (startStat_ready r.alt), rfl⟩

theorem started_flash (s : State) (r : StartRec) : (State.started s r).flash = s.flash := rfl

section
variable {s : State} {good : Bool → Bool} {fails : List Nat} {r : StartRec} (h : (runStart good fails s.flash).2 = .ready r)
include h

theorem startWith_ready : (s.startWith good fails).ready = true ∧ (s.startWith good fails).host.startSkip = r.skip ∧
    (s.startWith good fails).flash = (runStart good fails s.flash).1.writeRecord { r with step := 30, outcome := 1 } := by
  unfold State.startWith
  dsimp only
  rw [h]
  dsimp only
  refine ⟨(started_ready _ r).1, (started_ready _ r).2, ?_⟩
  rw [started_flash]

/-- READY writes a record of step 30, outcome 1 (R334; log 30). -/
theorem startWith_record (hgen : (runStart good fails s.flash).1.record.gen + 1 < 2 ^ 32) :
    (s.startWith good fails).flash.record.step = 30 ∧ (s.startWith good fails).flash.record.outcome = 1 := by
  obtain ⟨_, _, hflash⟩ := startWith_ready h
  rw [hflash, CommandEffects.writeRecord_record hgen (by simp) (by simp)]
  exact ⟨rfl, rfl⟩
end

end Sys2Proof.PowerOnStart
end

section
/-!
PROOFS. Registers, clocks, frames and links (R315, R316, R320, R326 to R328), soft errors (R338), heat and power (R339), the loss of
supply (R334), and the host's transitions together.
-/
namespace Sys2Proof.HostTransitions
open Sys2Proof.Machine

/-! ## The feature word and the clocks (R320, R328) -/

theorem featAccWrite_stores {s : State} (x : BitVec 128) (hready : s.ready = true) (hopen : s.host.locked = false)
    (hlock : s.lockComes = false) :
    exec (.featAccWrite x) s = .next { s with host := { s.host with featAcc := x &&& s.host.featOff } } :=
  congrArg Host.Outcome.next (if_neg (by simp [hready, hopen, hlock]))

theorem featAccWrite_ignored {s : State} (x : BitVec 128) (h : s.host.locked = true ∨ s.lockComes = true) :
    exec (.featAccWrite x) s = .next s :=
  congrArg Host.Outcome.next (if_pos (by rcases h with h | h <;> simp [h]))

/-- A count of nanoseconds comes apart into seconds that fit their 48 bits and a rest below one second. -/
theorem splitNs_spec (x : Int) : (splitNs x).1 < 2 ^ 48 ∧ (splitNs x).2 < 1000000000 ∧
    ((splitNs x).1 : Int) * 1000000000 + (splitNs x).2 = x % (2 ^ 48 * 1000000000) := by
  simp only [splitNs, nsPerSec]
  omega

/-- A clock that is moved by a count of nanoseconds. -/
theorem shift_spec (e : EthPort) (d : Int) : (e.shift d).adj = e.adj ∧ (e.shift d).ns < 1000000000 ∧
    (((e.shift d).sec.toNat : Int) * 1000000000 + (e.shift d).ns) % (2 ^ 48 * 1000000000) =
      ((e.sec.toNat : Int) * 1000000000 + e.ns + d) % (2 ^ 48 * 1000000000) := by
  obtain ⟨hsec, hns, hsum⟩ := splitNs_spec ((e.total : Int) + d)
  refine ⟨rfl, hns, ?_⟩
  have hfits : (e.shift d).sec.toNat = (splitNs ((e.total : Int) + d)).1 := (BitVec.toNat_ofNat ..).trans (Nat.mod_eq_of_lt hsec)
  have htotal : (e.total : Int) = (e.sec.toNat : Int) * 1000000000 + e.ns := by simp [EthPort.total, nsPerSec]
  rw [hfits, ← htotal]
  exact (congrArg (· % _) hsum).trans (Int.emod_emod_of_dvd _ dvd_rfl)

theorem ptpadjWrite_shifts (s : State) (w : W64) : ∃ e, exec (.ptpadjWrite 0 w) s = .next { s with eth0 := e } ∧ e.adj = w ∧
    e.ns < 1000000000 ∧ ((e.sec.toNat : Int) * 1000000000 + e.ns) % (2 ^ 48 * 1000000000) =
      ((s.eth0.sec.toNat : Int) * 1000000000 + s.eth0.ns + w.toInt) % (2 ^ 48 * 1000000000) :=
  ⟨EthPort.shift { s.eth0 with adj := w } w.toInt, rfl, shift_spec { s.eth0 with adj := w } w.toInt⟩

/-! ## Plain registers (R5, R316) -/

/-- A power cap is taken within its limits alone (R339). -/
theorem registerWrite_cap (s : State) (w : W64) : exec (.registerWrite 0x300 w) s =
    .next (if 800 ≤ w.toNat % 2 ^ 12 ∧ w.toNat % 2 ^ 12 ≤ 3200 then { s with host := { s.host with pwrCap := w.toNat % 2 ^ 12 } }
      else s) := by
  show Host.Outcome.next (s.writeRegister 0x300 w) = _
  simp only [State.writeRegister, Nat.reduceEqDiff, Bool.and_eq_true, decide_eq_true_eq, if_false, if_true]

/-! ## Frames (R327, R330) -/

section
variable {s : State} (hup : s.eth0.up = true) (hready : s.ready = true) (hfeature : s.feature 8 = true)
include hup hready hfeature

/-- What a frame comes to at port 0, by its check and its length with the FCS. -/
theorem frameArrival_port0 (l : List Byte) (fcsOk : Bool) : exec (.frameArrival 0 l fcsOk) s = .next (s.setEth 0
    (if (!fcsOk) = true then { s.eth0 with badFcs := s.eth0.badFcs + 1 }
    else if l.length + 4 < 64 then { s.eth0 with runt := s.eth0.runt + 1 }
    else if 9216 < l.length + 4 then { s.eth0 with long := s.eth0.long + 1 }
    else s.bufferFrame s.eth0 l)) := by
  have hopen : ¬ (2 ≤ 0 || !(s.eth 0).up || !s.ready || !s.feature 8) = true := by simp [State.eth, hup, hready, hfeature]
  refine congrArg Host.Outcome.next ((if_neg hopen).trans ?_)
  simp only [apply_ite (s.setEth 0)]
  rfl
end

/-- A port with one stream's frames publishes the oldest. -/
theorem framePublish_single {s : State} {port : Nat} {f : Frame} (hport : port < 2) (hheads : (s.eth port).heads = [f]) :
    exec (.framePublish port) s = .next (s.publishFrame port f) := by
  show execFramePublish port s = _
  have hfirst : Config.freeNat s.now (2 ^ 25) % max 1 ([f] : List Frame).length = 0 := Nat.mod_one _
  simp only [execFramePublish, hheads, Nat.not_le.mpr hport, hfirst, if_false, List.getElem?_cons_zero]

/-! ## Links (R324, R326) -/

/-- A port that is up goes down alone, and vector 1 tells of it. -/
theorem portDown_downs {s : State} {port : Nat} (h : s.portsUp.getLsbD port = true) :
    ∃ t, exec (.portDown port) s = .next t ∧ t.portsUp.getLsbD port = false ∧
      (∀ k, k ≠ port → t.portsUp.getLsbD k = s.portsUp.getLsbD k) ∧ t.host = s.host.raise 1 := by
  refine ⟨_, congrArg Host.Outcome.next (if_neg (by simp [h])), ?_, fun k hk => ?_, rfl⟩
  · have hlt : port < 18 := BitVec.lt_of_getLsbD h
    simp [State.raiseMsi, hlt]
  · by_cases hlt : k < 18
    · have hother : k < port ∨ ¬ k - port = 0 := by omega
      simpa [State.raiseMsi, hlt] using fun _ => hother
    · simp [BitVec.getLsbD_of_ge _ _ (Nat.not_lt.mp hlt)]

theorem linkRetryTimeout_cuts {s : State} {dev : Nat} {d : Domain} (hreach : s.unreachable.contains dev = false)
    (hd : s.domain = some d) (hdev : ∃ e ∈ d.devs, e.1 = dev) :
    exec (.linkRetryTimeout dev) s = .next { s with unreachable := s.unreachable ++ [dev], host := s.host.raise 1 } := by
  have hnamed : s.domain.any (fun d => d.devs.any (fun e => e.1 == dev)) = true := by
    rw [hd]
    exact List.any_eq_true.mpr (hdev.imp fun e he => ⟨he.1, beq_iff_eq.mpr he.2⟩)
  exact congrArg Host.Outcome.next (if_neg (by rw [hreach, hnamed]; exact Bool.false_ne_true))

/-- A waiting table comes into use once nothing of this device is on the fabric. -/
theorem domainTableInstall_installs {s : State} {d : Domain} (hd : s.domainPending = some d)
    (hlanes : ∀ l ∈ s.lanes, l.src = s.selfDev → l.items = []) :
    exec .domainTableInstall s = .next { s with domain := some d, domainPending := none, unreachable := d.cutOff s.portsUp } := by
  have hidle : ¬ (s.lanes.any (fun l => l.src == s.selfDev && !l.items.isEmpty)) = true := fun hany => by
    obtain ⟨l, hl, hbusy⟩ := List.any_eq_true.mp hany
    rw [Bool.and_eq_true, beq_iff_eq] at hbusy
    have hempty := hlanes l hl hbusy.1
    simp [hempty] at hbusy
  show execDomainTableInstall s = _
  rw [execDomainTableInstall, hd]
  exact congrArg Host.Outcome.next (if_neg hidle)

/-! ## Soft errors (R338) -/

theorem turnWindow_host (s : State) (owner : Nat) : (s.turnWindow owner).host = s.host := by
  rw [State.turnWindow_only]

/-- A window that has passed begins again: its owner's counts go, the others' stay. -/
theorem turnWindow_turns {s : State} {owner : Nat} (h : Store.getD s.errWindows owner 0 ≠ s.errWindow owner) :
    s.turnWindow owner = { s with
      errCounts := s.errCounts.filter (fun e => unitOwner e.1 != owner)
      errWindows := Store.putD 0 s.errWindows owner (s.errWindow owner) } := if_neg h

theorem correctedError_counts (s : State) (unit : Nat) (h : Store.getD (s.turnWindow (unitOwner unit)).errCounts unit 0 ≠ 3) :
    exec (.correctedError unit) s = .next { s.turnWindow (unitOwner unit) with
      errCounts := Store.put (s.turnWindow (unitOwner unit)).errCounts unit
        (Store.getD (s.turnWindow (unitOwner unit)).errCounts unit 0 + 1) } :=
  congrArg Host.Outcome.next (if_pos (by simpa using h))

/-- The fourth error of a window raises vector 3, whether a spare remains or not. -/
theorem correctedError_raises (s : State) (unit : Nat) (h : Store.getD (s.turnWindow (unitOwner unit)).errCounts unit 0 = 3) :
    ∃ t, exec (.correctedError unit) s = .next t ∧ t.host = s.host.raise 3 := by
  refine ⟨_, congrArg Host.Outcome.next (if_neg (by simp [h])), ?_⟩
  rw [← turnWindow_host s (unitOwner unit)]
  dsimp only
  split
  · rfl
  · rfl

theorem errWindow_core {s : State} {owner : Nat} {c : Core} (h : s.core? owner = some c) :
    s.errWindow owner = s.clockOf owner / 2 ^ 32 := by
  rw [State.errWindow, h]
  rfl

/-! ## Heat and power (R339) -/

/-- A core of the die is that hot. -/
theorem dieAt_of_core {s : State} {die temp : Nat} {c : Core} (hc : c ∈ s.cores) (hdie : dieOf c.key = die) (hhot : temp ≤ c.temp) :
    s.dieAt die temp = true :=
  List.any_eq_true.mpr ⟨c, hc, by simp [hdie, hhot]⟩

/-- A core whose refills are set, where it is one of those meant. -/
def refilled (sel : Nat → Bool) (f : Nat → Nat → Nat → Nat) (c : Core) : Core :=
  if sel c.key then { c with parts := c.parts.mapIdx (fun k (p : Part) => { p with refill := f c.key k p.refill }) } else c

theorem setRefill_cores (s : State) (sel : Nat → Bool) (f : Nat → Nat → Nat → Nat) :
    (s.setRefill sel f).cores = s.cores.map (refilled sel f) := rfl

theorem refilled_key (sel : Nat → Bool) (f : Nat → Nat → Nat → Nat) (c : Core) : (refilled sel f c).key = c.key := by
  unfold refilled
  split
  · rfl
  · rfl

theorem refilled_parts {sel : Nat → Bool} (f : Nat → Nat → Nat → Nat) {c : Core} (h : sel c.key = true) :
    (refilled sel f c).parts = c.parts.mapIdx (fun k (p : Part) => { p with refill := f c.key k p.refill }) := by
  rw [refilled, if_pos h]

theorem thermalLimit_cools {s : State} {die : Nat} (hot : s.dieAt die tempLimit = true) : ∃ t, exec (.thermalLimit die) s = .next t ∧
    (s.host.pwrStat ≠ 3 → t.host.pwrStat = 2) ∧ ∀ d ∈ t.cores, dieOf d.key = die → ∀ p ∈ d.parts, p.refill = 4096 := by
  refine ⟨_, congrArg Host.Outcome.next (if_neg (by simp [hot])), fun hrun => if_neg hrun, fun d hd hdie p hp => ?_⟩
  dsimp only at hd
  rw [setRefill_cores] at hd
  obtain ⟨c, _, rfl⟩ := List.mem_map.mp hd
  rw [refilled_key] at hdie
  rw [refilled_parts (sel := fun k => dieOf k == die) _ (beq_iff_eq.mpr hdie)] at hp
  obtain ⟨k, hk, rfl⟩ := List.mem_mapIdx.mp hp
  rfl

theorem raise_msix (h : HostLink) (v : Nat) (hopen : h.masked v = false) : (h.raise v).msix = h.msix ++ [v] := by
  rw [HostLink.raise_open h v hopen]

theorem thermalStop_stops {s : State} {die : Nat} (hot : s.dieAt die tempStop = true) (hready : s.ready = true) :
    ∃ t, exec (.thermalStop die) s = .next t ∧ t.host.pwrStat = 3 ∧ t.host.startStat = s.host.startStat ||| 3 ∧
      (s.host.masked 4 = false → t.host.msix = s.host.msix ++ [4]) ∧ ∀ b ∈ t.blocks, b.stage = .resident → b.preempt = true := by
  have hruns : ¬ (!s.dieAt die tempStop || s.host.startStat.toNat % 16 != 1) = true := by
    simp only [State.ready, beq_iff_eq] at hready
    simp [hot, hready]
  refine ⟨_, congrArg Host.Outcome.next (if_neg hruns), HostLink.raise_pwrStat .., HostLink.raise_startStat .., fun hopen => ?_,
    fun b hb hres => ?_⟩
  · refine raise_msix _ 4 ?_
    exact hopen
  · obtain ⟨x, _, rfl⟩ := List.mem_map.mp hb
    by_cases hx : (x.stage == .resident) = true
    · rw [if_pos hx]
    · rw [if_neg hx] at hres
      exact absurd (beq_iff_eq.mpr hres) hx

/-- A refill above CAP: between the least and what it was (R55, R339). -/
theorem refill_above {r x : Nat} : 4096 ≤ hotRefill + x % (r - hotRefill + 1) ∧
    (4096 ≤ r → hotRefill + x % (r - hotRefill + 1) ≤ r) := by
  have hlt := Nat.mod_lt x (show 0 < r - hotRefill + 1 by omega)
  simp only [hotRefill] at hlt ⊢
  omega

theorem powerAverageWindow_judges (s : State) (watts : Nat) : ∃ t, exec (.powerAverageWindow watts) s = .next t ∧
    t.host.pwrNow = watts % 4096 ∧ (∀ r ∈ t.roots, r.stopped = decide (s.host.pwrCap < watts % 4096)) ∧
    (s.host.pwrCap < watts % 4096 → ∀ c ∈ t.cores, ∃ d ∈ s.cores, c.parts.length = d.parts.length ∧
      ∀ (k : Nat) (p : Part), c.parts[k]? = some p → ∃ q : Part, d.parts[k]? = some q ∧
        4096 ≤ p.refill ∧ (4096 ≤ q.refill → p.refill ≤ q.refill)) := by
  refine ⟨_, rfl, ?_, fun r hr => ?_, fun habove c hc => ?_⟩
  · dsimp only
    split
    · rfl
    · rfl
  · have hroots : r ∈ s.roots.map (fun (r : Root) => { r with stopped := decide (s.host.pwrCap < watts % 4096) }) := by
      dsimp only at hr
      split at hr
      · exact hr
      · exact hr
    obtain ⟨x, _, rfl⟩ := List.mem_map.mp hroots
    rfl
  · dsimp only at hc
    rw [if_pos habove, setRefill_cores] at hc
    obtain ⟨d, hd, rfl⟩ := List.mem_map.mp hc
    rw [refilled_parts (sel := fun _ => true) _ rfl]
    refine ⟨d, hd, List.length_mapIdx, fun k p hp => ?_⟩
    rw [List.getElem?_mapIdx] at hp
    obtain ⟨q, hq, rfl⟩ := Option.map_eq_some_iff.mp hp
    exact ⟨q, hq, refill_above⟩

/-! ## The loss of supply (R334) -/

theorem get?_filter_key {α : Type} (l : List (Nat × α)) (keep : Nat → Bool) {k : Nat} (h : keep k = true) :
    Store.get? (l.filter (fun e => keep e.1)) k = Store.get? l k := by
  induction l with
  | nil => rfl
  | cons e l ih =>
    obtain ⟨a, x⟩ := e
    by_cases ha : a = k
    · subst ha
      simp [h, Store.get?]
    · by_cases hkeep : keep a = true
      · simp [hkeep, Store.get?, ha, ih]
      · simp [hkeep, Store.get?, ha, ih]

/-- The memory of the host is not the device's, and stays (log 20). -/
theorem readByte_dark {s : State} (hcopy : s.hostCopy = []) {a : Nat} (hlo : hostBase ≤ a) (hhi : a < fwBase) :
    s.dark.readByte a = s.readByte a := by
  have hmem : Memory.read s.dark.mem a = Memory.read s.mem a :=
    congrArg (fun x : Option Byte => x.getD unlisted) (get?_filter_key s.mem
      (fun k => (hostBase ≤ k && k < fwBase) || (fwBase + 2 ^ 40 ≤ k && k < savedBase)) (by simp [hlo, hhi]))
  have hnone : s.dark.hostCopy = [] := rfl
  unfold State.readByte
  rw [hcopy, hnone, hmem]

theorem powerLoss_darkens (s : State) (torn : Option Bool) : ∃ t, exec (.powerLoss torn) s = .next t ∧ t.gangs = [] ∧ t.blocks = [] ∧
    t.queues = [] ∧ t.streams = [] ∧ (torn = none → t.flash = s.flash) ∧
    ∀ a, hostBase ≤ a → a < fwBase → s.hostCopy = [] → t.readByte a = s.readByte a := by
  cases torn with
  | none => exact ⟨s.dark, rfl, rfl, rfl, rfl, rfl, fun _ => rfl, fun a hlo hhi hcopy => readByte_dark hcopy hlo hhi⟩
  | some b =>
    exact ⟨_, rfl, rfl, rfl, rfl, rfl, nofun, fun a hlo hhi hcopy => readByte_dark hcopy hlo hhi⟩

/-- Settles O56: each transition with its own effect; the start by its attempts, the reset by what it destroys. -/
theorem hostTransitions : Obligations.HostTransitions := by
  unfold Obligations.HostTransitions
  intro s
  refine ⟨fun x hready hopen hlock => featAccWrite_stores x hready hopen hlock, fun x h => featAccWrite_ignored x h, ⟨rfl, rfl⟩,
    fun w => ptpadjWrite_shifts s w, fun w => ⟨fun hlo hhi => ?capTaken, fun hbad => ?capIgnored, rfl⟩,
    fun l hup hready hfeature => ?frames,
    fun port f hport hheads => framePublish_single hport hheads, fun port hport => portDown_downs hport,
    fun h v => ⟨HostLink.raise_open h v, HostLink.raise_masked h v⟩,
    fun dev d hreach hd hdev => linkRetryTimeout_cuts hreach hd hdev, fun d hd hlanes => domainTableInstall_installs hd hlanes,
    fun fails hdark => congrArg Host.Outcome.next (if_neg (ne_true_of_eq_false hdark)), fun good fails => ?start,
    fun hhalted hdead => ContextReset.functionLevelReset_clears hhalted hdead, fun unit => ?corrected, fun owner => ?window,
    fun die c hc hdie hhot => thermalLimit_cools (dieAt_of_core hc hdie hhot),
    fun die c hc hdie hhot hready => thermalStop_stops (dieAt_of_core hc hdie hhot) hready,
    fun watts => powerAverageWindow_judges s watts, fun torn => powerLoss_darkens s torn⟩
  case capTaken => rw [registerWrite_cap, if_pos ⟨hlo, hhi⟩]
  case capIgnored => rw [registerWrite_cap, if_neg hbad]
  case frames =>
    have hframe := frameArrival_port0 hup hready hfeature l
    refine ⟨hframe false, fun hrunt => ?_, fun hlong => ?_, fun hmin hmax => ?_⟩
    · rw [hframe, if_neg (by decide), if_pos hrunt]; rfl
    · rw [hframe, if_neg (by decide), if_neg (by omega), if_pos hlong]; rfl
    · rw [hframe, if_neg (by decide), if_neg (Nat.not_lt.mpr hmin), if_neg (Nat.not_lt.mpr hmax)]; rfl
  case start =>
    obtain ⟨hqueues, hgrids, hdomains⟩ := PowerOnStart.startWith_empties s good fails
    refine ⟨hqueues, hgrids, hdomains, fun r hr => ?_, fun hbad => PowerOnStart.runStart_notReady hbad fails⟩
    obtain ⟨hready, hskip, -⟩ := PowerOnStart.startWith_ready hr
    exact ⟨hready, hskip, PowerOnStart.startWith_record hr⟩
  case corrected =>
    by_cases hcount : Store.getD (s.turnWindow (unitOwner unit)).errCounts unit 0 = 3
    · obtain ⟨t, ht, hhost⟩ := correctedError_raises s unit hcount
      exact ⟨t, ht, fun hne => absurd hcount hne, fun _ => hhost⟩
    · exact ⟨_, correctedError_counts s unit hcount, fun _ => rfl, fun heq => absurd heq hcount⟩
  case window =>
    refine ⟨rfl, fun c hc => errWindow_core hc, fun hsame => s.turnWindow_same owner hsame, fun hturned => ?_⟩
    rw [turnWindow_turns hturned]
    exact ⟨rfl, (Store.getD_putD 0 _ owner owner _).trans (if_pos rfl)⟩

end Sys2Proof.HostTransitions
end

section
/-! PROOFS. The invariant: what changes no memory and no core keeps it, and so do the operations of the model on the state's tables, on
memory, on barriers, signals and requests. -/
namespace Sys2Proof.Machine

/-- A change of other fields keeps the invariant. -/
theorem State.Inv.same {s t : State} (h : s.Inv) (hsame : (t.mem, t.cores, t.proofs) = (s.mem, s.cores, s.proofs)) : t.Inv := by
  obtain ⟨hmem, hcores, hproofs⟩ : t.mem = s.mem ∧ t.cores = s.cores ∧ t.proofs = s.proofs := by simpa using hsame
  exact ⟨hmem ▸ h.memory, hcores ▸ h.cores, hproofs ▸ h.proofs⟩

theorem State.Inv.foldl {β : Type} {f : State → β → State} {l : List β} {s : State} (hf : ∀ s e, s.Inv → (f s e).Inv) (h : s.Inv) :
    (l.foldl f s).Inv :=
  List.foldlRecOn l f h fun _ hs e _ => hf _ e hs

theorem State.Inv.ite {p : Prop} [Decidable p] {s t : State} (hs : s.Inv) (ht : t.Inv) : (if p then s else t).Inv := by
  split
  · exact hs
  · exact ht

section
variable {s : State} (h : s.Inv)
include h

/-! ## The tables of records -/

theorem State.Inv.setGang {g : Gang} : (s.setGang g).Inv := h.same (by rfl)
theorem State.Inv.setBlock {b : Block} : (s.setBlock b).Inv := h.same (by rfl)
theorem State.Inv.setCluster {c : Cluster} : (s.setCluster c).Inv := h.same (by rfl)
theorem State.Inv.setGrid {g : Grid} : (s.setGrid g).Inv := h.same (by rfl)
theorem State.Inv.setRoot {r : Root} : (s.setRoot r).Inv := h.same (by rfl)
theorem State.Inv.setQueue {q : Queue} : (s.setQueue q).Inv := h.same (by rfl)
theorem State.Inv.setStream {x : Stream} : (s.setStream x).Inv := h.same (by rfl)
theorem State.Inv.updGang {uid : Nat} {f : Gang → Gang} : (s.updGang uid f).Inv := h.same (by simp)
theorem State.Inv.updBlock {uid : Nat} {f : Block → Block} : (s.updBlock uid f).Inv := h.same (by simp)
theorem State.Inv.updCluster {uid : Nat} {f : Cluster → Cluster} : (s.updCluster uid f).Inv := h.same (by simp)
theorem State.Inv.updGrid {uid : Nat} {f : Grid → Grid} : (s.updGrid uid f).Inv := h.same (by simp)
theorem State.Inv.updRoot {grid : Nat} {f : Root → Root} : (s.updRoot grid f).Inv := h.same (by simp)
theorem State.Inv.updQueue {q : Nat} {f : Queue → Queue} : (s.updQueue q f).Inv := h.same (by simp)

/-! ## The cores: a record that replaces another has its key -/

/-- Cores that are changed one by one, each keeping its key, are the cores of the device. -/
theorem State.Inv.mapCores {t : State} {f : Core → Core} (hcores : t.cores = s.cores.map f)
    (hrest : (t.mem, t.proofs) = (s.mem, s.proofs)) (hkey : ∀ c, (f c).key = c.key) : t.Inv := by
  obtain ⟨hmem, hproofs⟩ : t.mem = s.mem ∧ t.proofs = s.proofs := by simpa using hrest
  exact ⟨hmem ▸ h.memory, by simpa [hcores, Function.comp_def, hkey] using h.cores, hproofs ▸ h.proofs⟩

theorem State.Inv.mapProofs {t : State} {f : Proof → Proof} (hproofs : t.proofs = s.proofs.map f)
    (hrest : (t.mem, t.cores) = (s.mem, s.cores)) (hkey : ∀ p, (f p).key = p.key) : t.Inv := by
  obtain ⟨hmem, hcores⟩ : t.mem = s.mem ∧ t.cores = s.cores := by simpa using hrest
  exact ⟨hmem ▸ h.memory, hcores ▸ h.cores, by simpa [hproofs, Function.comp_def, hkey] using h.proofs⟩

theorem State.Inv.setCore {c : Core} : (s.setCore c).Inv :=
  h.mapCores (f := fun d => if d.key == c.key then c else d) rfl rfl (fun d => by split <;> simp_all)

theorem State.Inv.setProof {p : Proof} : (s.setProof p).Inv :=
  h.mapProofs (f := fun q => if q.key == p.key then p else q) rfl rfl (fun q => by split <;> simp_all)

theorem State.Inv.updCore {key : Nat} {f : Core → Core} : (s.updCore key f).Inv := by
  unfold State.updCore
  split
  · exact h.setCore
  · exact h

theorem State.Inv.updProof {key : Nat} {f : Proof → Proof} : (s.updProof key f).Inv := by
  unfold State.updProof
  split
  · exact h.setProof
  · exact h

/-! ## Memory: every write keeps its canonical form -/

/-- A change of memory that keeps its canonical form, and of other fields. -/
theorem State.Inv.withMemory {t : State} (hmem : Memory.wf t.mem = true) (hrest : (t.cores, t.proofs) = (s.cores, s.proofs)) :
    t.Inv := by
  obtain ⟨hcores, hproofs⟩ : t.cores = s.cores ∧ t.proofs = s.proofs := by simpa using hrest
  exact ⟨hmem, hcores ▸ h.cores, hproofs ▸ h.proofs⟩

theorem State.Inv.writeByte {a : Nat} {b : Byte} : (s.writeByte a b).Inv := by
  refine h.withMemory (s.writeByte_wf a b h.memory) ?_
  unfold State.writeByte
  split <;> rfl

theorem State.Inv.hostWrite {a : Nat} {b : Byte} : (s.hostWrite a b).Inv := h.withMemory (s.hostWrite_wf a b h.memory) rfl

theorem State.Inv.touchLine {line : Nat} : (s.touchLine line).Inv := by
  unfold State.touchLine
  split
  · exact h.same (by rfl)
  · exact h

theorem State.Inv.writeBack {sel : Nat → Bool} : (s.writeBack sel).Inv := h.withMemory (s.writeBack_wf sel h.memory) rfl
theorem State.Inv.dropCopies {sel : Nat → Bool} : (s.dropCopies sel).Inv := h.withMemory (s.dropCopies_wf sel h.memory) rfl
theorem State.Inv.writeBytes {l : List (Nat × Byte)} : (s.writeBytes l).Inv := State.Inv.foldl (fun _ _ h => h.writeByte) h

theorem State.Inv.noteWrites {rank : Nat} {scope : Nat} {lines : List Nat} {except : Option Nat} :
    (s.noteWrites rank scope lines except).Inv :=
  .same h (by rfl)

theorem State.Inv.homeWrites {l : List (Nat × Byte)} {except : Option Nat} : (s.homeWrites l except).Inv := by
  unfold State.homeWrites
  dsimp only
  refine .foldl (fun _ _ h => ?_) ?_
  · split
    · split
      · exact .noteWrites h
      · exact h
    · exact h
  · exact .noteWrites (.writeBytes h)

theorem State.Inv.sendItem {dev lane : Nat} {it : FabItem} : (s.sendItem dev lane it).Inv :=
  .ite (.same h (by rfl)) (.same h (by rfl))
theorem State.Inv.intoBlock {block : Nat} {l : List (Nat × Byte)} : (s.intoBlock block l).Inv := .updBlock h
theorem State.Inv.intoCluster {cluster : Nat} {l : List (Nat × Byte)} : (s.intoCluster cluster l).Inv := .updCluster h
theorem State.Inv.sendStores {gang op : Nat} {l : List (Nat × Byte)} : (s.sendStores gang op l).Inv :=
  .foldl (fun _ _ h => .sendItem h) h
theorem State.Inv.applyGrant {gang op : Nat} {blk : Block} {carried : List (Nat × Byte)} {lvl : Nat} :
    (s.applyGrant gang op blk carried lvl).Inv := by
  unfold State.applyGrant
  extract_lets t s1 s2 s3 s4 home s5 s6 lines s7 s8
  have h1 : s1.Inv := .ite (.updBlock h) h
  have h2 : s2.Inv := .ite (.updCluster h1) h1
  have h7 : s7.Inv := .noteWrites (.sendStores (.writeBytes (.intoCluster (.intoBlock h2))))
  have h8 : s8.Inv := .ite (.noteWrites h7) h7
  exact .ite (.noteWrites h8) h8

theorem State.Inv.tlbAdd {t : Tlb} {cap : Nat} : (s.tlbAdd t cap).Inv := .same h (by rfl)
theorem State.Inv.requestAts {w : Waiter} {pasid va : Nat} {wr : Bool} : (s.requestAts w pasid va wr).Inv :=
  .ite (.same h (by rfl)) (.same h (by rfl))
theorem State.Inv.requestPri {pasid page : Nat} {wr : Bool} {waiters : List Waiter} : (s.requestPri pasid page wr waiters).Inv :=
  .ite (.same h (by rfl)) (.same h (by rfl))
theorem State.Inv.dropWaiter {w : Waiter} : (s.dropWaiter w).Inv := .same h (by rfl)
theorem State.Inv.ask {q : Ask} : (s.ask q).Inv := .requestAts h
theorem State.Inv.addOp {uid : Nat} {f : Nat → Op} : (s.addOp uid f).Inv := .updGang (.same h (by rfl))
theorem State.Inv.advance {uid slice : Nat} : (s.advance uid slice).Inv := .updGang h
theorem State.Inv.abortGrid {grid : Nat} {fr : Option FaultRec} : (s.abortGrid grid fr).Inv := .same h (by rfl)
theorem State.Inv.addTrace {core : Nat} {t : TraceRec} : (s.addTrace core t).Inv := .ite h (.updProof h)

theorem State.Inv.guestRecord {g : Gang} {kind event : Nat} {pc : W64} : (s.guestRecord g kind event pc).Inv := by
  unfold State.guestRecord
  split
  · exact .ite h (.addTrace h)
  · exact h

theorem State.Inv.endHandling {core uid : Nat} : (s.endHandling core uid).Inv := .updProof (.updGang (.updGang h))
theorem State.Inv.handlerFault {core uid : Nat} {f : Raise} : (s.handlerFault core uid f).Inv := .addTrace (.endHandling h)

theorem State.Inv.addEvent {core : Nat} {e : DbgEvent} : (s.addEvent core e).Inv := by
  unfold State.addEvent
  dsimp only
  refine .updProof ?_
  split
  · exact .guestRecord h
  · exact h

theorem State.Inv.raiseMsi {v : Nat} : (s.raiseMsi v).Inv := .same h (by rfl)

theorem State.Inv.stopCompositor {core : Nat} : (s.stopCompositor core).Inv := by
  unfold State.stopCompositor
  extract_lets t
  have ht : t.Inv := h.raiseMsi
  exact .ite (ht.same (by rfl)) (ht.same (by rfl))

theorem State.Inv.unhandled {uid : Nat} {f : Raise} {first : Option Code} : (s.unhandled uid f first).Inv := by
  unfold State.unhandled
  split
  · exact h
  · dsimp only
    split
    · exact .stopCompositor h
    · exact h
    · split
      · exact .addEvent (.updGang h)
      · exact .abortGrid h

theorem State.Inv.takeFault {uid slice : Nat} {f : Raise} : (s.takeFault uid slice f).Inv := by
  unfold State.takeFault
  split
  · exact h
  · split
    · exact h
    · dsimp only
      split
      · exact .setGang h
      · split
        · exact .handlerFault (.setGang h)
        · split
          · exact .ite (.unhandled (.setGang (.setGang h))) (.setGang (.setGang h))
          · exact .ite (.setGang (.setGang h)) (.ite (.unhandled (.setGang (.setGang h))) (.setGang (.setGang h)))

theorem State.Inv.endStep {uid slice : Nat} : (s.endStep uid slice).Inv := by
  unfold State.endStep
  split
  · exact h
  · split
    · exact .ite (.ite (.setGang h) (.addEvent (.setGang h))) h
    · exact h

theorem State.Inv.faultOut {uid slice : Nat} {f : Raise} : (s.faultOut uid slice f).Inv := .endStep (.takeFault h)
theorem State.Inv.holdAs {c : Ctx} {st : GStatus} : (s.holdAs c st).Inv := .updGang h
theorem State.Inv.raiseErr {c : Ctx} {e : Err} : (s.raiseErr c e).Inv := .takeFault (.updGang h)

/-! ## What an engine, a lane of a compositor or a step answers -/

end

/-- What an engine's access that is made satisfies. -/
def Eng.All {α : Type} (P : α → Prop) : Eng α → Prop
  | .ok x => P x
  | _ => True

theorem Eng.all_true {α : Type} (x : Eng α) : x.All fun _ => True := by cases x <;> trivial

theorem Eng.All.bind {α β : Type} {P : α → Prop} {Q : β → Prop} {x : Eng α} {f : α → Eng β} (hx : x.All P)
    (hf : ∀ a, P a → (f a).All Q) : (x.bind f).All Q := by
  cases x with
  | ok a => exact hf a hx
  | miss q => trivial
  | bad k => trivial

theorem Eng.All.of_eq {α : Type} {P : α → Prop} {x : Eng α} {a : α} (hx : x.All P) (heq : x = .ok a) : P a := by
  rw [heq] at hx
  exact hx

/-- An access that is read alone. -/
theorem Eng.All.read {α β : Type} {Q : β → Prop} {x : Eng α} {f : α → Eng β} (hf : ∀ a, (f a).All Q) : (x.bind f).All Q :=
  x.all_true.bind fun a _ => hf a

theorem Eng.all_ite {α : Type} {P : α → Prop} {p : Prop} [Decidable p] {x y : Eng α} (hx : x.All P) (hy : y.All P) :
    (if p then x else y).All P := by
  split
  · exact hx
  · exact hy

section
variable {s : State} (h : s.Inv)
include h

theorem State.Inv.setBar {blk : Block} {b : Bar} : (s.setBar blk b).Inv := .ite (.updBlock h) (.ite (.updCluster h) (.updGrid h))

theorem State.Inv.arrive {uid n : Nat} {slices : Slices} : (s.arrive uid n slices).Inv := by
  unfold State.arrive
  split
  · exact h
  · split
    · exact h
    · split
      · exact h
      · exact .ite (.updGang (.setBar h)) (.setBar h)

theorem State.Inv.retestBars {uid : Nat} : (s.retestBars uid).Inv := .foldl (fun _ _ h => .arrive h) h
theorem State.Inv.takePhase {blk : Block} {b : Bar} : (s.takePhase blk b).Inv := .same (.setBar h) (by rfl)

theorem State.Inv.withdrawBars {blk : Block} {uid : Nat} : (s.withdrawBars blk uid).Inv := by
  unfold State.withdrawBars
  refine .foldl (fun _ _ h => ?_) ?_
  · split
    · exact .setBar h
    · exact h
  · exact h

theorem State.Inv.sendArrival {uid n : Nat} {slices : Slices} {pc : W64} : (s.sendArrival uid n slices pc).Inv := by
  unfold State.sendArrival
  split
  · exact h
  · exact .ite (.setGang h) (.arrive h)

theorem State.Inv.fireTriggers {uid kind : Nat} {test : Trigger → Bool} : (s.fireTriggers uid kind test).Inv := by
  unfold State.fireTriggers
  split
  · exact h
  · split
    · exact .ite (.setGang h) (.ite (.setGang h) h)
    · exact h

theorem State.Inv.watchSees {uid : Nat} {issuing : Option Nat} {pc : W64} {op : Option Op} {l : List Seen} :
    (s.watchSees uid issuing pc op l).Inv := by
  unfold State.watchSees
  split
  · exact h
  · split
    · split
      · exact h
      · dsimp only
        split
        · exact .setProof h
        · exact .addEvent (.updGang (.setProof h))
    · exact h

theorem State.Inv.requestMiss {g : Gang} {pasid : Nat} {wr : Bool} {e : Miss} : (s.requestMiss g pasid wr e).Inv :=
  .ite (.requestPri h) (.requestAts h)
theorem State.Inv.requestMisses {g : Gang} {r : Group} {pasid : Nat} {wr : Bool} {misses : List Miss} :
    (s.requestMisses g r pasid wr misses).Inv :=
  .foldl (fun _ _ h => .requestMiss h) h
theorem State.Inv.awaitPages {c : Ctx} {pasid : Nat} {wr : Bool} {misses : List Miss} {pend : Lanes} :
    (s.awaitPages c pasid wr misses pend).Inv :=
  .updGang (.requestMisses h)

theorem State.Inv.waitFor {c : Ctx} {pasid : Nat} {wr : Bool} {misses : List Miss} {pend : Lanes} {op : Option Nat} :
    (s.waitFor c pasid wr misses pend op).Inv := by
  unfold State.waitFor
  dsimp only
  split
  · exact .takeFault (.updGang (.requestMisses h))
  · exact .updGang (.requestMisses h)

theorem State.Inv.joinOp {c : Ctx} {new : Nat → Op} {f : Op → Op} : (s.joinOp c new f).1.Inv := by
  unfold State.joinOp
  split
  · exact .updGang (h.same (by rfl))
  · dsimp only
    exact .addOp h

theorem State.Inv.touchHost {l : List (Nat × Nat)} : (s.touchHost l).Inv := by
  unfold State.touchHost
  refine .foldl (fun _ _ h => ?_) ?_
  · split
    · exact .touchLine h
    · exact h
  · exact h

theorem State.Inv.resolveOp {uid : Nat} {issuing : Option Nat} {o : Op} : (s.resolveOp uid issuing o).Inv := by
  unfold State.resolveOp
  split
  · exact .ite (.watchSees (.setGang (.touchHost h))) (.setGang (.touchHost h))
  · exact h

theorem State.Inv.enterStore {uid : Nat} {hit : Hit} {n x : Nat} : (s.enterStore uid hit n x).Inv :=
  .ite (.updGang h) (.writeBytes h)

theorem State.Inv.storeLanes {uid n : Nat} {l : List (Hit × Nat)} : (s.storeLanes uid n l).1.Inv :=
  List.foldlRecOn (motive := fun a : State × List Seen => a.1.Inv) l _ h fun _ ha _ _ => ha.enterStore

theorem State.Inv.issueCommit {c : Ctx} {lvl : Nat} {cond : Option Nat} {arrive : Option (Nat × Slices × Bool)} :
    (s.issueCommit c lvl cond arrive).Inv :=
  .updGang (.addOp h)
theorem State.Inv.takeAllot {c : Ctx} {dst : Opd} {new more : Nat} : (c.takeAllot s dst new more).Inv := .setGang h
theorem State.Inv.releaseFor {c : Ctx} {op : Nat} : (s.releaseFor c op).Inv := .updGang h
theorem State.Inv.addResult {c : Ctx} {writes : List RegWrite} {sticky : W32} : (s.addResult c writes sticky).Inv := .addOp h
theorem State.Inv.queueMatrix {g : Gang} {op : Nat} : (s.queueMatrix g op).Inv := .updCore h

theorem State.Inv.startHead {core part : Nat} : (s.startHead core part).Inv := by
  unfold State.startHead
  split
  · exact h
  · split
    · exact h
    · split
      · exact h
      · split
        · split
          · exact h
          · split
            · exact .setGang h
            · exact .setGang h
        · exact h

theorem State.Inv.setPending {q : Nat} : (s.setPending q).Inv := .ite h (.same h (by rfl))
theorem State.Inv.wakeLane {slot : Nat} : (s.wakeLane slot).Inv := .ite (.same h (by rfl)) (.same h (by rfl))

theorem State.Inv.wakeQueue {q : Queue} : (s.wakeQueue q).Inv := by
  unfold State.wakeQueue
  split
  · exact .ite (.wakeLane h) (.setPending h)
  · exact .setPending h

theorem State.Inv.compRec {num idx qnum lane : Nat} : (s.compRec num idx qnum lane).Inv := by
  unfold State.compRec
  split
  · exact h
  · extract_lets base clock rec r s1 s2 s3
    have h2 : s2.Inv := .writeBytes (.foldl (fun _ _ h => .writeBytes h) h)
    have h3 : s3.Inv := .ite h2 (.writeBytes h2)
    exact h3.same (by rfl)

theorem State.Inv.notice {a : Nat} : (s.notice a).Inv := .foldl (fun _ _ h => .ite (.wakeQueue h) h) (.compRec h)

theorem State.Inv.signalHome {a : Nat} : (s.signalHome a).Inv := by
  unfold State.signalHome
  split
  · exact .writeBack h
  · exact h

theorem State.Inv.atHome {l : List (Nat × Byte)} : (s.atHome l).Inv := .homeWrites (.foldl (fun _ _ h => .hostWrite h) h)

theorem State.Inv.signalOp {a op : Nat} {x : W64} : (s.signalOp a op x).2.Inv := by
  unfold State.signalOp
  extract_lets t old new
  have ht : t.Inv := .signalHome h
  split
  · exact ht
  · exact .notice (.atHome ht)

theorem State.Inv.queueReq {c : Ctx} {r : ReqOp} {due : Option Nat} : (s.queueReq c r due).Inv := .updCore (.addOp h)
theorem State.Inv.writeKick {c : Ctx} {x : W64} : (s.writeKick c x).Inv := .updCore h
theorem State.Inv.endRequest {uid id reason : Nat} : (s.endRequest uid id reason).Inv := .updGang (.dropWaiter h)
theorem State.Inv.updReq {uid id : Nat} {f : ReqOp → ReqOp} : (s.updReq uid id f).Inv := .updGang h

theorem State.Inv.countDown {block : Nat} {bar : Option Nat} {n : Nat} : (s.countDown block bar n).Inv := by
  unfold State.countDown
  split
  · split
    · exact .setBar h
    · exact h
  · exact h

theorem State.Inv.landUnit {r : ReqOp} {l : List (Nat × Byte)} : (s.landUnit r l).Inv := .homeWrites h

theorem State.Inv.swapLine {a b : Nat} : (s.swapLine a b).All State.Inv := Eng.all_ite trivial h.homeWrites

theorem State.Inv.moveUnit {uid id u : Nat} {g : Gang} {r : ReqOp} : (s.moveUnit uid id u g r).All State.Inv := by
  unfold State.moveUnit
  refine Eng.all_ite (h.swapLine.bind fun t ht => ?_) (.read fun ps => .read fun cells => ?_)
  · exact ht.updReq.countDown
  · dsimp only
    split
    · exact Eng.all_ite trivial h.sendItem.updReq
    · exact h.landUnit.updReq.countDown

theorem State.Inv.performSignal {uid id : Nat} {g : Gang} {r : ReqOp} : (s.performSignal uid id g r).All State.Inv := by
  unfold State.performSignal
  split
  · exact h
  · exact .read fun a => Eng.all_ite trivial h.signalOp.updReq

theorem State.Inv.engineEnd {uid id : Nat} {x : Eng State} (hx : x.All State.Inv) : (s.engineEnd uid id x).Inv := by
  unfold State.engineEnd
  split
  · exact hx
  · exact h.ask
  · exact h.endRequest

omit h in
/-- One piece of work behind others, of which one may have failed. -/
theorem moveAll_unit {x : Eng (State × Option Nat)} {f : State → Eng State} (hx : x.All fun y => y.1.Inv)
    (hf : ∀ s, s.Inv → (f s).All State.Inv) : (x.bind fun y => match y.2 with
      | some _ => .ok y
      | none => match f y.1 with
        | .ok s => .ok (s, none)
        | .miss q => .miss q
        | .bad rank => .ok (y.1, some rank)).All fun y : State × Option Nat => y.1.Inv := by
  refine hx.bind fun y hy => ?_
  split
  · exact hy
  · have hy' := hf _ hy
    split
    · next t ht => exact hy'.of_eq ht
    · trivial
    · exact hy

theorem State.Inv.moveAll {uid id : Nat} {g : Gang} {r : ReqOp} : (s.moveAll uid id g r).All State.Inv := by
  unfold State.moveAll
  extract_lets unit x x'
  have hunits : x.All fun y : State × Option Nat => y.1.Inv :=
    List.foldlRecOn (motive := fun x : Eng (State × Option Nat) => x.All fun y : State × Option Nat => y.1.Inv) _ _ h
      fun _ hx u _ => moveAll_unit hx fun _ hs => hs.moveUnit
  have hall : x'.All fun y : State × Option Nat => y.1.Inv := Eng.all_ite (moveAll_unit hunits fun _ hs => hs.performSignal) hunits
  refine hall.bind fun y hy => ?_
  dsimp only [Eng.All]
  split
  · exact hy.endRequest
  · exact hy

theorem State.Inv.moveReq {core req unit : Nat} : (s.moveReq core req unit).Inv := by
  unfold State.moveReq
  split
  · exact h
  · exact .ite h (.ite (.ite h (.ite h.endRequest (h.engineEnd h.moveAll))) (.ite h (.ite h.endRequest (h.engineEnd h.moveUnit))))

theorem State.Inv.fetchBlock {core : Nat} : (s.fetchBlock core).Inv := by
  unfold State.fetchBlock
  split
  · exact h
  · split
    · exact h
    · split
      · exact h
      · dsimp only
        split
        · exact .endRequest h
        · split
          · exact .endRequest h
          · split
            · exact h
            · split
              · exact .endRequest h
              · exact .endRequest h
              · exact .ite (.endRequest h) (.updGang h)

theorem State.Inv.blockStatus {g : Gang} {r : ReqOp} : (s.blockStatus g r).Inv := by
  unfold State.blockStatus
  split
  · exact .homeWrites h
  · exact h

theorem State.Inv.startGang {gr : Grid} {block core part : Nat} {x : GangShape} : (s.startGang gr block core part x).Inv :=
  .updBlock (.same h (by rfl))

theorem State.Inv.startBlock {gr : Grid} {blockid cluster crank core : Nat} : (s.startBlock gr blockid cluster crank core).Inv := by
  unfold State.startBlock
  split
  · exact h
  · exact .foldl (fun _ _ h => .startGang h) (.updCluster (.same h (by rfl)))

theorem State.Inv.startCluster {gr : Grid} {blockid : Nat} {cores : List Nat} : (s.startCluster gr blockid cores).Inv :=
  .foldl (fun _ _ h => .startBlock h) (.same h (by rfl))
theorem State.Inv.ioWrite {addrs : List Nat} {l : List Byte} : (s.ioWrite addrs l).Inv := .homeWrites h
theorem State.Inv.acquireSystem {pasid : Nat} : (s.acquireSystem pasid).Inv := .dropCopies h
theorem State.Inv.releaseSystem : (s.releaseSystem).Inv := .writeBack h
theorem State.Inv.startScope {q : Queue} {p : Pkt} : (s.startScope q p).Inv := .ite (.acquireSystem h) h
theorem State.Inv.startRec {q : Queue} {slot : Nat} {p : Pkt} : (s.startRec q slot p).Inv := .compRec h
theorem State.Inv.startPkt {q : Queue} {slot : Nat} {p : Pkt} : (s.startPkt q slot p).Inv := .startRec (.startScope h)
theorem State.Inv.newGrid {q : Queue} {packet : Nat} {d : Desc} {events after : W64} {parent : Option (Nat × Grid)} :
    (s.newGrid q packet d events after parent).Inv :=
  .same h (by rfl)
theorem State.Inv.ageQueues {qnum slot : Nat} : (s.ageQueues qnum slot).Inv := .same h (by rfl)
theorem State.Inv.updCopy {q p : Nat} {f : Copy → Copy} : (s.updCopy q p f).Inv := .same h (by rfl)

theorem State.Inv.moveCopy {k u : Nat} : (s.moveCopy k u).Inv := by
  unfold State.moveCopy
  split
  · exact h
  · split
    · exact h
    · dsimp only
      split
      · exact .updCopy (.dropWaiter h)
      · exact .updCopy (.dropWaiter h)
      · split
        · exact .ask h
        · exact .updCopy (.dropWaiter h)
        · split
          · exact .ite (.updCopy (.dropWaiter h)) (.updCopy (.sendItem h))
          · exact .updCopy (.homeWrites h)

theorem State.Inv.keepLanes {c : Ctx} {rest : List Nat} {op : Option Nat} : (s.keepLanes c rest op).Inv := .updGang h
theorem State.Inv.clearWake {core : Nat} : (s.clearWake core).Inv := .ite (.same h (by rfl)) (.same h (by rfl))

theorem State.Inv.settleTrap {uid : Nat} {pc : W64} : (s.settleTrap uid pc).Inv := by
  unfold State.settleTrap
  split
  · exact h
  · split
    · exact h
    · exact .ite (.setGang h) (.ite (.ite (.unhandled h) (.setGang h)) h)

theorem State.Inv.releaseGuest {uid : Nat} {stepping : Bool} : (s.releaseGuest uid stepping).Inv := by
  unfold State.releaseGuest
  split
  · exact h
  · split
    · exact h
    · dsimp only
      split
      · exact .abortGrid (.setGang h)
      · exact .setGang h

theorem State.Inv.sinkWrite {io : Party} {d : DbgDomain} {off : Nat} {l : List Byte} : (s.sinkWrite io d off l).All State.Inv :=
  .read fun _ => h.ioWrite

theorem State.Inv.drainTrace {core : Nat} {d : DbgDomain} : (s.drainTrace core d).All State.Inv := by
  unfold State.drainTrace
  split
  · exact h
  · refine .read fun cons => ?_
    extract_lets r recs
    refine Eng.All.bind (P := State.Inv) ?records fun s1 h1 => h1.sinkWrite.bind fun s2 h2 => Eng.All.bind (P := State.Inv) ?lost
      fun s3 h3 => (h3.same (by rfl)).updProof
    case records =>
      exact List.foldlRecOn (motive := Eng.All State.Inv) recs _ h fun _ hx _ _ => hx.bind fun _ hs => hs.sinkWrite
    case lost => exact Eng.all_ite h2 (.read fun _ => h2.sinkWrite)

theorem State.Inv.drainDomain {core : Nat} {d : DbgDomain} : (s.drainDomain core d).Inv := by
  unfold State.drainDomain
  split
  · next t ht => exact (h.drainTrace.of_eq ht).dropWaiter
  · exact h.ask
  · exact h.dropWaiter.updProof

theorem State.Inv.drainNow {core : Nat} : (s.drainNow core).Inv := .foldl (fun _ _ h => .drainDomain h) h

end

end Sys2Proof.Machine
end

section
/-! PROOFS. The invariant: every instruction word keeps it. -/
namespace Sys2Proof.Machine

section
variable {s : State} (h : s.Inv)
include h

/-! ## Words: a word keeps the invariant where its effect does -/

/-- Issuing a word keeps what its effect keeps. -/
theorem State.Inv.issueWord {coll mask : Bool} {body : Ctx → State → Res} (hb : ∀ c, (body c s).All State.Inv) :
    (issueWord coll mask body s).Inv :=
  issueWord_keeps State.Inv (fun _ _ _ h => h.advance) (fun _ _ _ h => h.holdAs) (fun _ _ _ _ h => h.takeFault)
    (fun _ _ _ h => h.raiseErr) _ _ _ _ h fun c _ => hb c

/-- A word whose effect is in its gang alone. -/
theorem State.Inv.gangWord {coll mask : Bool} {f : Ctx → State → Gang} :
    (Machine.issueWord coll mask (fun c s => .ok (s.setGang (f c s))) s).Inv := h.issueWord fun _ => h.setGang

theorem State.Inv.scalarForm {f : Nat → Gang → Gang} : (scalarForm f s).Inv := by
  unfold Machine.scalarForm
  exact h.gangWord
theorem State.Inv.maskCount {f : Nat → Gang → Lanes → Gang} : (maskCount f s).Inv := by
  unfold Machine.maskCount
  exact h.gangWord
theorem State.Inv.vecForm {mask : MaskSel} {gang : Bool} {t : Ty} {dst : Opd} {f : Nat → LaneFn} :
    (vecForm mask gang t dst f s).Inv :=
  h.gangWord
theorem State.Inv.vecForm32 {mask : MaskSel} {gang : Bool} {dst : Opd} {f : Nat → LaneFn} : (vecForm32 mask gang dst f s).Inv :=
  h.gangWord
theorem State.Inv.longForm {op : FVal → FVal × W32} {f : FmtF2} : (longForm op f s).Inv := h.issueWord fun _ => h.addResult
theorem State.Inv.crossForm {mask : MaskSel} {gang : Bool} {t : Ty} {dst : Opd} {f : Ctx → Nat → Nat → Nat} :
    (crossForm mask gang t dst f s).Inv := h.issueWord fun _ => h.addResult

theorem State.Inv.matIssue {prep : Ctx → State → Prep} : (matIssue prep s).Inv := by
  unfold Machine.matIssue
  refine h.issueWord fun c => ?_
  dsimp only
  split
  · exact h
  · split
    · exact h
    · exact h.addOp.queueMatrix

theorem State.Inv.reqIssue {rel : Bool} {mk : Ctx → State → ReqOp} : (reqIssue rel mk s).Inv := by
  unfold Machine.reqIssue
  refine h.issueWord fun c => ?_
  dsimp only
  split
  · exact h
  · exact MemoryFrame.all_ite h (MemoryFrame.all_ite trivial (.ite h.queueReq.releaseFor h.queueReq))

theorem State.Inv.debugForm {right : Option Nat} {body : Ctx → Nat → Proof → State → Res}
    (hb : ∀ c core p, (body c core p s).All State.Inv) : (debugForm right body s).Inv := by
  unfold Machine.debugForm
  refine h.issueWord fun c => ?_
  dsimp only
  split
  · split
    · trivial
    · exact MemoryFrame.all_ite (hb _ _ _) h
  · exact h

/-! ### Words of memory and of barriers -/

theorem State.Inv.memEnd {c : Ctx} {pasid : Nat} {wr : Bool} {misses : List Miss} {pend : Lanes} {op : Option Nat} :
    (c.memEnd s pasid wr misses pend op).All State.Inv := MemoryFrame.all_ite h h.waitFor

theorem State.Inv.load {c : Ctx} {ty : Ty} {scalar : Bool} {dst : Nat} {l : List (Nat × W64)} {pend : List Miss → Lanes} :
    (c.load s ty scalar dst l pend).All State.Inv := by
  unfold Ctx.load
  refine MemoryFrame.all_ite trivial ?_
  split
  · exact h
  · exact h.awaitPages
  · refine State.Inv.memEnd (State.Inv.ite ?_ h.setGang.joinOp)
    split
    · exact h.setGang.joinOp.resolveOp
    · exact h.setGang.joinOp

theorem State.Inv.store {c : Ctx} {ty : Ty} {data : Nat → Nat} {l : List (Nat × W64)} {pend : List Miss → Lanes} :
    (c.store s ty data l pend).All State.Inv := by
  unfold Ctx.store
  refine MemoryFrame.all_ite trivial ?_
  split
  · exact h
  · exact h.awaitPages
  · split
    · exact h
    · exact h.storeLanes.joinOp.watchSees.fireTriggers.memEnd

theorem State.Inv.atomic {c : Ctx} {kind : Nat} {f : FmtMA} : (c.atomic s kind f).All State.Inv := by
  unfold Ctx.atomic
  refine MemoryFrame.all_ite trivial ?_
  split
  · exact h
  · exact h.awaitPages
  · exact h.joinOp.memEnd

theorem State.Inv.arriveAt {c : Ctx} {n : Nat} {commit sleep : Bool} {lvl : Nat} :
    (c.arriveAt s n commit sleep lvl).All State.Inv := by
  unfold Ctx.arriveAt
  split
  · exact h
  · have asleep {g : Gang} : (if sleep then s.setGang g else s).Inv := .ite h.setGang h
    exact MemoryFrame.all_ite h (MemoryFrame.all_ite h (MemoryFrame.all_ite trivial
      (MemoryFrame.all_ite asleep.issueCommit asleep.sendArrival)))

theorem State.Inv.splitTo {c : Ctx} {take : Lanes} {t : W64} : (c.splitTo s take t).All State.Inv := by
  unfold Ctx.splitTo
  split
  · exact h.setGang.advance
  · exact h

/-! ### Words of a compositor -/

omit h in
/-- What a lane that acts satisfies. -/
def CRes.All {α : Type} (P : α → Prop) : CRes α → Prop
  | .ok x => P x
  | _ => True

omit h in
theorem CRes.All.bind {α β : Type} {P : α → Prop} {Q : β → Prop} {x : CRes α} {f : α → CRes β} (hx : x.All P)
    (hf : ∀ a, P a → (f a).All Q) : (x.bind f).All Q := by
  cases x with
  | ok a => exact hf a hx
  | miss q => trivial
  | bad k => trivial
  | ill => trivial

omit h in
theorem Eng.All.of {α : Type} {P : α → Prop} {x : Eng α} (hx : x.All P) : (CRes.of x).All P := by
  cases x with
  | ok a => exact hx
  | miss q => trivial
  | bad k => trivial

omit h in
theorem CRes.All.read {α β : Type} {Q : β → Prop} {x : Eng α} {f : α → CRes β} (hf : ∀ a, (f a).All Q) :
    ((CRes.of x).bind f).All Q :=
  x.all_true.of.bind fun a _ => hf a

omit h in
theorem CRes.all_ite {α : Type} {P : α → Prop} {p : Prop} [Decidable p] {x y : CRes α} (hx : x.All P) (hy : y.All P) :
    (if p then x else y).All P := by
  split
  · exact hx
  · exact hy

omit h in
/-- What a lane leaves beside its value meets the invariant. -/
abbrev CRes.Keeps {α : Type} (x : CRes (α × State)) : Prop := x.All fun r => r.2.Inv

theorem State.Inv.completePacket {q : Queue} {p : Pkt} {aborted : Bool} {record : Option (List Byte)} :
    (s.completePacket q p aborted record).All State.Inv := by
  unfold State.completePacket
  extract_lets io q1 q' s1
  refine .read fun recAt => .read fun sigAt => .read fun rdAt => .read fun stAt => ?_
  extract_lets s2 s3 s4 s5 s6 s7
  have h1 : s1.Inv := h.dropWaiter.compRec
  have h2 : s2.Inv := by
    cases recAt
    · exact h1
    · exact h1.ioWrite
  have h3 : s3.Inv := .ite h2.releaseSystem h2
  have h4 : s4.Inv := by
    cases sigAt
    · exact h3
    · exact h3.signalOp
  have h5 : s5.Inv := .ite h4.raiseMsi h4
  have h6 : s6.Inv := by
    cases rdAt
    · exact h5
    · exact .ite h5 h5.ioWrite.releaseSystem
  have h7 : s7.Inv := by
    cases stAt
    · exact h6
    · exact h6.ioWrite.releaseSystem
  exact h7.setQueue

theorem State.Inv.fetchPacket {slot : Nat} : (s.fetchPacket slot).Keeps := by
  unfold State.fetchPacket
  split
  · exact h
  · refine CRes.all_ite h (.read fun b => CRes.all_ite h (CRes.all_ite h (.read fun w => ?_)))
    exact h.setQueue.compRec

theorem State.Inv.pktdone {slot code off : Nat} : (s.pktdone slot code off).Keeps := by
  unfold State.pktdone
  split
  · trivial
  · split
    · trivial
    · refine CRes.all_ite trivial (CRes.all_ite h ?_)
      exact (State.Inv.completePacket (.ite h h.startPkt)).of.bind fun t ht => ht

theorem State.Inv.sigrmw {slot op rel : Nat} {ea x : W64} : (s.sigrmw slot op rel ea x).Keeps := by
  unfold State.sigrmw
  split
  · trivial
  · next q _ =>
    refine .read fun a => ?_
    extract_lets op' starts s1 s2 r s3
    have h1 : s1.Inv := .foldl (fun _ _ h => h.startPkt) h
    have h2 : s2.Inv := .ite h1.releaseSystem h1
    have h3 : s3.Inv := by
      unfold s3
      split
      · exact .ite h2.signalOp.compRec h2.signalOp
      · exact h2.signalOp
    exact h3.updQueue

theorem State.Inv.qsave {slot : Nat} {ea : W64} : (s.qsave slot ea).All State.Inv := by
  unfold State.qsave
  split
  · trivial
  · refine CRes.all_ite trivial (.read fun a => ?_)
    extract_lets waiting s1 moved s2 s3
    have h1 : s1.Inv := h.ioWrite.releaseSystem
    have h2 : s2.Inv := .ite (h1.same (by rfl)) h1
    have h3 : s3.Inv := .ite h2.setPending h2
    exact h3.setQueue.compRec

theorem State.Inv.qload {slot : Nat} {ea : W64} : (s.qload slot ea).Keeps := by
  unfold State.qload
  refine CRes.all_ite trivial ?_
  split
  · exact h
  · refine CRes.all_ite h (.read fun r => ?_)
    split
    · exact h
    · refine CRes.all_ite h ?_
      split
      · exact h
      · refine CRes.all_ite h ?_
        extract_lets t
        have ht : t.Inv := h.compRec
        exact (State.Inv.same ht (by rfl)).setQueue

theorem State.Inv.qarm {slot : Nat} {on : Bool} : (s.qarm slot on).Keeps := by
  unfold State.qarm
  split
  · trivial
  · extract_lets t
    have ht : t.Inv := h.setQueue.compRec
    exact CRes.all_ite (State.Inv.wakeLane (ht.same (by rfl))) ht

theorem State.Inv.dispatchPacket {slot kind off : Nat} : (s.dispatchPacket slot kind off).Keeps := by
  unfold State.dispatchPacket
  split
  · trivial
  · split
    · trivial
    · refine CRes.all_ite trivial (CRes.all_ite h (CRes.all_ite h ?_))
      extract_lets s0 t take
      have ht : t.Inv := h.startScope
      have htake {u : State} {grid : Option Nat} (hu : u.Inv) : (take u grid).Inv := hu.startRec.updQueue.ageQueues
      refine CRes.all_ite (htake (ht.same (by rfl))) (.read fun d => ?_)
      split
      · exact h.setQueue
      · exact htake ht.newGrid

theorem State.Inv.laneDone {c : Ctx} {atIssue : Bool} {writes : List RegWrite} {rest : List Nat} :
    (c.laneDone atIssue writes rest s).All State.Inv :=
  MemoryFrame.all_ite (MemoryFrame.all_ite h.updGang h.updGang.keepLanes) (MemoryFrame.all_ite h.joinOp h.joinOp.keepLanes)

theorem State.Inv.laneStop {α : Type} {c : Ctx} {x : CRes α} : (c.laneStop s x).All State.Inv := by
  unfold Ctx.laneStop
  split
  · exact h.ask
  · exact h
  · exact h

/-- A lane-wise word keeps the invariant where each lane's effect does. -/
theorem State.Inv.compIssue {atIssue : Bool} {f : Ctx → Nat → State → CRes (List RegWrite × State)} (hf : ∀ c k, (f c k s).Keeps) :
    (compIssue atIssue f s).Inv := by
  unfold Machine.compIssue
  refine h.issueWord fun c => ?_
  dsimp only
  split
  · exact h.laneDone
  · next k rest _ =>
    have hk := hf c k
    split
    · next heq => rw [heq] at hk; exact (State.Inv.dropWaiter hk).laneDone
    · exact h.ask
    · exact h.ask
    · exact h.dropWaiter.laneDone
    · exact State.Inv.laneStop (.foldl (fun _ _ h => h.dropWaiter) h)

/-! ### Every word -/

omit h in
/-- A next state that is answered meets the invariant. -/
def AnswerInv (a : Answer) : Prop := ∀ t, a = .next t → t.Inv

omit h in
theorem answerInv_next {t : State} (ht : t.Inv) : AnswerInv (.next t) := by
  rintro _ ⟨⟩
  exact ht

omit h in
theorem answerInv_ite {p : Prop} [Decidable p] {a b : Answer} (ha : AnswerInv a) (hb : AnswerInv b) :
    AnswerInv (if p then a else b) := by
  split
  · exact ha
  · exact hb

theorem State.Inv.brv {f : FmtB} : AnswerInv (exec (.brv f) s) := answerInv_next (h.issueWord fun _ => h.splitTo)

theorem State.Inv.exit {f : FmtK} : AnswerInv (exec (.exit f) s) := by
  refine answerInv_next (h.issueWord fun c => ?_)
  dsimp only
  generalize (if c.lastExit then c.gang.latchedErr 0 none true else none) = e
  cases e with
  | some e => exact h.setGang
  | none =>
    cases c.gang.place with
    | handler core => exact h.setGang.endHandling
    | compositor core => exact h.setGang.stopCompositor
    | none | press part slot | guest core gslot part => exact h.setGang.retestBars.settleTrap

theorem State.Inv.rte {f : FmtK} : AnswerInv (exec (.rte f) s) := by
  refine answerInv_next (h.issueWord fun c => ?_)
  dsimp only
  split
  · exact h.setGang.endHandling
  · exact MemoryFrame.all_ite h.setGang.settleTrap h

theorem State.Inv.srd {f : FmtS} : AnswerInv (exec (.srd f) s) := by
  refine answerInv_next (h.issueWord fun c => ?_)
  dsimp only
  split
  · exact h.setGang
  · exact h.setGang
  · exact h.setGang
  · split <;> exact h.setGang
  · exact h

theorem State.Inv.swr {f : FmtS} : AnswerInv (exec (.swr f) s) := by
  refine answerInv_next (h.issueWord fun c => ?_)
  split
  · exact h.setGang
  · exact h

theorem State.Inv.mark {f : FmtY} : AnswerInv (exec (.mark f) s) := by
  refine answerInv_next (h.issueWord fun c => ?_)
  dsimp only
  split
  · exact MemoryFrame.all_ite trivial (MemoryFrame.all_ite h h.setGang)
  · split
    · exact MemoryFrame.all_ite h h.setBlock
    · exact h
  · split
    · exact MemoryFrame.all_ite h h.setCluster
    · exact h

theorem State.Inv.abort {f : FmtY} : AnswerInv (exec (.abort f) s) := by
  refine answerInv_next (h.issueWord fun c => ?_)
  dsimp only
  split
  · exact MemoryFrame.all_ite trivial h.setGang
  · exact h.holdAs

theorem State.Inv.waitcnt {f : FmtY} : AnswerInv (exec (.waitcnt f) s) := by
  refine answerInv_next (h.issueWord fun c => MemoryFrame.all_ite trivial ?_)
  split
  · exact h.setGang
  · exact h

theorem State.Inv.barw {f : FmtY} : AnswerInv (exec (.barw f) s) := by
  refine answerInv_next (h.issueWord fun c => ?_)
  dsimp only
  split
  · exact h
  · refine MemoryFrame.all_ite h.setGang ?_
    split
    · exact MemoryFrame.all_ite h.setGang h
    · exact h

theorem State.Inv.barx {f : FmtY} : AnswerInv (exec (.barx f) s) := by
  refine answerInv_next (h.issueWord fun c => ?_)
  dsimp only
  split
  · exact h
  · exact MemoryFrame.all_ite h h.setBar

theorem State.Inv.vralloc {f : FmtS} : AnswerInv (exec (.vralloc f) s) :=
  answerInv_next (h.issueWord fun _ => MemoryFrame.all_ite h (MemoryFrame.all_ite h (MemoryFrame.all_ite
    (MemoryFrame.all_ite h h.takeAllot) (MemoryFrame.all_ite h (MemoryFrame.all_ite h.takeAllot h.setGang)))))

theorem State.Inv.sigop {f : FmtS} : AnswerInv (exec (.sigop f) s) := by
  refine answerInv_next (h.issueWord fun c => MemoryFrame.all_ite h ?_)
  split
  · exact h
  · exact h.awaitPages
  · exact h.waitFor
  · exact .ite h.addOp h.addOp.releaseFor

theorem State.Inv.rqlist {f : FmtRQ} : AnswerInv (exec (.rqlist f) s) := by
  refine answerInv_next (h.issueWord fun c => MemoryFrame.all_ite h ?_)
  split
  · exact h
  · have hq {l : List Nat} {r : Nat → ReqOp} {due : Option Nat} : (l.foldl (fun s k => s.queueReq c (r k) due) s).Inv :=
      .foldl (fun _ _ h => h.queueReq) h
    exact .ite hq.writeKick.releaseFor hq.writeKick

theorem State.Inv.dbgrd {f : FmtQ} : AnswerInv (exec (.dbgrd f) s) := by
  refine answerInv_next (h.debugForm fun c core p => ?_)
  split
  · exact h.setGang
  · exact h

theorem State.Inv.dbgwr {f : FmtQ} : AnswerInv (exec (.dbgwr f) s) := by
  refine answerInv_next (h.debugForm fun c core p => ?_)
  dsimp only
  split
  · exact h
  · split
    · exact h
    · split
      · exact h
      · exact MemoryFrame.all_ite h h.setGang

theorem State.Inv.dstep {f : FmtQ} : AnswerInv (exec (.dstep f) s) := by
  refine answerInv_next (h.debugForm fun c core p => ?_)
  split
  · exact h.releaseGuest
  · exact h

theorem State.Inv.dresume {f : FmtQ} : AnswerInv (exec (.dresume f) s) := by
  refine answerInv_next (h.debugForm fun c core p => ?_)
  split
  · exact h.setGang.releaseGuest
  · exact h

theorem State.Inv.dreturn {f : FmtQ} : AnswerInv (exec (.dreturn f) s) := by
  refine answerInv_next (h.debugForm fun c core p => ?_)
  split
  · exact h.setGang
  · exact h

theorem State.Inv.trctl {f : FmtQ} : AnswerInv (exec (.trctl f) s) := by
  refine answerInv_next (h.debugForm fun c core p => MemoryFrame.all_ite h (MemoryFrame.all_ite trivial ?_))
  refine State.Inv.foldl (fun t k ht => ?_) h
  split
  · exact ht
  · split
    · exact ht.updProof
    · exact ht.updProof
    · exact ht.drainNow
    · exact ht.addTrace

theorem State.Inv.pktld {f : FmtQ} : AnswerInv (exec (.pktld f) s) := by
  refine answerInv_next (h.compIssue fun c k => h.fetchPacket.bind fun r hr => ?_)
  split
  · exact hr
  · exact hr

theorem State.Inv.pendscan {f : FmtQ} : AnswerInv (exec (.pendscan f) s) := by
  refine answerInv_next (h.issueWord fun c => ?_)
  have hrec : (s.compRec 7 0 0 0).Inv := h.compRec
  refine MemoryFrame.all_ite hrec.holdAs (MemoryFrame.all_ite hrec.setGang.clearWake ?_)
  split
  · exact hrec.setGang
  · exact State.Inv.setGang (hrec.same (by rfl))

theorem State.Inv.maskForm {f : Nat → Gang → Lanes → Gang} : (maskForm f s).Inv := by
  unfold Machine.maskForm
  exact h.gangWord

theorem State.Inv.maskBin {op : Lanes → Lanes → Lanes} {f : FmtS} : (maskBin op f s).Inv := by
  unfold Machine.maskBin
  exact h.maskForm

/-- Every word keeps the invariant: by the form it issues through, or by its own branches. -/
theorem State.Inv.word {i : Instr} (hi : i.cls.isSome = true) : AnswerInv (exec i s) := by
  cases i with
  | smov f | smovi f | sadd f | ssub f | smul f | smulh f | sand f | sor f | sxor f | sshl f | sshr f | ssra f | smin f | smax f
  | scmp f | ssel f | sclz f | spopc f | sbfe f | sbfi f => exact answerInv_next h.scalarForm
  | mpopc f | mfirst f => exact answerInv_next h.maskCount
  | vadd f | vsub f | vmul f | vmulh f | vmad f | vand f | vor f | vxor f | vnot f | vshl f | vshr f | vsra f | vmin f | vmax f | vabs f
  | vbfe f | vbfi f | vsel f | vmov f | vmovi f | vfadd f | vfsub f | vfmul f | vfma f | vfmin f | vfmax f =>
    exact answerInv_next h.vecForm
  | vclz f | vpopc f | vadd2 f | vsub2 f | vmac2 f | vdot4 f | vqadd f | vqsub f | vshrr f | vpack f | vunpack f | vfclass f =>
    exact answerInv_next h.vecForm32
  | mand f | mor f | mxor f => exact answerInv_next h.maskBin
  | mnot f | mmov f => exact answerInv_next h.maskForm
  | vcmp f | vfcmp f | vcvt f | vfcvt f | vftoi f | vitof f | measure f | bra f | skip f
  | call f | ret f | yield f => exact answerInv_next h.gangWord
  | vfrcp f | vfrsq f | vfsqrt f | vfexp2 f | vflog2 f => exact answerInv_next h.longForm
  | vshfl f | vshflx f | vslide f | vbcast f => exact answerInv_next h.crossForm
  | vvote f | vreduce f | vscan f => exact answerInv_next (h.issueWord fun _ => h.addResult)
  | gangAll f | nop f | prefetch f => exact answerInv_next (h.issueWord fun _ => h)
  | bru f => exact answerInv_next (h.issueWord fun _ => MemoryFrame.all_ite h.setGang h)
  | brau f => exact answerInv_next (h.issueWord fun _ => MemoryFrame.all_ite h (MemoryFrame.all_ite h.setGang h))
  | brv f => exact h.brv
  | join f => exact answerInv_next (h.issueWord fun _ => MemoryFrame.all_ite h h.setGang)
  | trap f => exact answerInv_next (h.issueWord fun _ => MemoryFrame.all_ite h.setGang.takeFault h.takeFault)
  | exit f => exact h.exit
  | rte f => exact h.rte
  | srd f => exact h.srd
  | swr f => exact h.swr
  | ld f | lds f => exact answerInv_next (h.issueWord fun _ => h.load)
  | st f | sts f => exact answerInv_next (h.issueWord fun _ => h.store)
  | atom f | atomf f | atomcas f => exact answerInv_next (h.issueWord fun _ => h.atomic)
  | commit f =>
    exact answerInv_next (h.issueWord fun _ => MemoryFrame.all_ite h (MemoryFrame.all_ite trivial h.issueCommit))
  | commitc f => exact answerInv_next (h.issueWord fun _ => h.issueCommit)
  | mark f => exact h.mark
  | abort f => exact h.abort
  | waitcnt f => exact h.waitcnt
  | bara f | bars f => exact answerInv_next (h.issueWord fun _ => h.arriveAt)
  | barw f => exact h.barw
  | barx f => exact h.barx
  | vralloc f => exact h.vralloc
  | launch f => exact answerInv_next (h.issueWord fun _ => MemoryFrame.all_ite h h.addOp.releaseFor)
  | sigop f => exact h.sigop
  | mma f | mmas f | mmac f | mmag f | qhist f | qscale f | qcvt f | qclr f => exact answerInv_next h.matIssue
  | rqcopy f | rqfill f | rqgather f | rqscatter f | rqputs f | rqred f | rqswap f => exact answerInv_next h.reqIssue
  | rqlist f => exact h.rqlist
  | pktld f => exact h.pktld
  | pktdone f => exact answerInv_next (h.compIssue fun _ _ => h.pktdone.bind fun _ hr => hr)
  | sigrmw f => exact answerInv_next (h.compIssue fun _ _ => h.sigrmw.bind fun _ hr => hr)
  | qsave f => exact answerInv_next (h.compIssue fun _ _ => h.qsave.bind fun _ hr => hr)
  | qload f => exact answerInv_next (h.compIssue fun _ _ => h.qload.bind fun _ hr => hr)
  | qarm f => exact answerInv_next (h.compIssue fun _ _ => h.qarm.bind fun _ hr => hr)
  | dispatch f => exact answerInv_next (h.compIssue fun _ _ => h.dispatchPacket.bind fun _ hr => hr)
  | pendscan f => exact h.pendscan
  | dbgrd f => exact h.dbgrd
  | dbgwr f => exact h.dbgwr
  | dstep f => exact h.dstep
  | dresume f => exact h.dresume
  | dreturn f => exact h.dreturn
  | wpset f => exact answerInv_next (h.debugForm fun _ _ _ => MemoryFrame.all_ite h h.updProof)
  | trctl f => exact h.trctl
  | vhrd f => exact answerInv_next (h.debugForm fun _ _ _ => MemoryFrame.all_ite h h.setGang)
  | _ => exact (Bool.false_ne_true hi).elim

end

end Sys2Proof.Machine
end

section
/-! PROOFS. The invariant: the transitions of the scheduler, the imposers and memory keep it. -/
namespace Sys2Proof.Machine

section
variable {s : State} (h : s.Inv)
include h

theorem State.Inv.updPart {core part : Nat} {f : Part → Part} : (s.updPart core part f).Inv := .updCore h
theorem State.Inv.keepReady {core part port : Nat} : (s.keepReady core part port).Inv := .same h (by rfl)
theorem State.Inv.parkFetch {g : Gang} {r : Group} {va : W64} : (s.parkFetch g r va).Inv :=
  .setGang (.ite (.requestPri h) (.requestAts h))
theorem State.Inv.beginClause {g : Gang} {r : Group} {core part port : Nat} {cost : Nat} {hdr : W64} {hd : Header}
    {words : List W64} {idx : Nat} : (s.beginClause g r core part port cost hdr hd words idx).Inv := by
  unfold State.beginClause
  exact .fireTriggers (.updPart (.setGang h))

theorem State.Inv.startCand {core part port : Nat} {c : Cand} : (s.startCand core part port c).Inv := by
  unfold State.startCand
  dsimp only
  split
  · exact .setGang h
  · split
    · exact .parkFetch h
    · exact .takeFault h
    · split
      · exact .takeFault (.setGang h)
      · exact .beginClause h

theorem State.Inv.merge {gang : Nat} : AnswerInv (execMerge gang s) := answerInv_next (.updGang h)
theorem State.Inv.joinRelease {gang : Nat} : AnswerInv (execJoinRelease gang s) := answerInv_next (.updGang h)
theorem State.Inv.mergePart {core part : Nat} : (s.mergePart core part).Inv := .same h (by rfl)

theorem State.Inv.clauseStart {core part port : Nat} : AnswerInv (execClauseStart core part port s) := by
  unfold execClauseStart
  refine answerInv_next ?_
  split
  · exact h
  · dsimp only
    split
    · exact .startCand (.keepReady (.mergePart h))
    · exact .keepReady (.mergePart h)

theorem State.Inv.collectiveWaitEnd {gang : Nat} : AnswerInv (execCollectiveWaitEnd gang s) := by
  unfold execCollectiveWaitEnd
  refine answerInv_next ?_
  split
  · exact h
  · dsimp only
    split
    · exact h
    · split
      · exact h
      · split
        · exact .setGang h
        · split
          · exact .faultOut h
          · exact h

theorem State.Inv.budgetRefill {core part : Nat} : AnswerInv (execBudgetRefill core part s) := answerInv_next (.updPart h)
theorem State.Inv.tempRefresh {core temp : Nat} : AnswerInv (execTempRefresh core temp s) :=
  answerInv_next (.same (.updCore h) (by rfl))
theorem State.Inv.meetClaim {grid : Nat} {cores : List Nat} : (s.meetClaim grid cores).Inv := .same h (by rfl)

theorem State.Inv.afterMisses {die : Nat} : (s.afterMisses die).Inv := by
  unfold State.afterMisses
  refine .foldl (fun _ _ h => ?_) ?_
  · refine .foldl (fun _ _ h => ?_) ?_
    · split
      · refine .foldl (fun _ _ h => ?_) ?_
        · split
          · exact .ask h
          · exact h
        · exact h
      · exact h
    · exact h
  · exact h

theorem State.Inv.blockPlace {die : Nat} : AnswerInv (execBlockPlace die s) := by
  unfold execBlockPlace
  refine answerInv_next ?_
  split
  · exact h
  · split
    · exact .dropWaiter (.setGrid h)
    · split
      · exact .startCluster (.meetClaim (.setGrid h))
      · exact .afterMisses h

theorem State.Inv.roomAdvertise {die : Nat} : AnswerInv (execRoomAdvertise die s) := answerInv_next (.ite h (.same h (by rfl)))

theorem State.Inv.blockPass {die : Nat} : AnswerInv (execBlockPass die s) := by
  unfold execBlockPass
  refine answerInv_next ?_
  split
  · exact h
  · dsimp only
    split
    · exact h
    · split
      · exact .setGrid h
      · exact .same h (by rfl)

theorem State.Inv.preemptCluster {cluster : Nat} {sliced : Bool} : (s.preemptCluster cluster sliced).Inv := .same h (by rfl)

theorem State.Inv.quantumExpiry {grid : Nat} : AnswerInv (execQuantumExpiry grid s) := by
  unfold execQuantumExpiry
  refine answerInv_next ?_
  split
  · exact h
  · split
    · exact h
    · split
      · exact .preemptCluster h
      · exact h

theorem State.Inv.requestPreempt {pasid : Nat} {queue : Option Nat} : (s.requestPreempt pasid queue).Inv := .same h (by rfl)
theorem State.Inv.preemptRequest {pasid : Nat} {queue : Option Nat} : AnswerInv (execPreemptRequest pasid queue s) :=
  answerInv_next (.requestPreempt h)
theorem State.Inv.rekeyCluster {cluster : Nat} {f : Nat → Nat} : (s.rekeyCluster cluster f).Inv := .same h (by rfl)

theorem State.Inv.raiseHandOver {g : Gang} : (s.raiseHandOver g).Inv := by
  unfold State.raiseHandOver
  split
  · exact .faultOut (.setGang h)
  · exact h

theorem State.Inv.writeRecord {gr : Grid} {b : Block} : (s.writeRecord gr b).Inv := .foldl (fun _ _ h => .homeWrites h) h

theorem State.Inv.suspend {gr : Grid} {bs : List Block} : (s.suspend gr bs).Inv := by
  unfold State.suspend
  dsimp only
  split
  · exact .rekeyCluster (.same h (by rfl))
  · exact .same h (by rfl)

theorem State.Inv.contextSave {block : Nat} : AnswerInv (execContextSave block s) := by
  unfold execContextSave
  refine answerInv_next ?_
  split
  · exact h
  · dsimp only
    split
    · exact h
    · split
      · exact h
      · split
        · exact .raiseHandOver h
        · split
          · exact .abortGrid h
          · split
            · exact .suspend (.foldl (fun _ _ h => .writeRecord h) h)
            · exact .foldl (fun _ _ h => .requestAts h) h

theorem State.Inv.moveEntriesTo {uid core part : Nat} : (s.moveEntriesTo uid core part).Inv := by
  unfold State.moveEntriesTo
  exact h.mapCores rfl rfl (fun c => by dsimp only; split <;> rfl)

theorem State.Inv.moveEntries {uid : Nat} {from0 : Nat × Nat} : (s.moveEntries uid from0).Inv := by
  unfold State.moveEntries
  split
  · exact h
  · exact .ite h (.moveEntriesTo h)

theorem State.Inv.lookAgain {g : Gang} {r : Group} : (s.lookAgain g r).Inv := .foldl (fun _ _ h => .requestMiss h) (.updGang h)

theorem State.Inv.restoreGang {g : Gang} {core part : Nat} : (s.restoreGang g core part).Inv := by
  unfold State.restoreGang
  dsimp only
  refine .foldl (fun _ _ h => ?_) ?_
  · split
    · exact .lookAgain h
    · exact h
  · exact .moveEntriesTo (.setGang h)

theorem State.Inv.restoreBlock {gr : Grid} {b : Block} {core : Nat} : (s.restoreBlock gr b core).Inv := by
  unfold State.restoreBlock
  dsimp only
  split
  · exact h
  · exact .foldl (fun _ _ h => .restoreGang h) (.setBlock h)

theorem State.Inv.retranslate {gr : Grid} {cluster core : Nat} : (s.retranslate gr cluster core).2.Inv := by
  unfold State.retranslate
  dsimp only
  split
  · exact h.rekeyCluster
  · exact .foldl (fun _ _ h => h.requestAts) h

theorem State.Inv.blockRestore {die : Nat} : AnswerInv (execBlockRestore die s) := by
  unfold execBlockRestore
  refine answerInv_next ?_
  split
  · dsimp only
    split
    · refine .foldl (fun _ _ h => ?_) ?_
      · split
        · exact .restoreBlock h
        · exact h
      · exact .meetClaim (.retranslate h)
    · exact .retranslate h
  · exact h

theorem State.Inv.updOp {uid id : Nat} {f : Op → Op} : (s.updOp uid id f).Inv := .updGang h

theorem State.Inv.resolveNow {uid id : Nat} : (s.resolveNow uid id).Inv := by
  unfold State.resolveNow
  split
  · exact h
  · split
    · exact h
    · split
      · split
        · exact h
        · dsimp only
          split
          · exact .updOp (.resolveOp h)
          · exact .resolveOp h
      · exact h

theorem State.Inv.resolve {gang op : Nat} : AnswerInv (execResolve gang op s) := answerInv_next (.resolveNow h)
theorem State.Inv.afterGrant {uid id : Nat} {write : Option (Nat × W32)} : (s.afterGrant uid id write).Inv := .updGang h
theorem State.Inv.loseGrant {g : Gang} {d : Detached} {rest : List Detached} {code : Code} {a : Nat} :
    (s.loseGrant g d rest code a).Inv :=
  .setGang h

theorem State.Inv.grantHead {g : Gang} {blk : Block} {d : Detached} {rest : List Detached} : (s.grantHead g blk d rest).Inv := by
  unfold State.grantHead
  dsimp only
  split
  · exact .afterGrant (.setGang h)
  · split
    · exact .loseGrant h
    · split
      · exact .loseGrant h
      · split
        · exact .sendArrival (.afterGrant (.applyGrant (.setGang h)))
        · exact .afterGrant (.applyGrant (.setGang h))

theorem State.Inv.grantNow {uid : Nat} : (s.grantNow uid).Inv := by
  unfold State.grantNow
  split
  · exact h
  · split
    · exact .ite (.grantHead h) h
    · exact h

theorem State.Inv.grant {gang : Nat} : AnswerInv (execGrant gang s) := answerInv_next (.grantNow h)
theorem State.Inv.dropCarried {g : Gang} {blk : Block} {ln place : Nat} : (s.dropCarried g blk ln place).Inv :=
  .ite (.updCluster (.ite (.setGang h) (.updBlock (.setGang h)))) (.ite (.setGang h) (.updBlock (.setGang h)))

theorem State.Inv.writePlace {blk : Block} {place : Nat} {l : List (Nat × Byte)} : (s.writePlace blk place l).Inv := by
  unfold State.writePlace
  split
  · exact .writeBytes h
  · exact .intoBlock h
  · exact .intoCluster h

theorem State.Inv.noteAtomic {g : Gang} {blk : Block} {ln target : Nat} : (s.noteAtomic g blk ln target).Inv :=
  .ite (.noteWrites (.ite (.noteWrites (.noteWrites h)) (.noteWrites h))) (.ite (.noteWrites (.noteWrites h)) (.noteWrites h))
theorem State.Inv.finishReq {uid id : Nat} {r : AReq} {writes : List RegWrite} : (s.finishReq uid id r writes).Inv := .updOp h
theorem State.Inv.atomSeen {uid : Nat} {o : Op} {a : AtomOp} {m : Nat} {r : AReq} : (s.atomSeen uid o a m r).Inv :=
  .watchSees (.fireTriggers h)

theorem State.Inv.atomRequest {g : Gang} {blk : Block} {o : Op} {a : AtomOp} {r : AReq} : (s.atomRequest g blk o a r).Inv := by
  unfold State.atomRequest
  dsimp only
  split
  · exact .updOp (.finishReq (.dropCarried h))
  · split
    · exact .updOp (.sendItem (.ite (.noteAtomic (.dropCarried h)) (.sendItem (.noteAtomic (.dropCarried h)))))
    · exact .ite (.updOp (.finishReq (.writePlace (.writePlace (.noteAtomic (.dropCarried h))))))
        (.atomSeen (.finishReq (.writePlace (.writePlace (.noteAtomic (.dropCarried h))))))

theorem State.Inv.atomNow {uid id addr : Nat} : (s.atomNow uid id addr).Inv := by
  unfold State.atomNow
  split
  · exact h
  · split
    · split
      · split
        · exact h
        · exact .ite h (.ite (.updOp (.finishReq h)) (.atomRequest h))
      · exact h
    · exact h

theorem State.Inv.atomicRequest {gang op addr : Nat} : AnswerInv (execAtomic gang op addr s) := by
  unfold execAtomic
  refine answerInv_next ?_
  split
  · exact h
  · split
    · exact .ite h.atomNow h
    · exact h

theorem State.Inv.passAbort {g : Gang} : (s.passAbort g).Inv := by
  unfold State.passAbort
  split
  · split
    · exact .endStep (.setGang h)
    · exact h
  · exact h

theorem State.Inv.faultAbort {g : Gang} : (s.faultAbort g).Inv := by
  unfold State.faultAbort
  split
  · split
    · exact .faultOut h
    · exact h
  · exact h

theorem State.Inv.cabort {lvl : Lvl} {uid : Nat} : AnswerInv (execCabort lvl uid s) := by
  unfold execCabort
  refine answerInv_next ?_
  dsimp only
  split
  · exact h
  · exact .ite h (.ite (.foldl (fun _ _ h => .faultAbort h) h) (.foldl (fun _ _ h => .passAbort h) (.ite (.updBlock h) (.updCluster h))))

theorem State.Inv.leaveQueues {uid id : Nat} : (s.leaveQueues uid id).Inv := by
  unfold State.leaveQueues
  exact h.mapCores rfl rfl fun _ => rfl

theorem State.Inv.landOp {g : Gang} {o : Op} : (s.landOp g o).Inv := by
  unfold State.landOp
  dsimp only
  split
  · refine .watchSees ?_
    split
    · exact .dropWaiter (.leaveQueues (.blockStatus (.setGang h)))
    · exact .leaveQueues (.setGang h)
    · exact .setGang h
  · split
    · exact .dropWaiter (.leaveQueues (.blockStatus (.setGang h)))
    · exact .leaveQueues (.setGang h)
    · exact .setGang h

theorem State.Inv.performSigop {uid : Nat} {o : Op} : (s.performSigop uid o).Inv := by
  unfold State.performSigop
  split
  · exact .ite h (.updOp (.signalOp h))
  · exact h

theorem State.Inv.land {gang op : Nat} : AnswerInv (execLand gang op s) := by
  unfold execLand
  refine answerInv_next ?_
  split
  · exact h
  · split
    · exact h
    · split
      · exact h
      · dsimp only
        split
        · exact .ite (.performSigop h) h
        · split
          · exact .ite (.performSigop h) h
          · exact .ite (.landOp (.ite (.performSigop h) h)) (.ite (.performSigop h) h)

theorem State.Inv.phase {owner bar : Nat} : AnswerInv (execPhase owner bar s) := by
  unfold execPhase
  refine answerInv_next ?_
  split
  · exact h
  · split
    · exact .ite (.takePhase h) h
    · exact h

theorem State.Inv.settleCommit {uid id : Nat} : (s.settleCommit uid id).Inv := .updOp h

theorem State.Inv.unitDone {uid id u : Nat} : (s.unitDone uid id u).Inv := by
  unfold State.unitDone
  split
  · exact .ite (.endRequest (.updReq h)) (.countDown (.updReq h))
  · exact h

theorem State.Inv.deliverItem {it : FabItem} : (s.deliverItem it).Inv := by
  unfold State.deliverItem
  split
  · exact .settleCommit (.homeWrites h)
  · split
    · split
      · split
        · exact .ite (.updOp (.finishReq (.homeWrites h))) (.atomSeen (.finishReq (.homeWrites h)))
        · exact h
      · exact h
    · exact h
  · exact .unitDone (.homeWrites h)
  · exact .updCopy (.homeWrites h)

theorem State.Inv.discardItem {it : FabItem} : (s.discardItem it).Inv := by
  unfold State.discardItem
  split
  · exact .settleCommit (.updOp h)
  · split
    · split
      · exact .updOp (.finishReq h)
      · exact h
    · exact h
  · exact .endRequest (.updReq h)
  · exact .updCopy h

theorem State.Inv.deliver {src dst lane : Nat} : AnswerInv (execDeliver src dst lane s) := by
  unfold execDeliver
  refine answerInv_next ?_
  split
  · exact h
  · split
    · exact h
    · exact .ite (.discardItem (.same h (by rfl))) (.deliverItem (.same h (by rfl)))

theorem State.Inv.retireOverflow {blk : Block} {gang a : Nat} : (s.retireOverflow blk gang a).Inv := .abortGrid h

theorem State.Inv.gangRetire {gang : Nat} : AnswerInv (execGangRetire gang s) := by
  unfold execGangRetire
  refine answerInv_next ?_
  split
  · exact h
  · split
    · exact h
    · split
      · exact h
      · dsimp only
        refine .updGang (.guestRecord (.withdrawBars ?_))
        split
        · exact .retireOverflow h
        · exact .applyGrant h

omit h in
theorem Store.sorted_filter {α : Type} (p : Nat × α → Bool) (l : List (Nat × α)) (hl : Store.sorted l = true) :
    Store.sorted (l.filter p) = true := by
  induction l with
  | nil => rfl
  | cons e l ih =>
    obtain ⟨hlow, htail⟩ := (Store.sorted_cons e.1 e.2 l).mp hl
    by_cases he : p e = true
    · rw [List.filter_cons_of_pos he]
      exact (Store.sorted_cons e.1 e.2 _).mpr ⟨fun x hx => hlow x (List.mem_filter.mp hx).1, ih htail⟩
    · rw [List.filter_cons_of_neg he]
      exact ih htail

omit h in
/-- Bytes that go leave the others in their canonical form. -/
theorem Memory.wf_filter (p : Host.Cell → Bool) (m : Cells) (hm : Memory.wf m = true) : Memory.wf (m.filter p) = true := by
  obtain ⟨hsorted, hlisted⟩ := Bool.and_eq_true_iff.mp hm
  refine Bool.and_eq_true_iff.mpr ⟨Store.sorted_filter p m hsorted, List.all_eq_true.mpr fun e he => ?_⟩
  exact List.all_eq_true.mp hlisted e (List.mem_filter.mp he).1

theorem State.Inv.dropBlock {blk : Block} : (s.dropBlock blk).Inv := by
  have hcores := h.mapCores (t := { s with cores := (s.dropBlock blk).cores }) rfl rfl (fun _ => rfl)
  exact hcores.withMemory (Memory.wf_filter _ _ h.memory) rfl

theorem State.Inv.commitCluster {cl : Cluster} : (s.commitCluster cl).Inv := .updCluster (.sendStores (.noteWrites (.writeBytes h)))

theorem State.Inv.commitBlock {blk : Block} : (s.commitBlock blk).Inv := by
  unfold State.commitBlock
  dsimp only
  split
  · exact .retireOverflow h
  · exact .noteWrites (.writeBytes (.intoCluster h))

theorem State.Inv.blockRetire {block : Nat} : AnswerInv (execBlockRetire block s) := by
  unfold execBlockRetire
  refine answerInv_next ?_
  split
  · exact h
  · split
    · exact h
    · split
      · dsimp only
        split
        · exact .ite (.commitCluster (.dropBlock (.commitBlock h))) (.dropBlock (.commitBlock h))
        · exact .dropBlock (.commitBlock h)
      · exact .ite (.dropBlock h) h

theorem State.Inv.clusterRetire {cluster : Nat} : AnswerInv (execClusterRetire cluster s) := by
  unfold execClusterRetire
  refine answerInv_next ?_
  split
  · exact h
  · exact .ite (.commitCluster h) h

theorem State.Inv.reapChild {gr : Grid} {parent : Nat} : (s.reapChild gr parent).Inv := .same (.updQueue (.updBlock h)) (by rfl)

theorem State.Inv.blockEvent {gr : Grid} {blk : Block} : (s.blockEvent gr blk).All State.Inv := by
  unfold State.blockEvent
  refine Eng.all_ite h ?_
  split
  · exact h.homeWrites.notice
  · trivial
  · exact h

theorem State.Inv.childRecord {gr : Grid} : (s.childRecord gr).All State.Inv := by
  unfold State.childRecord
  split
  · refine .read fun a => ?_
    split
    · exact h.ioWrite
    · exact h
  · exact h

theorem State.Inv.reapEnded {block : Nat} : (s.reapEnded block).Inv := .foldl (fun _ _ h => .reapChild h) h

theorem State.Inv.blockCompletionEvent {block : Nat} : AnswerInv (execBlockCompletionEvent block s) := by
  unfold execBlockCompletionEvent
  refine answerInv_next ?_
  extract_lets t
  have ht : t.Inv := h.reapEnded
  split
  · exact ht
  · split
    · exact ht
    · refine .ite ht ?_
      split
      · exact ht.ask
      · exact ht
      · next u hu =>
        extract_lets t1 gr' t2 t3
        have h1 : t1.Inv := (ht.blockEvent.of_eq hu).dropWaiter
        have h2 : t2.Inv := State.Inv.setGrid (h1.same (by rfl))
        have h3 : t3.Inv := .ite (h2.same (by rfl)) h2
        split
        · refine .ite ?_ h3
          split
          · next v hv => exact (h3.childRecord.of_eq hv).dropWaiter.reapChild
          · exact h1.ask
          · exact h1
        · exact h3

theorem State.Inv.answerChild {op : Nat} {gr : Grid} {blk : Block} {q : Queue} {a : W64} :
    (s.answerChild op gr blk q a).All fun r => r.2.Inv := by
  unfold State.answerChild
  refine Eng.all_ite h (.read fun d => ?_)
  split
  · exact h
  · exact .ite h.newGrid.updBlock h.newGrid.updBlock.updQueue

theorem State.Inv.childNow {uid id : Nat} : (s.childNow uid id).Inv := by
  unfold State.childNow
  split
  · exact h
  · split
    · split
      · refine .ite h ?_
        split
        · exact h.ask
        · exact h
        · next x t ht =>
          have hchild : t.Inv := h.answerChild.of_eq ht
          exact hchild.dropWaiter.updOp
      · exact .ite h.updOp h
      · exact h
    · exact h

theorem State.Inv.childLaunch {gang op : Nat} : AnswerInv (execChildLaunch gang op s) := by
  unfold execChildLaunch
  refine answerInv_next ?_
  split
  · exact h
  · split
    · exact .ite (.childNow h) h
    · exact h

theorem State.Inv.takeDue {d : DueItem} : (s.takeDue d).Inv := by
  unfold State.takeDue
  split
  · exact .grantNow h
  · split
    · split
      · split
        · split
          · exact .atomNow h
          · exact h
        · exact .performSigop h
      · exact h
    · exact h
  · exact .childNow h
  · split
    · exact .ite (.moveReq h) (.fetchBlock h)
    · exact h
  · split
    · exact .startHead h
    · exact h

theorem State.Inv.dueClock {root : Nat} : AnswerInv (execDueClock root s) := by
  unfold execDueClock
  refine answerInv_next ?_
  split
  · exact .ite (.takeDue h) h
  · exact h

theorem State.Inv.trapEntry {gang : Nat} : AnswerInv (execTrapEntry gang s) := by
  unfold execTrapEntry
  refine answerInv_next ?_
  split
  · exact h
  · dsimp only
    split
    · split
      · exact h
      · split
        · exact h
        · split
          · exact .setGang h
          · exact .ite (.unhandled (.setGang h)) (.setGang h)
    · split
      · exact h
      · split
        · exact h
        · split
          · exact .setGang h
          · exact .ite (.unhandled (.setGang h)) (.setGang h)

theorem State.Inv.resumeWaiting {pasid : Nat} : (s.resumeWaiting pasid).Inv := .same h (by rfl)
theorem State.Inv.parkWaiters {l : List (Nat × Nat)} : (s.parkWaiters l).Inv := .foldl (fun _ _ h => .updGang h) h

theorem State.Inv.refusePage {l : List (Nat × Nat)} {page : Nat} {code : Code} : (s.refusePage l page code).Inv := by
  unfold State.refusePage
  refine .foldl (fun _ _ h => ?_) ?_
  · split
    · exact h
    · split
      · exact h
      · exact .ite (.faultOut h) (.setGang h)
  · exact h

theorem State.Inv.areaFails {pasid page : Nat} {wr : Bool} {l : List Waiter} : (s.areaFails pasid page wr l).Inv :=
  .ite h (.foldl (fun _ _ h => .abortGrid h) (.foldl (fun _ _ h => .updGang h) h))

theorem State.Inv.endRequests {l : List Waiter} : (s.endRequests l).Inv := by
  unfold State.endRequests
  refine .foldl (fun _ _ h => ?_) ?_
  · split
    · split
      · exact .endRequest h
      · exact h
    · exact h
  · exact h

theorem State.Inv.pageFails {pasid page : Nat} {wr : Bool} {l : List Waiter} {code : Code} :
    (s.pageFails pasid page wr l code).Inv :=
  .areaFails (.refusePage (.endRequests (.same h (by rfl))))
theorem State.Inv.noTranslation {a : Ats} : (s.noTranslation a).Inv := .ite (.ite h (.parkWaiters (.requestPri h))) (.pageFails h)
theorem State.Inv.fillTlb {a : Ats} {log2 : Nat} {own : Bool} {frame : Nat} {r w : Bool} : (s.fillTlb a log2 own frame r w).Inv :=
  .ite (.foldl (fun _ _ h => .tlbAdd (.tlbAdd h)) h) (.same (.foldl (fun _ _ h => .tlbAdd (.tlbAdd h)) h) (by rfl))

omit h in
theorem answerInv_fault {f : Fault} : AnswerInv (.fault f) := fun _ he => by cases he

theorem State.Inv.atsCompletion {pasid page : Nat} {ans : Bool × AtsAnswer} : AnswerInv (execAtsCompletion pasid page ans s) := by
  unfold execAtsCompletion
  split
  · exact answerInv_next h
  · extract_lets t
    have ht : t.Inv := h.same (by rfl)
    split
    · exact answerInv_next ht.noTranslation.resumeWaiting
    · exact answerInv_ite (answerInv_next h) (answerInv_ite answerInv_fault (answerInv_ite (answerInv_next ht.noTranslation.resumeWaiting)
        (answerInv_next ht.fillTlb.resumeWaiting)))

theorem State.Inv.priResponse {pasid page : Nat} {ans : Bool × PriAnswer} : AnswerInv (execPriResponse pasid page ans s) := by
  unfold execPriResponse
  refine answerInv_next ?_
  split
  · exact h
  · dsimp only
    split
    · exact .same h (by rfl)
    · split
      · exact .resumeWaiting (.same h (by rfl))
      · exact .resumeWaiting (.pageFails (.same h (by rfl)))

theorem State.Inv.invalidation {pasid lo hi : Nat} : AnswerInv (execInvalidation pasid lo hi s) :=
  answerInv_next (.foldl (fun _ _ h => .rekeyCluster h) (.same h (by rfl)))

theorem State.Inv.invalidationCompletion {pasid lo hi : Nat} : AnswerInv (execInvalidationCompletion pasid lo hi s) := by
  unfold execInvalidationCompletion
  refine answerInv_next ?_
  split
  · exact h
  · exact .ite (.same h (by rfl)) h

end

end Sys2Proof.Machine
end

section
/-! PROOFS. The invariant: the transitions of the compositors, the proof cores and the host keep it. -/
namespace Sys2Proof.Machine

section
variable {s : State} (h : s.Inv)
include h

theorem State.Inv.kick {queue : Nat} {x : BitVec 64} : AnswerInv (execKick queue x s) := by
  unfold execKick
  refine answerInv_next ?_
  split
  · exact h
  · dsimp only
    split
    · exact .setPending (.same h (by rfl))
    · exact .ite (.compRec (.same h (by rfl))) (.wakeQueue (.ite (.setQueue (.compRec (.same h (by rfl))))
        (.compRec (.same h (by rfl)))))

theorem State.Inv.afterPacket {qnum : Nat} {x : Eng State} {f : State → State} (hx : x.All State.Inv)
    (hf : ∀ s, s.Inv → (f s).Inv) : (s.afterPacket qnum x f).Inv := by
  unfold State.afterPacket
  split
  · refine hf _ ?_
    split
    · exact State.Inv.wakeQueue hx
    · exact hx
  · exact h.ask
  · exact h

theorem State.Inv.completeLaunch {q : Queue} {p : Pkt} : (s.completeLaunch q p).Inv := by
  unfold State.completeLaunch
  split
  · exact h
  · exact .ite h (h.afterPacket h.completePacket fun _ ht => ht.same (by rfl))

theorem State.Inv.completeCopy {q : Queue} {p : Pkt} : (s.completeCopy q p).Inv := by
  unfold State.completeCopy
  split
  · exact h
  · exact .ite h (h.afterPacket h.completePacket fun _ ht => ht.same (by rfl))

theorem State.Inv.packetComplete {queue idx : Nat} : AnswerInv (execPacketComplete queue idx s) := by
  unfold execPacketComplete
  refine answerInv_next ?_
  split
  · exact h
  · split
    · exact h
    · exact .ite h (.ite (.completeLaunch h) (.ite (.completeCopy h) h))

theorem State.Inv.pendscanWake {comp : Nat} : AnswerInv (execPendscanWake comp s) := answerInv_next (.ite h (.same h (by rfl)))

theorem State.Inv.readSignals {q : Queue} {p : Pkt} {l : List (Nat × W64)} : (s.readSignals q p l).1.Inv := by
  induction l generalizing s p with
  | nil => exact h
  | cons e l ih =>
    unfold State.readSignals
    split
    · exact ih h
    · split
      · exact ih h.ask
      · exact ih h
      · have hread {a : Nat} {n : Nat} : ((s.signalOp a 2 0).2.compRec 4 n q.qnum 0).Inv := h.signalOp.compRec
        dsimp only
        split
        · exact hread
        · split
          · exact hread
          · exact ih hread

theorem State.Inv.recheckPacket {q : Queue} {p : Pkt} : (s.recheckPacket q p).Inv := by
  unfold State.recheckPacket
  extract_lets x t
  have ht : t.Inv := by
    unfold t x
    split
    · exact h.updQueue
    · exact h.readSignals.updQueue
  split
  · exact ht.afterPacket ht.completePacket fun _ hu => hu
  · exact ht

theorem State.Inv.recheckQueue {q : Queue} : (s.recheckQueue q).Inv := by
  unfold State.recheckQueue
  dsimp only
  split
  · exact h
  · refine .wakeQueue ?_
    split
    · exact h
    · refine .foldl (fun _ _ h => ?_) ?_
      · split
        · exact .recheckPacket h
        · exact h
      · exact h

theorem State.Inv.signalRecheck {comp : Nat} : AnswerInv (execSignalRecheck comp s) := by
  unfold execSignalRecheck
  refine answerInv_next ?_
  refine .foldl (fun _ _ h => ?_) ?_
  · split
    · exact .recheckQueue h
    · exact h
  · exact h

theorem State.Inv.setBank {core : Nat} {b : Bank} : (s.setBank core b).Inv := .ite (.same h (by rfl)) (.same h (by rfl))
theorem State.Inv.startBank {core : Nat} : (s.startBank core).Inv := .same h (by rfl)
theorem State.Inv.bankSwitch {comp : Nat} : AnswerInv (execBankSwitch comp s) := answerInv_next (.ite (.startBank (.setBank h)) h)
theorem State.Inv.reportTrigger {core trig status : Nat} : (s.reportTrigger core trig status).Inv := .updCore h
theorem State.Inv.clearCounts {block : Nat} : (s.clearCounts block).Inv := .same h (by rfl)

theorem State.Inv.movePulled {g : Gang} {q : PullReq} {core gslot part : Nat} : (s.movePulled g q core gslot part).Inv := by
  unfold State.movePulled
  dsimp only
  refine .addEvent ?_
  split
  · exact .guestRecord (.moveEntries (.updGang (.clearCounts (.reportTrigger h))))
  · exact .moveEntries (.updGang (.clearCounts (.reportTrigger h)))

theorem State.Inv.pull {gang : Nat} : AnswerInv (execPull gang s) := by
  unfold execPull
  refine answerInv_next ?_
  split
  · exact h
  · split
    · exact h
    · split
      · exact .setGang h
      · split
        · exact h
        · split
          · split
            · exact .setGang (.reportTrigger h)
            · exact .setGang h
          · exact .ite h (.ite (.raiseHandOver h) (.movePulled h))

theorem State.Inv.truncateSink {d : DbgDomain} : (s.truncateSink d).All State.Inv := by
  unfold State.truncateSink
  refine .read fun cons => Eng.All.bind (P := State.Inv) ?_ fun t ht => .read fun fl => ht.sinkWrite
  exact Eng.all_ite h (h.sinkWrite.bind fun t ht => ht.sinkWrite)

theorem State.Inv.closeDomain {pasid : Nat} : (s.closeDomain pasid).Inv := by
  unfold State.closeDomain
  exact State.Inv.mapProofs (h.dropWaiter (w := drainWork ioKey pasid)) rfl rfl fun _ => rfl

theorem State.Inv.dropWatches {pasid : Nat} : (s.dropWatches pasid).Inv := by
  unfold State.dropWatches
  exact h.mapProofs rfl rfl fun _ => rfl

theorem State.Inv.dropHandlers {pasid : Nat} : (s.dropHandlers pasid).Inv := by
  unfold State.dropHandlers
  refine h.mapProofs rfl rfl fun p => ?_
  split
  · split <;> rfl
  · rfl

theorem State.Inv.settleRevoke {pasid : Nat} : (s.settleRevoke pasid).Inv := by
  unfold State.settleRevoke
  refine .ite h ?_
  split
  · exact h
  · extract_lets t1 t2
    have h2 : t2.Inv := by
      refine .foldl (fun t k ht => ?_) h.dropWatches.dropHandlers
      split
      · exact ht.drainDomain
      · exact ht
    refine .ite h2 ?_
    split
    · exact h2
    · split
      · next t ht => exact (h2.truncateSink.of_eq ht).closeDomain
      · exact h2.ask
      · exact h2.closeDomain

theorem State.Inv.wakeGuest {g : Gang} : (s.wakeGuest g).Inv := by
  unfold State.wakeGuest
  split
  · exact h
  · exact .updGang h

theorem State.Inv.sendHome {g : Gang} : (s.sendHome g).Inv := by
  unfold State.sendHome
  dsimp only
  split
  · exact .abortGrid (.settleRevoke (.wakeGuest (.moveEntries (.setGang (.guestRecord h)))))
  · exact .settleRevoke (.wakeGuest (.moveEntries (.setGang (.guestRecord h))))

theorem State.Inv.guestReturn {gang : Nat} : AnswerInv (execGuestReturn gang s) := by
  unfold execGuestReturn
  refine answerInv_next ?_
  split
  · exact h
  · split
    · exact h
    · exact .ite h (.ite (.setGang h) (.ite (.raiseHandOver (.setGang h)) (.sendHome (.setGang h))))

theorem State.Inv.arrivalMessage {gang : Nat} : AnswerInv (execArrivalMessage gang s) := by
  unfold execArrivalMessage
  refine answerInv_next ?_
  split
  · exact h
  · split
    · exact h
    · exact .arrive (.setGang h)

theorem State.Inv.releaseMessage {gang : Nat} : AnswerInv (execReleaseMessage gang s) := by
  unfold execReleaseMessage
  refine answerInv_next ?_
  split
  · exact h
  · exact .ite (.wakeGuest h) h

theorem State.Inv.clauseCountMessage {guest gang : Nat} : AnswerInv (execClauseCountMessage guest gang s) := by
  unfold execClauseCountMessage
  refine answerInv_next ?_
  split
  · exact h
  · exact .updGang h

theorem State.Inv.newHandler {core pasid : Nat} {image : W64} : (s.newHandler core pasid image).Inv := .same h (by rfl)

theorem State.Inv.debugHandlerEntry {core : Nat} : AnswerInv (execDebugHandlerEntry core s) := by
  unfold execDebugHandlerEntry
  refine answerInv_next ?_
  split
  · exact h
  · split
    · dsimp only
      split
      · exact .setProof h
      · split
        · exact .ite (.setProof h) (.newHandler (.setProof h))
        · exact .updProof (.setGang (.ite (.setProof h) (.newHandler (.setProof h))))
    · exact h

theorem State.Inv.traceDrain {core : Nat} : AnswerInv (execTraceDrain core s) :=
  answerInv_next (.foldl (fun _ _ h => .settleRevoke h) (.drainNow h))

theorem State.Inv.disarmTriggers {pasid : Nat} : (s.disarmTriggers pasid).Inv := by
  unfold State.disarmTriggers
  refine h.mapCores rfl rfl fun c => ?_
  split <;> rfl

theorem State.Inv.revokeKernel {pasid : Nat} : (s.revokeKernel pasid).Inv := by
  unfold State.revokeKernel
  extract_lets t u
  have ht : t.Inv := h.disarmTriggers
  have hu : u.Inv := ht.mapProofs rfl rfl fun _ => rfl
  exact .ite h.settleRevoke hu.settleRevoke

theorem State.Inv.revokeFirmware : (s.revokeFirmware).Inv := by
  unfold State.revokeFirmware
  split
  · exact h
  · exact .same (.writeBytes (.ite h (.writeBytes (.writeBytes h)))) (by rfl)

theorem State.Inv.hostWriteBytes {a : Nat} {l : List Byte} : (s.hostWriteBytes a l).Inv := .foldl (fun _ _ h => .hostWrite h) h
theorem State.Inv.featAccWrite {x : BitVec 128} : AnswerInv (execFeatAccWrite x s) := answerInv_next (.ite h (.same h (by rfl)))
theorem State.Inv.lockFeatures : (s.lockFeatures).Inv := .same h (by rfl)

omit h in
/-- What a host command leaves satisfies. -/
def Cmd.All (P : State → Prop) : Cmd → Prop
  | .fin _ s => P s
  | .wait s => P s

omit h in
theorem Cmd.all_ite {P : State → Prop} {p : Prop} [Decidable p] {x y : Cmd} (hx : x.All P) (hy : y.All P) :
    (if p then x else y).All P := by
  split
  · exact hx
  · exact hy

omit h in
theorem Cmd.All.settle {c : Cmd} (hc : c.All State.Inv) {tag : Byte} : (c.settle tag).Inv := by
  cases c with
  | fin st s => exact State.Inv.same hc (by rfl)
  | wait s => exact hc

theorem State.Inv.issueCmd {op : Nat} {tag : Byte} {arg : BitVec 48} {run : State → Cmd}
    (hrun : ∀ s, s.Inv → (run s).All State.Inv) : (s.issueCmd op tag arg run).Inv := by
  unfold State.issueCmd
  exact .ite (h.same (by rfl)) (hrun _ (h.same (by rfl))).settle

theorem State.Inv.writeDirectory {qnum : Nat} {qcb : W64} {pasid : Nat} : (s.writeDirectory qnum qcb pasid).Inv := .writeBytes h
theorem State.Inv.discardAts {pasid : Nat} : (s.discardAts pasid).Inv := .same h (by rfl)
theorem State.Inv.stopMark {pasid : Nat} : (s.stopMark pasid).Inv := .same h (by rfl)
theorem State.Inv.tearDown {pasid : Nat} : (s.tearDown pasid).Inv := by
  unfold State.tearDown
  extract_lets t
  have ht : t.Inv := h.parkWaiters
  exact State.Inv.same (ht.discardAts (pasid := pasid)) (by rfl)

theorem State.Inv.haltLaunches {pasid : Nat} : (s.haltLaunches pasid).Inv := .same h (by rfl)
theorem State.Inv.discardLaunches {pasid : Nat} : (s.discardLaunches pasid).Inv :=
  .same (.foldl (fun _ _ h => .dropBlock h) h) (by rfl)

theorem State.Inv.writeDead {q : Queue} : (s.writeDead q).All State.Inv := by
  refine .read fun a => ?_
  split
  · exact h.ioWrite.releaseSystem
  · exact h

theorem State.Inv.killQueue {q : Queue} : (s.killQueue q).Inv := .writeDirectory (.setQueue h)

theorem State.Inv.destroy {pasid : Nat} : (s.destroy pasid).All State.Inv := by
  unfold State.destroy
  extract_lets qs
  refine Eng.All.bind (P := State.Inv) ?_ fun t ht => ?_
  · exact List.foldlRecOn (motive := Eng.All State.Inv) qs _ h fun _ hx _ _ => hx.bind fun _ hs => hs.writeDead
  · extract_lets u v
    have hv : v.Inv := .foldl (fun _ _ h => h.killQueue) ht.discardLaunches.revokeKernel
    exact hv.same (by rfl)

theorem State.Inv.markRunning {arg : Nat} : (s.markRunning arg).Inv := .hostWriteBytes h
theorem State.Inv.reportVerify {v : Verify} {status : Nat} : (s.reportVerify v status).Inv := .raiseMsi (.hostWriteBytes h)
theorem State.Inv.fillBank {core : Nat} {payload : List Byte} : (s.fillBank core payload).Inv := .setBank (.writeBytes h)
theorem State.Inv.spoilBank {core : Nat} : (s.spoilBank core).Inv := .setBank h
theorem State.Inv.endFwVerify {v : Verify} {st : Nat} : (s.endFwVerify v st).Inv :=
  .reportVerify (.ite (.foldl (fun _ _ h => .fillBank h) (.same (.same h (by rfl)) (by rfl)))
    (.foldl (fun _ _ h => .spoilBank h) (.same h (by rfl))))

theorem State.Inv.fwVerifyDone {unchanged : Bool} : AnswerInv (execFwVerifyDone unchanged s) := by
  unfold execFwVerifyDone
  refine answerInv_next ?_
  split
  · exact h
  · exact .endFwVerify h

theorem State.Inv.acceptToken {b : List Byte} : (s.acceptToken b).Inv :=
  .ite (.revokeFirmware (.ite (.same h (by rfl)) (.same h (by rfl)))) (.revokeKernel (.ite (.same h (by rfl)) (.same h (by rfl))))
theorem State.Inv.installToken {b : List Byte} : (s.installToken b).Inv := .same h (by rfl)
theorem State.Inv.takeToken {v : Verify} {b : List Byte} : (s.takeToken v b).Inv :=
  .ite (.same h (by rfl)) (.reportVerify (.installToken (.same h (by rfl))))
theorem State.Inv.endUnlock {v : Verify} {st : Nat} : (s.endUnlock v st).Inv :=
  .ite (.takeToken (.acceptToken h)) (.reportVerify (.same h (by rfl)))

theorem State.Inv.unlockVerifyDone {unchanged : Bool} : AnswerInv (execUnlockVerifyDone unchanged s) := by
  unfold execUnlockVerifyDone
  refine answerInv_next ?_
  split
  · exact h
  · split
    · exact .takeToken h
    · exact .endUnlock h

/-! ### Host commands -/

theorem State.Inv.registerQcb {qcb : W64} {pasid : Nat} : (s.registerQcb qcb pasid).All State.Inv := by
  unfold State.registerQcb
  split
  · exact h.ask
  · exact h
  · exact h
  · dsimp only
    split
    · exact h
    · exact Cmd.all_ite h (State.Inv.lockFeatures (.writeDirectory (h.same (by rfl))))

theorem State.Inv.cmdRegisterQueue {arg : Nat} : (s.cmdRegisterQueue arg).All State.Inv := by
  unfold State.cmdRegisterQueue
  split
  · exact h
  · exact Cmd.all_ite h h.registerQcb

theorem State.Inv.cmdTeardown {arg : Nat} : (s.cmdTeardown arg).All State.Inv := by
  unfold State.cmdTeardown
  split
  · exact h
  · exact Cmd.all_ite h.tearDown.stopMark h

theorem State.Inv.cmdDestroy {arg : Nat} : (s.cmdDestroy arg).All State.Inv := by
  unfold State.cmdDestroy
  split
  · exact h
  · exact Cmd.all_ite h.haltLaunches h

theorem State.Inv.cmdPreempt {arg : Nat} : (s.cmdPreempt arg).All State.Inv := by
  unfold State.cmdPreempt
  split
  · exact h
  · exact Cmd.all_ite h h.requestPreempt

theorem State.Inv.cmdLoadFw {arg : Nat} : (s.cmdLoadFw arg).All State.Inv := by
  unfold State.cmdLoadFw
  split
  · exact h
  · exact Cmd.all_ite h (Cmd.all_ite h (State.Inv.markRunning (h.same (by rfl))))

theorem State.Inv.endKeyslot {a st : Nat} : (s.endKeyslot a st).All State.Inv :=
  Cmd.all_ite (h.same (by rfl)) h

theorem State.Inv.cmdKeyslot {arg : Nat} {unchanged : Bool} : (s.cmdKeyslot arg unchanged).All State.Inv := by
  unfold State.cmdKeyslot
  split
  · exact h
  · exact Cmd.all_ite h (Cmd.all_ite h h.endKeyslot)

theorem State.Inv.cmdUnlock {arg : Nat} : (s.cmdUnlock arg).All State.Inv := by
  unfold State.cmdUnlock
  split
  · exact h
  · exact Cmd.all_ite h (Cmd.all_ite h (State.Inv.markRunning (h.same (by rfl))))

theorem State.Inv.cmdDomainSet {arg : Nat} : (s.cmdDomainSet arg).All State.Inv := by
  unfold State.cmdDomainSet
  split
  · exact h
  · refine Cmd.all_ite h ?_
    split
    · exact h
    · exact h.same (by rfl)

theorem State.Inv.cmdStreamSet {arg : Nat} : (s.cmdStreamSet arg).All State.Inv := by
  unfold State.cmdStreamSet
  refine Cmd.all_ite h (Cmd.all_ite h ?_)
  split
  · exact h
  · exact State.Inv.lockFeatures (h.same (by rfl))

theorem State.Inv.cmdStreamMap {arg : Nat} : (s.cmdStreamMap arg).All State.Inv := by
  unfold State.cmdStreamMap
  split
  · exact h
  · exact Cmd.all_ite h (h.same (by rfl))

theorem State.Inv.registerQueue {tag : BitVec 8} {arg : BitVec 48} : AnswerInv (execRegisterQueue tag arg s) :=
  answerInv_next (h.issueCmd fun _ ht => ht.cmdRegisterQueue)
theorem State.Inv.teardownPasid {tag : BitVec 8} {arg : BitVec 48} : AnswerInv (execTeardownPasid tag arg s) :=
  answerInv_next (h.issueCmd fun _ ht => ht.cmdTeardown)
theorem State.Inv.destroyCtx {tag : BitVec 8} {arg : BitVec 48} : AnswerInv (execDestroyCtx tag arg s) :=
  answerInv_next (h.issueCmd fun _ ht => ht.cmdDestroy)
theorem State.Inv.preempt {tag : BitVec 8} {arg : BitVec 48} : AnswerInv (execPreempt tag arg s) :=
  answerInv_next (h.issueCmd fun _ ht => ht.cmdPreempt)
theorem State.Inv.loadFw {tag : BitVec 8} {arg : BitVec 48} : AnswerInv (execLoadFw tag arg s) :=
  answerInv_next (h.issueCmd fun _ ht => ht.cmdLoadFw)
theorem State.Inv.keyslotWrite {tag : BitVec 8} {arg : BitVec 48} {unchanged : Bool} :
    AnswerInv (execKeyslotWrite tag arg unchanged s) :=
  answerInv_next (h.issueCmd fun _ ht => ht.cmdKeyslot)
theorem State.Inv.unlock {tag : BitVec 8} {arg : BitVec 48} : AnswerInv (execUnlock tag arg s) :=
  answerInv_next (h.issueCmd fun _ ht => ht.cmdUnlock)
theorem State.Inv.domainSet {tag : BitVec 8} {arg : BitVec 48} : AnswerInv (execDomainSet tag arg s) :=
  answerInv_next (h.issueCmd fun _ ht => ht.cmdDomainSet)
theorem State.Inv.streamSet {tag : BitVec 8} {arg : BitVec 48} : AnswerInv (execStreamSet tag arg s) :=
  answerInv_next (h.issueCmd fun _ ht => ht.cmdStreamSet)
theorem State.Inv.streamMap {tag : BitVec 8} {arg : BitVec 48} : AnswerInv (execStreamMap tag arg s) :=
  answerInv_next (h.issueCmd fun _ ht => ht.cmdStreamMap)
theorem State.Inv.startClear {tag : BitVec 8} {arg : BitVec 48} : AnswerInv (execStartClear tag arg s) :=
  answerInv_next (h.issueCmd fun _ ht => ht.same (by rfl))
theorem State.Inv.hcmdUnknownOp {op tag : BitVec 8} {arg : BitVec 48} : AnswerInv (execHcmdUnknownOp op tag arg s) :=
  answerInv_next (.ite h (h.issueCmd fun _ ht => ht))
theorem State.Inv.hcmdIgnored {_w : BitVec 64} : AnswerInv (execHcmdIgnored _w s) := answerInv_next (.ite h (.same h (by rfl)))
theorem State.Inv.finishCmd {status tag : Byte} : (s.finishCmd status tag).Inv :=
  State.Inv.raiseMsi (State.Inv.same (h.dropWaiter (w := cmdWork)) (by rfl))

theorem State.Inv.commandDone : AnswerInv (execCommandDone s) := by
  unfold execCommandDone
  refine answerInv_next (.ite h ?_)
  split
  · refine Cmd.All.settle ?_
    split
    · exact h.cmdRegisterQueue
    · exact h
  · refine .ite h (.ite (.ite h ?_) h.finishCmd)
    split
    · next t ht => exact (h.destroy.of_eq ht).finishCmd
    · exact h.ask
    · exact h

theorem State.Inv.dbgAttnWrite {w : BitVec 64} : AnswerInv (execDbgAttnWrite w s) := answerInv_next (.ite h (.addEvent h))
theorem State.Inv.dbgRevokeWrite {w : BitVec 64} : AnswerInv (execDbgRevokeWrite w s) :=
  answerInv_next (.ite (.revokeFirmware h) (.revokeKernel h))

theorem State.Inv.triggerRegisterWrite {core trig reg : Nat} {w : BitVec 64} :
    AnswerInv (execTriggerRegisterWrite core trig reg w s) := by
  unfold execTriggerRegisterWrite
  refine answerInv_next ?_
  split
  · exact h
  · exact .ite h (.setCore h)

theorem State.Inv.writePriAlloc {n : Nat} : (s.writePriAlloc n).Inv := .same h (by rfl)
theorem State.Inv.writeRegister {off : Nat} {w : W64} : (s.writeRegister off w).Inv :=
  .ite (.same h (by rfl)) (.ite (.ite (.same h (by rfl)) h) (.ite (.same h (by rfl)) (.ite (.same h (by rfl))
    (.ite (.writePriAlloc h) (.ite (.same h (by rfl)) (.ite (.ite (.updCore h) h) h))))))
theorem State.Inv.registerWrite {off : Nat} {w : BitVec 64} : AnswerInv (execRegisterWrite off w s) :=
  answerInv_next (.writeRegister h)
theorem State.Inv.setEth {port : Nat} {e : EthPort} : (s.setEth port e).Inv := .ite (.same h (by rfl)) (.same h (by rfl))
theorem State.Inv.ptpsecRead {port : Nat} : AnswerInv (execPtpsecRead port s) := answerInv_next (.ite h (.setEth h))
theorem State.Inv.ptpadjWrite {port : Nat} {w : BitVec 64} : AnswerInv (execPtpadjWrite port w s) :=
  answerInv_next (.ite h (.setEth h))
theorem State.Inv.frameArrival {port : Nat} {bytes : List (BitVec 8)} {fcsOk : Bool} :
    AnswerInv (execFrameArrival port bytes fcsOk s) :=
  answerInv_next (.ite h (.ite (.setEth h) (.ite (.setEth h) (.ite (.setEth h) (.setEth h)))))

theorem State.Inv.publish {x : Stream} {port : Nat} {f : Frame} : (s.publish x port f).All State.Inv :=
  .read fun _ => Eng.all_ite h.setStream (.read fun _ => .read fun _ => h.ioWrite.signalOp.setStream)

theorem State.Inv.publishFrame {port : Nat} {f : Frame} : (s.publishFrame port f).Inv := by
  unfold State.publishFrame
  dsimp only
  split
  · exact h.setEth
  · next x _ =>
    split
    · next t ht => exact (h.publish.of_eq ht).dropWaiter.setEth
    · exact h.ask
    · exact State.Inv.setEth (.raiseMsi (State.Inv.same (h.dropWaiter (w := ioWork 6 x.num)) (by rfl)))

theorem State.Inv.framePublish {port : Nat} : AnswerInv (execFramePublish port s) := by
  unfold execFramePublish
  refine answerInv_next ?_
  dsimp only
  split
  · exact h
  · split
    · exact h
    · exact .publishFrame h

theorem State.Inv.portDown {port : Nat} : AnswerInv (execPortDown port s) := answerInv_next (.ite h (.raiseMsi (.same h (by rfl))))
theorem State.Inv.linkRetryTimeout {dev : Nat} : AnswerInv (execLinkRetryTimeout dev s) :=
  answerInv_next (.ite h (.raiseMsi (.same h (by rfl))))

theorem State.Inv.domainTableInstall : AnswerInv (execDomainTableInstall s) := by
  unfold execDomainTableInstall
  refine answerInv_next ?_
  split
  · exact h
  · exact .ite h (.same h (by rfl))

omit h in
theorem State.reset_cores_keys : State.reset.cores.map (fun c => c.key) = coreKeys := by
  have hcores : State.reset.cores = coreKeys.map Core.reset := by rw [State.reset]
  rw [hcores, List.map_map]
  exact List.map_id _

omit h in
theorem State.reset_proofs_keys : State.reset.proofs.map (fun p => p.key) = proofKeys := by
  have hproofs : State.reset.proofs = proofKeys.map Proof.reset := by rw [State.reset]
  rw [hproofs, List.map_map]
  exact List.map_id _

omit h in
/-- The machine right after reset has every core, and nothing in memory. -/
theorem State.reset_inv : State.reset.Inv := ⟨State.reset_mem_wf, State.reset_cores_keys, State.reset_proofs_keys⟩

/-- A device without supply is one after reset, but for the memory that is not its own. -/
theorem State.Inv.dark : (s.dark).Inv := by
  have hcores : s.dark.cores = State.reset.cores := by rw [State.dark]
  have hproofs : s.dark.proofs = State.reset.proofs := by rw [State.dark]
  refine ⟨?_, hcores ▸ State.reset_cores_keys, hproofs ▸ State.reset_proofs_keys⟩
  rw [State.dark]
  exact Memory.wf_filter _ _ h.memory

theorem State.Inv.withFlash {f : Flash} : ({ s with flash := f } : State).Inv := h.same (by rfl)

theorem State.Inv.started {r : StartRec} : (s.started r).Inv := by
  rw [State.started]
  dsimp only
  refine .startBank (.startBank ?_)
  exact h.same (by rfl)
theorem State.Inv.stoppedAt {step : Nat} {r : StartRec} : (s.stoppedAt step r).Inv := by
  rw [State.stoppedAt]
  dsimp only
  exact h.same (by rfl)

theorem State.Inv.startWith {good : Bool → Bool} {fails : List Nat} : (s.startWith good fails).Inv := by
  unfold State.startWith
  extract_lets x d t
  have hd : d.Inv := h.dark
  clear_value d
  have ht : t.Inv := hd.same (by rfl)
  clear_value t
  split
  · exact ht.withFlash.started
  · exact ht.stoppedAt
  · exact ht

theorem State.Inv.powerOnStart {fails : List Nat} : AnswerInv (execPowerOnStart fails s) := answerInv_next (.ite h (.startWith h))

theorem State.Inv.functionLevelReset : AnswerInv (execFunctionLevelReset s) := by
  unfold execFunctionLevelReset
  refine answerInv_next ?_
  extract_lets ps t
  have ht : t.Inv := .foldl (fun _ _ h => h.tearDown.haltLaunches) h
  have hdestroyed : (ps.foldl (fun (x : Eng State) p => x.bind (fun s => s.destroy p)) (.ok t)).All State.Inv :=
    List.foldlRecOn (motive := Eng.All State.Inv) ps _ ht fun _ hx _ _ => hx.bind fun _ hs => hs.destroy
  refine .ite ht ?_
  split
  · exact ht.ask
  · exact ht
  · next u hu => exact State.Inv.same ((hdestroyed.of_eq hu).dropWaiter (w := cmdWork)) (by rfl)

theorem State.Inv.turnWindow {owner : Nat} : (s.turnWindow owner).Inv := .ite h (.same h (by rfl))
theorem State.Inv.correctedError {unit : Nat} : AnswerInv (execCorrectedError unit s) := by
  unfold execCorrectedError
  refine answerInv_next ?_
  extract_lets s1 n s2 fl s3
  have h1 : s1.Inv := h.turnWindow
  have h2 : s2.Inv := h1.same (by rfl)
  have h3 : s3.Inv := .ite (h2.same (by rfl)) h2
  exact .ite h2 h3.raiseMsi

theorem State.Inv.errorWindow {owner : Nat} : AnswerInv (execErrorWindow owner s) := answerInv_next (.turnWindow h)

theorem State.Inv.setRefill {sel : Nat → Bool} {f : Nat → Nat → Nat → Nat} : (s.setRefill sel f).Inv := by
  unfold State.setRefill
  refine h.mapCores rfl rfl fun c => ?_
  split <;> rfl

theorem State.Inv.thermalLimit {die : Nat} : AnswerInv (execThermalLimit die s) := by
  unfold execThermalLimit
  refine answerInv_next (.ite h ?_)
  extract_lets t
  have ht : t.Inv := h.setRefill
  exact ht.same (by rfl)
theorem State.Inv.thermalStop {die : Nat} : AnswerInv (execThermalStop die s) :=
  answerInv_next (.ite h (.raiseMsi (.same h (by rfl))))
theorem State.Inv.powerAverageWindow {watts : Nat} : AnswerInv (execPowerAverageWindow watts s) :=
  answerInv_next (.ite (.setRefill (.same h (by rfl))) (.setRefill (.same h (by rfl))))

theorem State.Inv.powerLoss {torn : Option Bool} : AnswerInv (execPowerLoss torn s) := by
  unfold execPowerLoss
  refine answerInv_next ?_
  extract_lets t
  have ht : t.Inv := h.dark
  clear_value t
  split
  · exact ht
  · exact ht.same (by rfl)

end

end Sys2Proof.Machine
end

section
/-! PROOFS. The invariant: what stands around a word, and one step. -/
namespace Sys2Proof.Machine

section
variable {s : State} (h : s.Inv)
include h

/-! ## What stands around a word -/

theorem State.Inv.countIssue {before : State} {c : Ctx} {i : Instr} : (s.countIssue before c i).Inv := by
  unfold State.countIssue
  extract_lets key pasid t
  have ht : t.Inv := h.updPart
  split
  · exact ht
  · refine .ite ht ?_
    split
    · exact ht
    · exact ht.setCore

theorem State.Inv.traceIssue {before : State} {c : Ctx} {i : Instr} {seen : List Seen} : (s.traceIssue before c i seen).Inv := by
  unfold State.traceIssue
  split
  · exact .ite h h.updProof
  · exact h

theorem State.Inv.beforeWord {c : Ctx} : (s.beforeWord c).Inv := .ite h h.fireTriggers
theorem State.Inv.standStill {c : Ctx} : (s.standStill c).Inv := h.updGang
theorem State.Inv.startHold {c : Ctx} {i : Instr} {g : Gang} : (s.startHold c i g).2.Inv := .ite h.updGang h
theorem State.Inv.spendClocks {before : State} {c : Ctx} {i : Instr} : (s.spendClocks before c i).Inv := .ite h h.updGang

theorem State.Inv.recordWord {before : State} {c : Ctx} {i : Instr} {traced guest : Bool} {seen moved : List Seen} :
    (s.recordWord before c i traced guest seen moved).Inv := by
  unfold State.recordWord
  extract_lets s1 s2
  have h1 : s1.Inv := .ite h.traceIssue h
  have h2 : s2.Inv := .ite h1.watchSees h1
  exact .spendClocks (.ite h2 h2.countIssue)

theorem State.Inv.stillHalted {c : Ctx} {held : Bool} : (s.stillHalted c held).Inv := by
  unfold State.stillHalted
  split
  · exact .ite h.standStill h
  · exact h

theorem State.Inv.wordDone {before : State} {c : Ctx} {i : Instr} : (s.wordDone before c i).Inv := by
  unfold State.wordDone
  split
  · exact h
  · extract_lets done stays late seen moved hold traced
    have hold_inv : hold.2.Inv := by
      dsimp only [hold]
      split
      · exact h
      · exact h.startHold
    exact .ite h hold_inv.recordWord.stillHalted.endStep

/-! ## One step -/

theorem State.Inv.rqsignal {core req : Nat} : AnswerInv (execRqsignal core req s) := by
  unfold execRqsignal
  refine answerInv_next ?_
  split
  · exact h
  · exact .ite h (h.engineEnd h.performSignal)

theorem State.Inv.event {i : Instr} (hi : i.cls = none) : AnswerInv (exec i s) := by
  cases i with
  | clauseStart _ _ _ => exact h.clauseStart
  | merge _ => exact h.merge
  | joinRelease _ => exact h.joinRelease
  | collectiveWaitEnd _ => exact h.collectiveWaitEnd
  | budgetRefill _ _ => exact h.budgetRefill
  | tempRefresh _ _ => exact h.tempRefresh
  | blockPlace _ => exact h.blockPlace
  | roomAdvertise _ => exact h.roomAdvertise
  | blockPass _ => exact h.blockPass
  | quantumExpiry _ => exact h.quantumExpiry
  | dueClock _ => exact h.dueClock
  | resolve _ _ => exact h.resolve
  | grant _ => exact h.grant
  | atomic _ _ _ => exact h.atomicRequest
  | cabort _ _ => exact h.cabort
  | land _ _ => exact h.land
  | phase _ _ => exact h.phase
  | deliver _ _ _ => exact h.deliver
  | gangRetire _ => exact h.gangRetire
  | blockRetire _ => exact h.blockRetire
  | clusterRetire _ => exact h.clusterRetire
  | blockCompletionEvent _ => exact h.blockCompletionEvent
  | trapEntry _ => exact h.trapEntry
  | atsCompletion _ _ _ => exact h.atsCompletion
  | priResponse _ _ _ => exact h.priResponse
  | invalidation _ _ _ => exact h.invalidation
  | invalidationCompletion _ _ _ => exact h.invalidationCompletion
  | preemptRequest _ _ => exact h.preemptRequest
  | contextSave _ => exact h.contextSave
  | blockRestore _ => exact h.blockRestore
  | mstart _ _ => exact answerInv_next h.startHead
  | rqmove _ _ _ => exact answerInv_next (.ite h.moveCopy h.moveReq)
  | rqsignal _ _ => exact h.rqsignal
  | rqlistBlockFetch _ => exact answerInv_next h.fetchBlock
  | kick _ _ => exact h.kick
  | packetComplete _ _ => exact h.packetComplete
  | pendscanWake _ => exact h.pendscanWake
  | signalRecheck _ => exact h.signalRecheck
  | bankSwitch _ => exact h.bankSwitch
  | fwVerifyDone _ => exact h.fwVerifyDone
  | unlockVerifyDone _ => exact h.unlockVerifyDone
  | pull _ => exact h.pull
  | guestReturn _ => exact h.guestReturn
  | arrivalMessage _ => exact h.arrivalMessage
  | releaseMessage _ => exact h.releaseMessage
  | clauseCountMessage _ _ => exact h.clauseCountMessage
  | debugHandlerEntry _ => exact h.debugHandlerEntry
  | traceDrain _ => exact h.traceDrain
  | frameArrival _ _ _ => exact h.frameArrival
  | framePublish _ => exact h.framePublish
  | portDown _ => exact h.portDown
  | linkRetryTimeout _ => exact h.linkRetryTimeout
  | powerOnStart _ => exact h.powerOnStart
  | correctedError _ => exact h.correctedError
  | errorWindow _ => exact h.errorWindow
  | thermalLimit _ => exact h.thermalLimit
  | thermalStop _ => exact h.thermalStop
  | featAccWrite _ => exact h.featAccWrite
  | registerQueue _ _ => exact h.registerQueue
  | teardownPasid _ _ => exact h.teardownPasid
  | destroyCtx _ _ => exact h.destroyCtx
  | preempt _ _ => exact h.preempt
  | loadFw _ _ => exact h.loadFw
  | keyslotWrite _ _ _ => exact h.keyslotWrite
  | unlock _ _ => exact h.unlock
  | domainSet _ _ => exact h.domainSet
  | streamSet _ _ => exact h.streamSet
  | streamMap _ _ => exact h.streamMap
  | startClear _ _ => exact h.startClear
  | hcmdUnknownOp _ _ _ => exact h.hcmdUnknownOp
  | hcmdIgnored w => exact h.hcmdIgnored (_w := w)
  | dbgAttnWrite _ => exact h.dbgAttnWrite
  | dbgRevokeWrite _ => exact h.dbgRevokeWrite
  | triggerRegisterWrite _ _ _ _ => exact h.triggerRegisterWrite
  | ptpsecRead _ => exact h.ptpsecRead
  | ptpadjWrite _ _ => exact h.ptpadjWrite
  | registerWrite _ _ => exact h.registerWrite
  | domainTableInstall => exact h.domainTableInstall
  | functionLevelReset => exact h.functionLevelReset
  | commandDone => exact h.commandDone
  | childLaunch _ _ => exact h.childLaunch
  | powerAverageWindow _ => exact h.powerAverageWindow
  | powerLoss _ => exact h.powerLoss
  | _ => cases hi

theorem State.Inv.exec (i : Instr) : AnswerInv (exec i s) := by
  cases hi : i.cls with
  | none => exact h.event hi
  | some _ => exact h.word (by simp [hi])

theorem State.Inv.issueNext {uid slice : Nat} : AnswerInv (s.issueNext uid slice) := by
  unfold State.issueNext
  extract_lets t
  have ht : t.Inv := h.same (by rfl)
  clear_value t
  split
  · exact answerInv_next h
  · split
    · exact answerInv_next h
    · split
      · exact answerInv_next h
      · next c _ _ _ _ i _ =>
        refine answerInv_ite (answerInv_next ht.standStill) (answerInv_ite (answerInv_next h) ?_)
        split
        · exact answerInv_next ht.updGang.addEvent
        · extract_lets b
          have hb : b.Inv := ht.beforeWord
          clear_value b
          split
          · next u hu =>
            have hu_inv : u.Inv := hb.exec i u hu
            exact answerInv_next (.wordDone (.ite hb.takeFault hu_inv))
          · exact fun _ he => by cases he
          · exact fun _ he => by cases he

omit h in
/-- The words of one clock, one after another. -/
theorem answerInv_issues {uid : Nat} (ks : List Nat) (a : Answer) (ha : AnswerInv a) :
    AnswerInv (ks.foldl (fun (o : Answer) k => match o with
      | .next t => t.issueNext uid k
      | x => x) a) := by
  refine List.foldlRecOn ks _ ha fun o ho k _ => ?_
  cases o with
  | next t => exact (ho t rfl).issueNext
  | fault _ | refused _ => exact ho

theorem State.Inv.issueClock {uid : Nat} {ks : List Nat} {land : Option Nat} : AnswerInv (s.issueClock uid ks land) := by
  unfold State.issueClock
  split
  · exact answerInv_next h
  · next g _ =>
    have hissues := answerInv_issues (uid := uid) (g.issueOrder ks) _ (answerInv_next h)
    split
    · next t ht =>
      have ht_inv : t.Inv := hissues t ht
      split
      · exact ht_inv.land
      · exact answerInv_next ht_inv
    · exact hissues

theorem State.Inv.act {c : Choice} : AnswerInv (s.act c) := by
  cases c with
  | issue g ks land => exact h.issueClock
  | event i => exact answerInv_ite (answerInv_next h) (h.exec i)

theorem State.Inv.take {c : Choice} : AnswerInv (s.take c) := by
  unfold State.take
  split
  · exact h.act
  · exact answerInv_next h

theorem State.Inv.pass {movers : List Nat} : (s.pass movers).Inv :=
  State.Inv.mapCores (s := s.dropCopies fun a => Config.freeBit s.now (2 ^ 40 + a / 128)) h.dropCopies rfl rfl fun _ => rfl

theorem State.Inv.tick : s.tick.Inv := (h.pass (movers := s.movers)).mapCores rfl rfl fun _ => rfl
theorem State.Inv.dropHead : s.dropHead.Inv := h.same (by rfl)
theorem State.Inv.step : AnswerInv (step s) := h.tick.dropHead.take

end

/-- Settles O8: time and the word or transition of a choice each keep the invariant. -/
theorem invariantKept : Obligations.InvariantKept := by
  unfold Obligations.InvariantKept
  exact fun s t h hstep => h.step t hstep

end Sys2Proof.Machine
end

section
/-! PROOFS. The clause header: a word and its header determine each other (R13, R63). -/
namespace Sys2Proof.HeaderCoding
open Sys2Proof.Machine

theorem decCls_encCls (c : Cls) : decCls (encCls c) = some c := by cases c <;> rfl

theorem encCls_lt (c : Cls) : encCls c < 16 := by cases c <;> decide

theorem encCls_of_decCls {k : Nat} {c : Cls} (h : decCls k = some c) : encCls c = k := by
  unfold decCls at h
  split at h <;> cases h <;> rfl

theorem encFlag_lt {x : Option Nat} (hx : ∀ k, x = some k → k < 12) : encFlag x < 28 := by
  cases x with
  | none => exact Nat.succ_pos _
  | some k =>
    have hk := hx k rfl
    simp only [encFlag]
    omega

/-- A flag that reads as a value has that value's code: the valid bit above the number. -/
theorem encFlag_of_decFlag {v : Bool} {n : BitVec 4} {x : Option Nat} (h : decFlag v n = some x) :
    encFlag x = 16 * v.toNat + n.toNat := by
  unfold decFlag at h
  split at h
  · next hv =>
    split at h
    · cases h
      simp [encFlag, hv]
    · cases h
  · next hv =>
    split at h
    · next hn =>
      cases h
      simp [encFlag, hv, beq_iff_eq.mp hn]
    · cases h

/-- A bit of a word, as a number. -/
theorem toNat_getLsbD (w : W64) (k : Nat) : (w.getLsbD k).toNat = w.toNat / 2 ^ k % 2 := by
  rw [BitVec.getLsbD, Nat.toNat_testBit]

theorem getLsbD_of_toNat {w : W64} {k : Nat} {b : Bool} (h : w.toNat / 2 ^ k % 2 = b.toNat) : w.getLsbD k = b := by
  rw [← toNat_getLsbD] at h
  revert h
  cases w.getLsbD k <;> cases b <;> simp

/-- A field of a word, as a number. -/
theorem toNat_extractLsb' (w : W64) (lo len : Nat) : (w.extractLsb' lo len).toNat = w.toNat / 2 ^ lo % 2 ^ len := by
  rw [BitVec.extractLsb'_toNat, Nat.shiftRight_eq_div_pow]

/-- A flag is read back from the field that holds its code: its number, and above it the valid bit. -/
theorem decFlag_field {w : W64} {x : Option Nat} {lo : Nat} (hx : ∀ k, x = some k → k < 12)
    (hw : w.toNat / 2 ^ lo % 2 ^ 5 = encFlag x) : decFlag (w.getLsbD (lo + 4)) (w.extractLsb' lo 4) = some x := by
  have hvalid : w.toNat / 2 ^ (lo + 4) % 2 = encFlag x / 16 := by
    rw [Nat.pow_add, ← Nat.div_div_eq_div_mul]
    omega
  have hnum : (w.extractLsb' lo 4).toNat = encFlag x % 16 := by
    rw [toNat_extractLsb']
    omega
  cases x with
  | none =>
    have hn : w.extractLsb' lo 4 = 0 := BitVec.eq_of_toNat_eq hnum
    rw [getLsbD_of_toNat (b := false) hvalid, hn]
    rfl
  | some k =>
    have hk := hx k rfl
    have hdiv : encFlag (some k) / 16 = 1 := by
      simp only [encFlag]
      omega
    have hmod : encFlag (some k) % 16 = k := by
      simp only [encFlag]
      omega
    rw [getLsbD_of_toNat (b := true) (hvalid.trans hdiv), decFlag, if_pos rfl, hnum, hmod, if_pos hk]

theorem decodeHeader_encodeHeader {h : Header} (hlo : 1 ≤ h.count) (hhi : h.count ≤ 16) (hfa : ∀ k, h.fa = some k → k < 12)
    (hfb : ∀ k, h.fb = some k → k < 12) (hne : h.fa.isSome = true → h.fa ≠ h.fb) : decodeHeader (encodeHeader h) = some h := by
  have hcls := encCls_lt h.cls
  have hwait := h.wait.isLt
  have ha := encFlag_lt hfa
  have hb := encFlag_lt hfb
  have hy : (if h.yield then 1 else 0 : Nat) = h.yield.toNat := by cases h.yield <;> rfl
  have hy_le := Bool.toNat_le h.yield
  have hw : (encodeHeader h).toNat = encCls h.cls * 2 ^ 60 + (h.count - 1) * 2 ^ 56 + h.wait.toNat * 2 ^ 44 + encFlag h.fa * 2 ^ 39 +
      encFlag h.fb * 2 ^ 34 + h.yield.toNat * 2 ^ 33 := by
    rw [encodeHeader, hy, BitVec.toNat_ofNat, Nat.mod_eq_of_lt (by omega)]
  have hcls_w : ((encodeHeader h).extractLsb' 60 4).toNat = encCls h.cls := by rw [toNat_extractLsb', hw]; omega
  have hcount_w : ((encodeHeader h).extractLsb' 56 4).toNat + 1 = h.count := by rw [toNat_extractLsb', hw]; omega
  have hwait_w : (encodeHeader h).extractLsb' 44 12 = h.wait := by
    apply BitVec.eq_of_toNat_eq
    rw [toNat_extractLsb', hw]
    omega
  have hzero_w : (encodeHeader h).extractLsb' 0 33 = 0 := by
    apply BitVec.eq_of_toNat_eq
    rw [toNat_extractLsb', hw]
    simp
    omega
  have hyield_w : (encodeHeader h).getLsbD 33 = h.yield := getLsbD_of_toNat (by rw [hw]; omega)
  have hfa_w : decFlag ((encodeHeader h).getLsbD 43) ((encodeHeader h).extractLsb' 39 4) = some h.fa :=
    decFlag_field hfa (by rw [hw]; omega)
  have hfb_w : decFlag ((encodeHeader h).getLsbD 38) ((encodeHeader h).extractLsb' 34 4) = some h.fb :=
    decFlag_field hfb (by rw [hw]; omega)
  have hguard : ¬ ((encodeHeader h).extractLsb' 0 33 != 0 || (h.fa.isSome && h.fa == h.fb)) = true := by
    rw [hzero_w]
    simpa using hne
  rw [decodeHeader, hcls_w, decCls_encCls, hfa_w, hfb_w]
  dsimp only
  rw [if_neg hguard, hcount_w, hwait_w, hyield_w]

theorem encodeHeader_of_decodeHeader {w : W64} {h : Header} (hdec : decodeHeader w = some h) : encodeHeader h = w := by
  unfold decodeHeader at hdec
  split at hdec
  · next cls fa fb hcls hfa hfb =>
    split at hdec
    · cases hdec
    · next hguard =>
      cases hdec
      have hlow : w.extractLsb' 0 33 = 0 := by
        by_contra hne
        exact hguard (by simpa using Or.inl hne)
      have hlow_w : w.toNat % 2 ^ 33 = 0 := by
        have := congrArg BitVec.toNat hlow
        rw [toNat_extractLsb'] at this
        simpa using this
      have hcls_w := encCls_of_decCls hcls
      have hfa_w := encFlag_of_decFlag hfa
      have hfb_w := encFlag_of_decFlag hfb
      have hy_w := toNat_getLsbD w 33
      rw [toNat_getLsbD] at hfa_w hfb_w
      rw [toNat_extractLsb'] at hcls_w hfa_w hfb_w
      have hlt := w.isLt
      have hy : (if w.getLsbD 33 then 1 else 0 : Nat) = (w.getLsbD 33).toNat := by cases w.getLsbD 33 <;> rfl
      apply BitVec.eq_of_toNat_eq
      rw [encodeHeader, hy, BitVec.toNat_ofNat, hcls_w, hfa_w, hfb_w, hy_w, toNat_extractLsb', toNat_extractLsb']
      dsimp only
      omega
  · cases hdec

/-- Settles O4: field by field, from the header to its word and back. -/
theorem headerRoundTrip : Obligations.HeaderRoundTrip := by
  unfold Obligations.HeaderRoundTrip
  exact ⟨fun _ hlo hhi hfa hfb hne => decodeHeader_encodeHeader hlo hhi hfa hfb hne, fun _ _ hdec => encodeHeader_of_decodeHeader hdec⟩

end Sys2Proof.HeaderCoding
end

section
/-! PROOFS. The machine right after reset (R7, R8, R18). -/
namespace Sys2Proof.ResetState
open Sys2Proof.Machine

/-- What holds of every core as reset leaves it holds of each core of the machine. -/
theorem forall_reset_cores {P : Core → Prop} (h : ∀ k, P (Core.reset k)) : ∀ c ∈ State.reset.cores, P c := by
  have hcores : State.reset.cores = coreKeys.map Core.reset := by rw [State.reset]
  rw [hcores]
  exact List.forall_mem_map.mpr fun k _ => h k

theorem forall_reset_proofs {P : Proof → Prop} (h : ∀ k, P (Proof.reset k)) : ∀ p ∈ State.reset.proofs, P p := by
  have hproofs : State.reset.proofs = proofKeys.map Proof.reset := by rw [State.reset]
  rw [hproofs]
  exact List.forall_mem_map.mpr fun k _ => h k

theorem reset_host : State.reset.host = HostLink.reset := by rw [State.reset]
theorem reset_eth0 : State.reset.eth0 = EthPort.reset := by rw [State.reset]
theorem reset_eth1 : State.reset.eth1 = EthPort.reset := by rw [State.reset]

/-- The fields of a pull trigger's control word as reset leaves it (R288). -/
theorem trigger_reset : Trigger.reset.enabled = false ∧ Trigger.reset.kind = 0 ∧ Trigger.reset.proofSel = 0xF := by decide

/-- Settles O7: the tables are empty, and each core, proof core, port and register is as its own reset value has it. -/
theorem resetValues : Obligations.ResetValues := by
  unfold Obligations.ResetValues
  dsimp only
  rw [reset_host, reset_eth0, reset_eth1]
  have htables : State.reset.doorbells = [] ∧ State.reset.gangs = [] ∧ State.reset.blocks = [] ∧ State.reset.clusters = [] ∧
      State.reset.grids = [] ∧ State.reset.queues = [] ∧ State.reset.domain = none ∧ State.reset.dbgDomains = [] := by
    rw [State.reset]
    exact ⟨rfl, rfl, rfl, rfl, rfl, rfl, rfl, rfl⟩
  obtain ⟨hdoorbells, hgangs, hblocks, hclusters, hgrids, hqueues, hdomain, hdomains⟩ := htables
  refine ⟨State.reset_inv, rfl, rfl, rfl, rfl, rfl, rfl, rfl, rfl, rfl, rfl, rfl, rfl, rfl, rfl, hdoorbells, hgangs, hblocks, hclusters,
    hgrids, hqueues, hdomain, hdomains, ?_, ?_, ?_⟩
  · exact forall_reset_cores fun _ => ⟨rfl, rfl, rfl, rfl, rfl, trigger_reset.1, trigger_reset.2.1, trigger_reset.2.2, rfl, rfl, rfl, rfl, rfl, rfl⟩
  · exact forall_reset_proofs fun _ => ⟨rfl, rfl⟩
  · simp [EthPort.reset]

end Sys2Proof.ResetState
end

section
/-! PROOFS. What a step runs (R19): the choice it takes, and the word that a group issues. -/
namespace Sys2Proof.StepChoice
open Sys2Proof.Machine

theorem step_of_settle {s : State} {c : Choice} (h : s.settled.settle s.choose = some c) : step s = s.settled.act c := by
  unfold step State.take
  rw [show s.tick.dropHead.settle s.choose = some c from h]
  rfl

theorem step_of_settle_none {s : State} (h : s.settled.settle s.choose = none) : step s = .next s.settled := by
  unfold step State.take
  rw [show s.tick.dropHead.settle s.choose = none from h]
  rfl

/-- A choice that is no deterministic launch's is taken as it is. -/
theorem settle_of_free {s : State} {c : Choice} (h : s.rootOf c = none) : s.settle c = some c := by
  rw [State.settle, h]

/-- A choice of a deterministic launch's transition stands for the first one that the launch owes. -/
theorem settle_of_root {s : State} {c : Choice} {r : Nat} (h : s.rootOf c = some r) : s.settle c = s.detNext r := by
  rw [State.settle, h]

/-- A named transition that the device takes is what its name means. -/
theorem act_event {s : State} {i : Instr} (hi : i.cls = none) (h : s.thermal = false ∨ whileHalted i = true) :
    s.act (.event i) = exec i s := by
  have hguard : ¬ (i.cls.isSome || (s.thermal && !whileHalted i)) = true := by
    rcases h with h | h <;> simp [hi, h]
  rw [State.act, if_neg hguard]

/-- An instruction word by itself, and what a device stopped for its temperature does not take, changes nothing. -/
theorem act_event_idle {s : State} {i : Instr} (h : i.cls.isSome = true ∨ (s.thermal = true ∧ whileHalted i = false)) :
    s.act (.event i) = .next s := by
  have hguard : (i.cls.isSome || (s.thermal && !whileHalted i)) = true := by
    rcases h with h | ⟨ht, hw⟩
    · simp [h]
    · simp [ht, hw]
  rw [State.act, if_pos hguard]

/-- Of one group that issues, its next word. -/
theorem issueClock_one {s : State} {g : Gang} {k : Nat} (hg : s.gang? g.uid = some g) :
    s.issueClock g.uid [k] none = s.issueNext g.uid k := by
  rw [State.issueClock, hg]
  dsimp only [Gang.issueOrder, List.foldl_cons, List.foldl_nil]
  split <;> simp_all

/-- The word of a running group is executed: no PC comparator matches, no trace buffer is full and its gang is not halted. -/
theorem issueNext_of_word {s s1 s2 : State} {g k : Nat} {c : Ctx} {w : W64} {i : Instr} (hs1 : s1 = { s with cur := some (g, k) })
    (hctx : s1.ctx? = some c) (hw : c.run.words[c.run.idx]? = some w) (hdec : decodeWord c.run.header.cls w = .ok i)
    (hhalt : c.gang.halted = false) (hfull : s1.traceFull c i = false) (hpc : s1.pcUnit c = none) (hs2 : s2 = s1.beforeWord c) :
    (∀ t, exec i s2 = .next t → s.issueNext g k =
      .next ((if c.readsBad s2 i = true then s2.takeFault g k (c.raise .uncorrectable c.pc) else t).wordDone s2 c i)) ∧
    (∀ f, exec i s2 = .fault f → s.issueNext g k = .fault f) ∧
    (∀ r, exec i s2 = .refused r → s.issueNext g k = .refused r) := by
  subst hs2
  rw [State.issueNext, ← hs1, hctx]
  dsimp only
  rw [hw]
  dsimp only
  rw [hdec]
  dsimp only
  rw [hhalt, Bool.false_and, if_neg Bool.false_ne_true, hfull, Bool.and_false, if_neg Bool.false_ne_true, hpc]
  exact ⟨fun t ht => by simp [ht], fun f hf => by simp [hf], fun r hr => by simp [hr]⟩

/-- Settles O6, by the kind of choice: a named transition, the words of a gang, a deterministic launch's; then the word that a group
issues, by what its execution answers. -/
theorem stepRunsDecodedWord : Obligations.StepRunsDecodedWord := by
  unfold Obligations.StepRunsDecodedWord
  refine ⟨fun s i hc hroot => ?_, fun s g ks land hc hroot => ?_, fun s r hroot => ?_, fun s g k hg => issueClock_one hg,
    fun s g k c w i => ?_⟩
  · have hstep : step s = s.settled.act (.event i) := step_of_settle (by rw [hc]; exact settle_of_free hroot)
    exact ⟨fun hi h => hstep.trans (act_event hi h), fun h => hstep.trans (act_event_idle h)⟩
  · exact step_of_settle (by rw [hc]; exact settle_of_free hroot)
  · refine ⟨fun hnone => step_of_settle_none ((settle_of_root hroot).trans hnone), fun d hd => ?_⟩
    exact ⟨step_of_settle ((settle_of_root hroot).trans hd), List.find?_some hd⟩
  · exact fun hctx hw hdec hhalt hfull hpc => issueNext_of_word rfl hctx hw hdec hhalt hfull hpc rfl

end Sys2Proof.StepChoice
end

section
/-! PROOFS. Writing mask bits and `em` (R40, R111). -/
namespace Sys2Proof.MaskBits
open Sys2Proof.Machine

/-- A mask after a write: the written lanes are the word's, the others and the other masks as before. -/
theorem rawM_wrM (g : Gang) (reg m : Nat) (lanes x : Lanes) :
    (g.wrM reg lanes x).rawM m = if m = reg then (g.rawM m &&& ~~~ lanes) ||| (x &&& lanes) else g.rawM m := by
  have hput := Store.getD_putD 0 g.masks reg m ((g.rawM reg &&& ~~~ lanes) ||| (x &&& lanes))
  split at hput
  · next hm => exact hput.trans (by rw [if_pos hm, hm])
  · next hm => exact hput.trans (by rw [if_neg hm]; rfl)

theorem getLsbD_merge (e x ok : Lanes) {k : Nat} (hk : k < 128) :
    ((e &&& ~~~ ok) ||| (x &&& ok)).getLsbD k = if ok.getLsbD k = true then x.getLsbD k else e.getLsbD k := by
  rw [BitVec.getLsbD_or, BitVec.getLsbD_and, BitVec.getLsbD_and, BitVec.getLsbD_not, decide_eq_true hk, Bool.true_and]
  cases ok.getLsbD k <;> simp

/-- A lane of `em` after a write: the word's where it is written, present and not held on a stack. -/
theorem em_wrEm (g : Gang) (lanes x : Lanes) {k : Nat} (hk : k < 128) :
    (g.wrEm lanes x).em.getLsbD k =
      if lanes.getLsbD k = true ∧ g.present.getLsbD k = true ∧ g.stacked.getLsbD k = false then x.getLsbD k else g.em.getLsbD k := by
  have hok : (lanes &&& g.present &&& ~~~ g.stacked).getLsbD k = true ↔
      lanes.getLsbD k = true ∧ g.present.getLsbD k = true ∧ g.stacked.getLsbD k = false := by
    simp [hk, and_assoc]
  rw [Gang.wrEm, getLsbD_merge _ _ _ hk]
  simp only [hok]

/-- Settles O12: the two ways a mask bit is written. -/
theorem maskWrites : Obligations.MaskWrites := by
  unfold Obligations.MaskWrites
  exact fun g lanes x n m k hk => ⟨rawM_wrM g n.toNat m lanes x, em_wrEm g lanes x hk⟩

end Sys2Proof.MaskBits
end

section
/-! PROOFS. The branches (R114 to R119), and what a divergent one does to the gang (R45, R116). -/
namespace Sys2Proof.BranchWords
open Sys2Proof.Machine

/-! ## Where each branch goes -/

variable {s : State} {c : Ctx}

/-- A word after which the whole group goes on at another clause. -/
theorem issue_goto {body : Ctx → State → Res} {g : Gang} {t : W64} (h : Issues s c false false)
    (hbody : body c s = c.goto s g t c.grp.status) :
    .next (issue body s) = s.passes c (g.setGroup { c.grp with run := some { c.run with next := some t } }) :=
  congrArg Host.Outcome.next (issueWord_ok h hbody)

/-- A branch that is not taken. -/
theorem issue_through {body : Ctx → State → Res} (h : Issues s c false false) (hbody : body c s = .ok s) :
    Host.Outcome.next (issue body s) = (.next (s.advance c.uid c.slice) : Answer) :=
  congrArg Host.Outcome.next (issueWord_ok h hbody)

theorem bru_taken_iff (v : Nat) (x : Cond) : ((v != 0) == (x == .nz)) = true ↔ (v ≠ 0 ↔ x = .nz) := by
  rw [beq_iff_eq, Bool.eq_iff_iff, bne_iff_ne, beq_iff_eq]

theorem exec_bru_taken {f : FmtB} (h : Issues s c false false) (htaken : c.gang.scalar32 s.now f.a ≠ 0 ↔ f.cond = .nz) :
    exec (.bru f) s = s.passes c (c.gang.setGroup { c.grp with run := some { c.run with next := some (c.target f.target) } }) :=
  issue_goto h (if_pos ((bru_taken_iff _ _).mpr htaken))

theorem exec_bru_through {f : FmtB} (h : Issues s c false false) (hnot : ¬ (c.gang.scalar32 s.now f.a ≠ 0 ↔ f.cond = .nz)) :
    exec (.bru f) s = .next (s.advance c.uid c.slice) :=
  issue_through h (if_neg fun htaken => hnot ((bru_taken_iff _ _).mp htaken))

/-- The lanes that take a branch (R115). -/
theorem takers_eq (c : Ctx) (now : Nat) (f : FmtB) : c.takers now f =
    if f.cond = .nz then c.gang.condLanes now f.a c.activeAll else c.activeAll &&& ~~~ c.gang.condLanes now f.a c.activeAll := by
  simp only [Ctx.takers, beq_iff_eq]

theorem exec_brv_split {f : FmtB} {g : Gang} {k : Nat} (h : Issues s c false false)
    (hb : c.gang.branch c.grp c.run c.base (c.takers s.now f) (c.target f.target) = some (g, k)) :
    exec (.brv f) s = .next ((s.setGang g).advance c.uid k) :=
  congrArg Host.Outcome.next (issueWord_left h (by rw [Ctx.splitTo, hb]))

theorem exec_brv_full {f : FmtB} (h : Issues s c false false)
    (hb : c.gang.branch c.grp c.run c.base (c.takers s.now f) (c.target f.target) = none) :
    exec (.brv f) s = .next (s.faults c .illegalConvergence c.pc) :=
  congrArg Host.Outcome.next (issueWord_trap h (by rw [Ctx.splitTo, hb]))

/-- A branch splits its group where every stack has room (R118). -/
theorem branch_isSome {g : Gang} (r : Group) (u : Run) (act take : Lanes) (t : W64) (hroom : ∀ st ∈ g.reconv, st.length < 64) :
    ∃ h k, g.branch r u act take t = some (h, k) := by
  unfold Gang.branch
  dsimp only
  split
  · exact ⟨_, _, rfl⟩
  · split
    · next hfull =>
      obtain ⟨k, _, hk⟩ := List.any_eq_true.mp hfull
      split at hk
      · next st hst =>
        have hlt := hroom st (List.mem_of_getElem? hst)
        exact absurd (of_decide_eq_true hk) (Nat.not_le.mpr hlt)
      · cases hk
    · split
      · exact ⟨_, _, rfl⟩
      · exact ⟨_, _, rfl⟩

theorem exec_brau_through {f : FmtB} (h : Issues s c false false) (hnone : c.takers s.now f = 0) :
    exec (.brau f) s = .next (s.advance c.uid c.slice) :=
  issue_through h (by simp [hnone])

theorem exec_brau_taken {f : FmtB} (h : Issues s c false false) (hsome : c.takers s.now f ≠ 0) (hall : c.takers s.now f = c.activeAll) :
    exec (.brau f) s = s.passes c (c.gang.setGroup { c.grp with run := some { c.run with next := some (c.target f.target) } }) :=
  issue_goto h ((if_neg (by simpa using hsome)).trans (if_pos (by simpa using hall)))

theorem exec_brau_diverged {f : FmtB} (h : Issues s c false false) (hsome : c.takers s.now f ≠ 0)
    (hpart : c.takers s.now f ≠ c.activeAll) : exec (.brau f) s = .next (s.faults c .uniformDiverged c.pc) :=
  congrArg Host.Outcome.next (issueWord_trap h ((if_neg (by simpa using hsome)).trans (if_neg (by simpa using hpart))))

/-- Settles O20, branch by branch. -/
theorem branches : Obligations.Branches := by
  unfold Obligations.Branches
  intro s c f h
  dsimp only
  rw [← takers_eq]
  exact ⟨issue_goto h rfl, exec_bru_taken h, exec_bru_through h, issue_goto h rfl, fun k => issue_goto h rfl, fun g k => exec_brv_split h,
    branch_isSome _ _ _ _ _, exec_brv_full h, exec_brau_through h, exec_brau_taken h, exec_brau_diverged h⟩

end Sys2Proof.BranchWords
end

section
/-! PROOFS. What a divergent branch does to `em`, the reconvergence stacks and the groups of the gang (R45, R116). -/
namespace Sys2Proof.BranchSplit
open Sys2Proof.Machine Sys2Proof.ScalarControl

/-! ## Lanes and slices bit by bit -/

theorem getLsbD_lanesOfSlice (k : Nat) {i : Nat} (hi : i < 128) : (lanesOfSlice k).getLsbD i = decide (i / 8 = k) := by
  have hbyte (j : Nat) : (0xFF : Lanes).getLsbD j = (decide (j < 128) && decide (j < 8)) := by
    rw [show (0xFF : Lanes) = BitVec.ofNat 128 (2 ^ 8 - 1) from rfl, BitVec.getLsbD_ofNat, Nat.testBit_two_pow_sub_one]
  rw [lanesOfSlice, BitVec.getLsbD_shiftLeft, hbyte]
  by_cases hlo : i < 8 * k
  · have hne : i / 8 ≠ k := by omega
    simp [hlo, hne]
  · by_cases hhi : i - 8 * k < 8
    · have heq : i / 8 = k := by omega
      have hlt : i - 8 * k < 128 := by omega
      simp [hi, hlo, hhi, heq, hlt]
    · have hne : i / 8 ≠ k := by omega
      simp [hhi, hne]

/-- The lanes that a list of slices gives together. -/
theorem getLsbD_foldl_or {n : Nat} (f : Nat → BitVec n) (i : Nat) (l : List Nat) (a : BitVec n) :
    (l.foldl (fun a k => a ||| f k) a).getLsbD i = (a.getLsbD i || l.any fun k => (f k).getLsbD i) := by
  induction l generalizing a with
  | nil => simp
  | cons k ks ih => rw [List.foldl_cons, ih, BitVec.getLsbD_or, List.any_cons, Bool.or_assoc]

theorem getLsbD_one_shiftLeft {k j : Nat} (hk : k < 16) : ((1 : Slices) <<< j).getLsbD k = decide (k = j) := by
  rw [BitVec.getLsbD_shiftLeft, decide_eq_true hk, Bool.true_and]
  by_cases hlt : k < j
  · have hne : k ≠ j := by omega
    simp [hlt, hne]
  · rw [decide_eq_false hlt, Bool.not_false, Bool.true_and, show (1 : Slices) = 1#16 from rfl, BitVec.getLsbD_one]
    have hiff : k - j = 0 ↔ k = j := by omega
    simp [hiff]

/-! ## The slices that take a branch wholly, and those that take it in part -/

theorem getLsbD_takenSlices (x : Slices) (act take : Lanes) {k : Nat} (hk : k < 16) : (takenSlices x act take).getLsbD k = true ↔
    x.getLsbD k = true ∧ act &&& lanesOfSlice k ≠ 0 ∧ act &&& lanesOfSlice k &&& ~~~ take = 0 := by
  have hfold (l : List Nat) (a : Slices) : (l.foldl (fun (a : Slices) k =>
      if act &&& lanesOfSlice k != 0 && (act &&& lanesOfSlice k &&& ~~~ take) == 0 then a ||| (1 : Slices) <<< k else a) a).getLsbD k = true ↔
      a.getLsbD k = true ∨ (k ∈ l ∧ act &&& lanesOfSlice k ≠ 0 ∧ act &&& lanesOfSlice k &&& ~~~ take = 0) := by
    induction l generalizing a with
    | nil => simp
    | cons j js ih =>
      rw [List.foldl_cons, ih]
      split
      · next hj =>
        rw [BitVec.getLsbD_or, Bool.or_eq_true, getLsbD_one_shiftLeft hk, decide_eq_true_eq, List.mem_cons]
        by_cases hkj : k = j
        · subst hkj
          have hwhole : act &&& lanesOfSlice k ≠ 0 ∧ act &&& lanesOfSlice k &&& ~~~ take = 0 := by simpa using hj
          tauto
        · tauto
      · next hj =>
        have hnot : ¬ (act &&& lanesOfSlice j ≠ 0 ∧ act &&& lanesOfSlice j &&& ~~~ take = 0) := by simpa using hj
        by_cases hkj : k = j
        · subst hkj
          tauto
        · simp [hkj]
  rw [takenSlices, hfold, mem_sliceList]
  simp [hk]

theorem mem_mixedSlices (x : Slices) (act take : Lanes) (k : Nat) : k ∈ mixedSlices x act take ↔
    (k < 16 ∧ x.getLsbD k = true) ∧ take &&& lanesOfSlice k ≠ 0 ∧ act &&& lanesOfSlice k &&& ~~~ take ≠ 0 := by
  rw [mixedSlices, List.mem_filter, mem_sliceList, Bool.and_eq_true, bne_iff_ne, bne_iff_ne]

/-- Where every active lane takes a branch no slice takes it in part. -/
theorem mixedSlices_of_all {x : Slices} {act take : Lanes} (h : act &&& ~~~ take = 0) (k : Nat) : k ∉ mixedSlices x act take := by
  rw [mem_mixedSlices]
  rintro ⟨_, _, hrest⟩
  apply hrest
  rw [BitVec.and_assoc, BitVec.and_comm (lanesOfSlice k), ← BitVec.and_assoc, h]
  exact BitVec.zero_and

/-! ## The pending entries -/

theorem pushPending_em (g : Gang) (mixed : List Nat) (take : Lanes) (t : W64) (k : Nat) :
    (g.pushPending mixed take t).em &&& lanesOfSlice k =
      if k ∈ mixed then g.em &&& lanesOfSlice k &&& ~~~ take else g.em &&& lanesOfSlice k := by
  have hbit {i : Nat} (hi : i < 128) : ((g.pushPending mixed take t).em &&& lanesOfSlice k).getLsbD i =
      (g.em.getLsbD i && !(decide (k ∈ mixed) && take.getLsbD i) && decide (i / 8 = k)) := by
    have hany : (mixed.any fun j => (take &&& lanesOfSlice j).getLsbD i) = (decide (i / 8 ∈ mixed) && take.getLsbD i) := by
      rw [Bool.eq_iff_iff]
      simp only [List.any_eq_true, BitVec.getLsbD_and, getLsbD_lanesOfSlice _ hi, Bool.and_eq_true, decide_eq_true_eq]
      exact ⟨fun ⟨j, hj, htake, hij⟩ => ⟨hij ▸ hj, htake⟩, fun ⟨hj, htake⟩ => ⟨_, hj, htake, rfl⟩⟩
    have hpushed : (mixed.foldl (fun a k => a ||| (take &&& lanesOfSlice k)) (0 : Lanes)).getLsbD i =
        (decide (i / 8 ∈ mixed) && take.getLsbD i) := by
      rw [getLsbD_foldl_or, hany, show (0 : Lanes) = 0#128 from rfl, BitVec.getLsbD_zero, Bool.false_or]
    rw [BitVec.getLsbD_and, Gang.pushPending, BitVec.getLsbD_and, BitVec.getLsbD_not, hpushed, decide_eq_true hi, Bool.true_and,
      getLsbD_lanesOfSlice _ hi]
    by_cases hik : i / 8 = k
    · rw [hik]
    · simp [hik]
  apply BitVec.eq_of_getLsbD_eq
  intro i hi
  rw [hbit hi]
  by_cases hk : k ∈ mixed
  · rw [if_pos hk, decide_eq_true hk, BitVec.getLsbD_and, BitVec.getLsbD_and, BitVec.getLsbD_not, decide_eq_true hi,
      getLsbD_lanesOfSlice _ hi, Bool.true_and, Bool.true_and, Bool.and_right_comm]
  · rw [if_neg hk, decide_eq_false hk, BitVec.getLsbD_and, getLsbD_lanesOfSlice _ hi, Bool.false_and, Bool.not_false, Bool.and_true]

theorem pushPending_reconv (g : Gang) (mixed : List Nat) (take : Lanes) (t : W64) (k : Nat) :
    (g.pushPending mixed take t).reconv[k]? = g.reconv[k]?.map fun st =>
      if k ∈ mixed then { merge := false, lanes := take &&& lanesOfSlice k, addr := t } :: st else st := by
  rw [Gang.pushPending, List.getElem?_mapIdx]
  simp only [List.contains_iff_mem]

/-! ## The gang behind the branch -/

/-- What a branch makes of its gang: the whole group branches, or falls through, or the group of the slices that take it stands
beside what goes on. -/
theorem branch_cases {g h : Gang} {r : Group} {u : Run} {act take : Lanes} {t : W64} {j : Nat}
    (hb : g.branch r u act take t = some (h, j)) :
    ((take ≠ 0 ∧ act &&& ~~~ take = 0) ∧ h = g.setGroup { r with run := some { u with next := some t } } ∧ j = lowSlice r.slices) ∨
    (¬ (take ≠ 0 ∧ act &&& ~~~ take = 0) ∧ ∃ q : Gang, q = g.pushPending (mixedSlices (r.slices &&& g.live) act take) take t ∧
      ((takenSlices (r.slices &&& g.live) act take = 0 ∧ h = q.setGroup r ∧ j = lowSlice r.slices) ∨
      (takenSlices (r.slices &&& g.live) act take ≠ 0 ∧ ∃ fall : Group,
        fall = { r with slices := r.slices &&& ~~~ takenSlices (r.slices &&& g.live) act take, readyAt := none, keepOn := none } ∧
        h = q.replaceGroups r.slices [fall, Group.at (takenSlices (r.slices &&& g.live) act take) t] ∧ j = lowSlice fall.slices))) := by
  unfold Gang.branch at hb
  dsimp only at hb
  split at hb
  · next hall =>
    cases hb
    exact .inl ⟨by simpa using hall, rfl, rfl⟩
  · next hall =>
    split at hb
    · cases hb
    · refine .inr ⟨by simpa using hall, _, rfl, ?_⟩
      split at hb
      · next htaken =>
        cases hb
        exact .inl ⟨beq_iff_eq.mp htaken, rfl, rfl⟩
      · next htaken =>
        cases hb
        exact .inr ⟨fun h0 => htaken (beq_iff_eq.mpr h0), _, rfl, rfl, rfl⟩

/-- Settles O21, by what the branch makes of the gang; its pending entries are those of the slices that take it in part. -/
theorem branchSplits : Obligations.BranchSplits := by
  unfold Obligations.BranchSplits
  intro g h r u act take t j hb
  dsimp only
  rcases branch_cases hb with ⟨hall, rfl, hj⟩ | ⟨hall, q, rfl, hsplit⟩
  · refine ⟨fun _ => ⟨rfl, hj⟩, fun hnot => absurd hall hnot, fun k hk => ⟨fun hmixed => ?_, fun _ => ⟨rfl, rfl⟩⟩, rfl, rfl, rfl, rfl, rfl, rfl⟩
    obtain ⟨hx, htake, hrest⟩ := hmixed
    exact absurd ((mem_mixedSlices _ _ _ _).mpr ⟨⟨hk, hx⟩, htake, hrest⟩) (mixedSlices_of_all hall.2 k)
  · have hpush : h.em = (g.pushPending (mixedSlices (r.slices &&& g.live) act take) take t).em ∧
        h.reconv = (g.pushPending (mixedSlices (r.slices &&& g.live) act take) take t).reconv ∧ h.vregs = g.vregs ∧ h.sregs = g.sregs ∧
        h.masks = g.masks ∧ h.astatus = g.astatus ∧ h.present = g.present ∧ h.galley = g.galley := by
      rcases hsplit with ⟨_, rfl, _⟩ | ⟨_, fall, _, rfl, _⟩ <;> exact ⟨rfl, rfl, rfl, rfl, rfl, rfl, rfl, rfl⟩
    obtain ⟨hem, hreconv, hframe⟩ := hpush
    refine ⟨fun h => absurd h hall, fun _ => ⟨takenSlices (r.slices &&& g.live) act take, fun k hk => getLsbD_takenSlices _ _ _ hk, ?_, ?_⟩,
      fun k hk => ⟨fun hmixed => ?_, fun hmixed => ?_⟩, hframe⟩
    · intro htaken
      rcases hsplit with ⟨_, rfl, rfl⟩ | ⟨hne, _⟩
      · exact ⟨rfl, rfl⟩
      · exact absurd htaken hne
    · intro htaken
      rcases hsplit with ⟨h0, _⟩ | ⟨_, fall, hfall, rfl, hj⟩
      · exact absurd h0 htaken
      · exact ⟨fall, _, rfl, hfall, hj, rfl, rfl, rfl, rfl, rfl, rfl⟩
    · obtain ⟨hx, htake, hrest⟩ := hmixed
      have hmem := (mem_mixedSlices (r.slices &&& g.live) act take k).mpr ⟨⟨hk, hx⟩, htake, hrest⟩
      rw [hem, hreconv, pushPending_em, if_pos hmem, pushPending_reconv]
      exact ⟨rfl, fun st hst => by rw [hst, Option.map_some, if_pos hmem]⟩
    · have hmem : k ∉ mixedSlices (r.slices &&& g.live) act take := by
        rw [mem_mixedSlices]
        exact fun ⟨⟨_, hx⟩, htake, hrest⟩ => hmixed ⟨hx, htake, hrest⟩
      rw [hem, hreconv, pushPending_em, if_neg hmem, pushPending_reconv]
      simp only [if_neg hmem, Option.map_id_fun', id_eq, and_self]

end Sys2Proof.BranchSplit
end

section
/-! PROOFS. The plain control words: `skip`, `gang.all`, `yield`, `nop`, `prefetch`, `trap` and `rte` (R50, R120, R122, R197, R199, R200). -/
namespace Sys2Proof.ControlWords
open Sys2Proof.Machine

section
variable {s : State} {c : Ctx} {f : FmtK} (h : Issues s c false false)
include h

/-- A trap inside a clause resumes at the word behind, in the same clause (R197). -/
theorem exec_trap_inside (hmore : c.run.idx + 1 < c.run.words.length) : exec (.trap f) s =
    .next (s.takeFault c.uid c.slice { c.raise .softwareTrap (BitVec.ofNat 64 f.imm.toNat) with tret := c.pc + 8 }) :=
  congrArg Host.Outcome.next (issueWord_left h (if_neg (Nat.not_le.mpr hmore)))

/-- A trap as the last word of a clause ends the clause (R204). -/
theorem exec_trap_last (hlast : c.run.words.length ≤ c.run.idx + 1) : exec (.trap f) s =
    .next ((s.setGang (c.gang.takePending c.run.allot)).takeFault c.uid c.slice
      { c.raise .softwareTrap (BitVec.ofNat 64 f.imm.toNat) with tret := c.pc + 8, mid := none, skips := [], allot := none }) :=
  congrArg Host.Outcome.next (issueWord_left h (if_pos hlast))

theorem exec_rte_debug {core : Nat} (hplace : c.gang.place = .handler core) :
    exec (.rte f) s = .next ((s.setGang (c.gang.leaveClause c.grp c.grp)).endHandling core c.uid) :=
  congrArg Host.Outcome.next (issueWord_left h (by rw [hplace]))

/-- Away from the debug handler, `rte` is judged by whether the group is in the gang's own handler (R200). -/
theorem exec_rte_gang (hplace : ∀ core, c.gang.place ≠ .handler core) :
    (c.gang.inHandler c.grp = false → exec (.rte f) s = .next (s.faults c .illegalInstruction c.pc)) ∧
    (c.gang.inHandler c.grp = true → exec (.rte f) s =
      .next ((s.setGang (c.gang.leaveClause c.grp { c.grp with status := .heldRte, pc := c.pc })).settleTrap c.uid c.pc)) := by
  refine ⟨fun hout => congrArg Host.Outcome.next (issueWord_trap h ?_), fun hin => congrArg Host.Outcome.next (issueWord_left h ?_)⟩
  · split
    · next core hp => exact absurd hp (hplace core)
    · rw [hout, if_neg Bool.false_ne_true]
  · split
    · next core hp => exact absurd hp (hplace core)
    · rw [hin, if_pos rfl]

end

/-- Settles O22, word by word. -/
theorem plainControl : Obligations.PlainControl := by
  unfold Obligations.PlainControl
  refine ⟨fun s c f h => ⟨exec_trap_inside h, exec_trap_last h, fun core => exec_rte_debug h, exec_rte_gang h⟩, fun s c => ⟨fun h => ?_, fun h f => ?_⟩⟩
  · exact ⟨fun f => congrArg Host.Outcome.next (issueWord_ok h rfl), fun f => congrArg Host.Outcome.next (issueWord_ok h rfl),
      fun f => congrArg Host.Outcome.next (issueWord_ok h rfl), fun f => congrArg Host.Outcome.next (issueWord_ok h rfl)⟩
  · exact congrArg Host.Outcome.next (issueWord_ok h rfl)

end Sys2Proof.ControlWords
end

section
/-! PROOFS. What passing a word changes (R13, R114, R204). -/
namespace Sys2Proof.Passing
open Sys2Proof.Machine Sys2Proof.PressMemory Sys2Proof.PressTraps

/-- The group of the current word runs its clause. -/
theorem run_of_ctx? {s : State} {c : Ctx} (h : s.ctx? = some c) : c.grp.run = some c.run := by
  unfold State.ctx? at h
  repeat' split at h
  all_goals cases h
  assumption

/-- A group that leaves its clause with no allotment pending changes the groups and the flags of its gang. -/
theorem leaveClause_frame {g : Gang} {r r' : Group} (hallot : r.run.bind (fun (u : Run) => u.allot) = none) :
    { g.leaveClause r r' with groups := g.groups, flags := g.flags } = g := by
  rw [Gang.leaveClause, hallot]
  rfl

/-- A group that passes a word leaves its clause, or goes on in it. -/
theorem advance_cases (g : Gang) (r : Group) (u : Run) :
    (∃ r1 r2 : Group, r1.run = r.run ∧ g.advance r u = g.leaveClause r1 r2) ∨ ∃ r1 : Group, g.advance r u = g.setGroup r1 := by
  unfold Gang.advance
  extract_lets v q
  split
  · exact .inl ⟨q, _, rfl, rfl⟩
  · exact .inr ⟨_, rfl⟩

/-- A group that passes a word with no allotment pending changes the groups and the flags of its gang. -/
theorem advance_frame {g : Gang} {r : Group} {u : Run} (hrun : r.run = some u) (hallot : u.allot = none) :
    { g.advance r u with groups := g.groups, flags := g.flags } = g := by
  rcases advance_cases g r u with ⟨r1, r2, hr, hadv⟩ | ⟨r1, hadv⟩
  · rw [hadv]
    exact leaveClause_frame (by rw [hr, hrun]; exact hallot)
  · rw [hadv]
    rfl

/-- Passing a word is a change of the group's gang. -/
theorem goesOn_eq {s : State} {c : Ctx} {g : Gang} (h : s.ctx? = some c) (huid : g.uid = c.gang.uid) (hgroups : g.groups = c.gang.groups) :
    s.goesOn c g = (s.setGang g).setGang (g.advance c.grp c.run) := by
  have hgang : s.gang? g.uid = some c.gang := by
    have hc := gang?_of_ctx? h
    rwa [← s.gang?_uid _ _ hc, ← huid] at hc
  have hself : (s.setGang g).gang? c.uid = some g := by
    rw [← s.gang?_uid _ _ (gang?_of_ctx? h), ← huid]
    exact s.gang?_setGang_self g c.gang hgang
  have hgroup : g.group? c.slice = some c.grp := by
    have hc := group?_of_ctx? h
    rwa [Gang.group?, ← hgroups] at hc
  rw [State.goesOn, State.advance, updGang_eq_setGang hself, hgroup]
  dsimp only
  rw [run_of_ctx? h]

/-- Settles O57: passing the word changes the gang, and of it the groups and the flags. -/
theorem passingFrame : Obligations.PassingFrame := by
  unfold Obligations.PassingFrame
  intro s c g h huid hgroups hallot
  have hframe := advance_frame (g := g) (run_of_ctx? h) hallot
  have hadv : (g.advance c.grp c.run).uid = c.gang.uid := (congrArg Gang.uid hframe).trans huid
  have hc := gang?_of_ctx? h
  have hcuid : c.gang.uid = c.uid := s.gang?_uid _ _ hc
  dsimp only
  rw [goesOn_eq h huid hgroups]
  refine ⟨rfl, fun u hu => ?_, _, gang?_setGang_setGang hc huid hadv, hframe⟩
  rw [State.gang?_setGang_other _ _ _ (by rw [hadv, hcuid]; exact hu), State.gang?_setGang_other _ _ _ (by rw [huid, hcuid]; exact hu)]

end Sys2Proof.Passing
end

section
/-! PROOFS. The frame of the words that write registers at issue: one relation between a gang before and after, kept by every register
write that stays within the word's destination and active lanes (R69, R84, R98, R111, R128). -/
namespace Sys2Proof.RegisterFrame
open Sys2Proof.Machine Sys2Proof.PressEncoding Sys2Proof.FormatsNumbers Sys2Proof.ScalarControl Sys2Proof.PressVector
  Sys2Proof.PressMemory Sys2Proof.PressTraps Sys2Proof.Passing

/-- Gang h is gang g with registers written within a destination: its pair where `pair` holds, a vector in the given lanes; the sticky
bits are as before where `quiet` holds. -/
structure RegFrame (dst : Opd) (pair : Bool) (quiet : Prop) (lanes : Lanes) (g h : Gang) : Prop where
  rest : h = { g with
    sregs := h.sregs, fresh := h.fresh, vregs := h.vregs, masks := h.masks, em := h.em, astatus := h.astatus
    freshBits := h.freshBits, tvec := h.tvec, tcause := h.tcause, tval := h.tval, tret := h.tret, ops := h.ops }
  ops : h.ops.map (fun o => { o with rewritten := [] }) = g.ops.map (fun o => { o with rewritten := [] })
  scalars : ∀ m, (∀ n : BitVec 9, dst = .s n → m ≠ n.toNat ∧ (pair = true → m ≠ n.toNat + 1)) → h.rawS m = g.rawS m
  vectors : ∀ m k, k < 128 → (∀ n : BitVec 8, dst = .v n → lanes.getLsbD k = true →
    m ≠ n.toNat ∧ (pair = true → m ≠ n.toNat + 1)) → h.rawV m k = g.rawV m k
  masks : ∀ m, m < 16 → dst ≠ .m (BitVec.ofNat 4 m) → h.rawM m = g.rawM m
  em : dst ≠ .em → h.em = g.em
  unset : quiet → dst ≠ .sr .astatus → h.astatus = g.astatus
  sticky : dst ≠ .sr .astatus → ∀ b, g.astatus.getLsbD b = true → h.astatus.getLsbD b = true
  tvec : dst ≠ .sr .tvec → h.tvec = g.tvec
  tcause : dst ≠ .sr .tcause → h.tcause = g.tcause
  tval : dst ≠ .sr .tval → h.tval = g.tval
  tret : dst ≠ .sr .tret → h.tret = g.tret

variable {dst : Opd} {pair : Bool} {quiet : Prop} {lanes : Lanes} {g h : Gang}

theorem RegFrame.refl : RegFrame dst pair quiet lanes g g :=
  ⟨rfl, rfl, fun _ _ => rfl, fun _ _ _ _ => rfl, fun _ _ _ => rfl, fun _ => rfl, fun _ _ => rfl, fun _ _ h => h, fun _ => rfl, fun _ => rfl,
    fun _ => rfl, fun _ => rfl⟩

theorem RegFrame.trans {j : Gang} (h1 : RegFrame dst pair quiet lanes g h) (h2 : RegFrame dst pair quiet lanes h j) :
    RegFrame dst pair quiet lanes g j where
  rest := h2.rest.trans (by rw [h1.rest])
  ops := h2.ops.trans h1.ops
  scalars m hm := (h2.scalars m hm).trans (h1.scalars m hm)
  vectors m k hk hm := (h2.vectors m k hk hm).trans (h1.vectors m k hk hm)
  masks m hlt hm := (h2.masks m hlt hm).trans (h1.masks m hlt hm)
  em hd := (h2.em hd).trans (h1.em hd)
  unset hq hd := (h2.unset hq hd).trans (h1.unset hq hd)
  sticky hd b hb := h2.sticky hd b (h1.sticky hd b hb)
  tvec hd := (h2.tvec hd).trans (h1.tvec hd)
  tcause hd := (h2.tcause hd).trans (h1.tcause hd)
  tval hd := (h2.tval hd).trans (h1.tval hd)
  tret hd := (h2.tret hd).trans (h1.tret hd)

/-- Noting that a register was written again leaves the operations else as they are (R14). -/
theorem noteOver_ops (g : Gang) (key : Nat) :
    (g.noteOver key).ops.map (fun o => { o with rewritten := [] }) = g.ops.map (fun o => { o with rewritten := [] }) := by
  rw [Gang.noteOver, List.map_map]
  rfl

/-! ## Scalar writes -/

theorem RegFrame.wrS {n : BitVec 9} {reg : Nat} (x : W32) (hreg : reg = n.toNat ∨ (pair = true ∧ reg = n.toNat + 1)) :
    RegFrame (.s n) pair quiet lanes g (g.wrS reg x) := by
  have hscalars (m : Nat) (hm : ∀ k : BitVec 9, Opd.s n = .s k → m ≠ k.toNat ∧ (pair = true → m ≠ k.toNat + 1)) :
      (g.wrS reg x).rawS m = g.rawS m := by
    obtain ⟨hlow, hhigh⟩ := hm n rfl
    have hne : m ≠ reg := by
      rcases hreg with rfl | ⟨hp, rfl⟩
      · exact hlow
      · exact hhigh hp
    rw [rawS_wrS, if_neg fun h => hne h.1]
  by_cases h0 : reg = 0
  · rw [Gang.wrS, if_pos h0]
    exact .refl
  · refine ⟨?_, ?_, hscalars, ?_, ?_, ?_, ?_, ?_, ?_, ?_, ?_, ?_⟩ <;> rw [Gang.wrS, if_neg h0]
    case refine_2 => exact noteOver_ops g _
    case refine_7 => exact fun _ _ hb => hb
    all_goals intros; rfl

theorem RegFrame.wrScalar32 (x : Nat) : RegFrame dst pair quiet lanes g (g.wrScalar32 dst x) := by
  unfold Gang.wrScalar32
  split
  · exact .wrS _ (.inl rfl)
  · exact .refl

theorem RegFrame.wrScalar64 (hp : pair = true) (x : W64) : RegFrame dst pair quiet lanes g (g.wrScalar64 dst x) := by
  unfold Gang.wrScalar64
  split
  · exact (RegFrame.wrS _ (.inl rfl)).trans (.wrS _ (.inr ⟨hp, rfl⟩))
  · exact .refl

theorem RegFrame.wrScalar {t : Ty} (hp : t.is64 = true → pair = true) (x : Nat) :
    RegFrame dst pair quiet lanes g (g.wrScalar t dst x) := by
  unfold Gang.wrScalar
  split
  · split
    · next ht => exact (RegFrame.wrS _ (.inl rfl)).trans (.wrS _ (.inr ⟨hp ht, rfl⟩))
    · exact .wrS _ (.inl rfl)
  · exact .refl

/-! ## Mask writes -/

theorem RegFrame.wrMask (l x : Lanes) : RegFrame dst pair quiet lanes g (g.wrMask dst l x) := by
  unfold Gang.wrMask
  split
  · exact ⟨rfl, rfl, fun _ _ => rfl, fun _ _ _ _ => rfl, fun _ _ _ => rfl, fun hd => absurd rfl hd, fun _ _ => rfl, fun _ _ hb => hb,
      fun _ => rfl, fun _ => rfl, fun _ => rfl, fun _ => rfl⟩
  · next n =>
    have hmasks (m : Nat) (hlt : m < 16) (hd : Opd.m n ≠ .m (BitVec.ofNat 4 m)) : (g.wrM n.toNat l x).rawM m = g.rawM m := by
      have hne : m ≠ n.toNat := by
        rintro rfl
        exact hd (by rw [BitVec.ofNat_toNat, BitVec.setWidth_eq])
      exact (Store.getD_putD 0 g.masks n.toNat m _).trans (if_neg hne)
    have hops : (g.wrM n.toNat l x).ops.map (fun o => { o with rewritten := [] }) = g.ops.map (fun o => { o with rewritten := [] }) := by
      rw [Gang.wrM, Gang.noteMask, List.map_map]
      rfl
    exact ⟨rfl, hops, fun _ _ => rfl, fun _ _ _ _ => rfl, hmasks, fun _ => rfl, fun _ _ => rfl, fun _ _ hb => hb, fun _ => rfl,
      fun _ => rfl, fun _ => rfl, fun _ => rfl⟩
  · exact .refl

/-! ## Vector writes, lane by lane -/

theorem RegFrame.wrV {n : BitVec 8} {reg j : Nat} (x : W32) (hreg : reg = n.toNat ∨ (pair = true ∧ reg = n.toNat + 1)) (hj : j < 128)
    (hlane : lanes.getLsbD j = true) : RegFrame (.v n) pair quiet lanes g (g.wrV reg j x) := by
  have hvectors (m k : Nat) (hk : k < 128) (hm : ∀ i : BitVec 8, Opd.v n = .v i → lanes.getLsbD k = true →
      m ≠ i.toNat ∧ (pair = true → m ≠ i.toNat + 1)) : (g.wrV reg j x).rawV m k = g.rawV m k := by
    rw [rawV_wrV g reg m x hj hk, if_neg]
    rintro ⟨rfl, rfl⟩
    obtain ⟨hlow, hhigh⟩ := hm n rfl hlane
    rcases hreg with rfl | ⟨hp, rfl⟩
    · exact hlow rfl
    · exact hhigh hp rfl
  exact ⟨rfl, noteOver_ops g _, fun _ _ => rfl, hvectors, fun _ _ _ => rfl, fun _ => rfl, fun _ _ => rfl, fun _ _ hb => hb, fun _ => rfl,
    fun _ => rfl, fun _ => rfl, fun _ => rfl⟩

section
variable {j : Nat} (hj : j < 128) (hlane : lanes.getLsbD j = true)
include hj hlane

theorem RegFrame.wrLane32 (x : Nat) : RegFrame dst pair quiet lanes g (g.wrLane32 dst j x) := by
  unfold Gang.wrLane32
  split
  · exact .wrV _ (.inl rfl) hj hlane
  · exact .refl

theorem RegFrame.wrLane {t : Ty} (hp : t.is64 = true → pair = true) (x : Nat) :
    RegFrame dst pair quiet lanes g (g.wrLane t dst j x) := by
  unfold Gang.wrLane
  split
  · split
    · next ht => exact (RegFrame.wrV _ (.inl rfl) hj hlane).trans (.wrV _ (.inr ⟨hp ht, rfl⟩) hj hlane)
    · exact .wrV _ (.inl rfl) hj hlane
  · exact .refl

theorem RegFrame.wrSlot {f : FmtCV} (hp : f.dty.is64 = true → pair = true) (x : Nat) :
    RegFrame f.dst pair quiet lanes g (g.wrSlot f j x) := by
  have hwide : f.dty.width = 64 → f.dty.is64 = true := by cases f.dty <;> decide
  unfold Gang.wrSlot
  split
  · next hd =>
    rw [hd]
    split
    · next hw => exact (RegFrame.wrV _ (.inl rfl) hj hlane).trans (.wrV _ (.inr ⟨hp (hwide hw), rfl⟩) hj hlane)
    · exact .wrV _ (.inl rfl) hj hlane
  · exact .refl

end

theorem RegFrame.setSticky (hq : ¬ quiet) (x : W32) : RegFrame dst pair quiet lanes g (g.setSticky x) :=
  ⟨rfl, rfl, fun _ _ => rfl, fun _ _ _ _ => rfl, fun _ _ _ => rfl, fun _ => rfl, fun h => absurd h hq,
    fun _ b hb => by rw [Gang.setSticky, BitVec.getLsbD_or, hb, Bool.true_or], fun _ => rfl, fun _ => rfl, fun _ => rfl, fun _ => rfl⟩

/-- Writes of one lane after another stay in those lanes. -/
theorem RegFrame.foldl_lanes {α : Type} {w : Gang → Nat → α → Gang} {v : Nat → α}
    (hw : ∀ h k x, k < 128 → lanes.getLsbD k = true → RegFrame dst pair quiet lanes h (w h k x)) :
    RegFrame dst pair quiet lanes g (((laneList lanes).map fun k => (k, v k)).foldl (fun h r => w h r.1 r.2) g) :=
  List.foldlRecOn (motive := RegFrame dst pair quiet lanes g) _ _ .refl fun h hh r hr => by
    obtain ⟨k, hk, rfl⟩ := List.mem_map.mp hr
    obtain ⟨hlt, hlane⟩ := (mem_laneList lanes k).mp hk
    exact hh.trans (hw h k (v k) hlt hlane)

theorem RegFrame.eachLane (hq : ¬ quiet) {f : LaneFn} {w : Gang → Nat → Nat → Gang}
    (hw : ∀ h k x, k < 128 → lanes.getLsbD k = true → RegFrame dst pair quiet lanes h (w h k x)) :
    RegFrame dst pair quiet lanes g (g.eachLane lanes f w) :=
  (RegFrame.foldl_lanes (w := fun h k (x : Nat × W32) => w h k x.1) fun h k x hk hl => hw h k x.1 hk hl).trans (.setSticky hq _)

/-! ## Special registers -/

theorem RegFrame.specials {x tc : W32} {tv tl tr : W64} (hx : dst ≠ .sr .astatus → x = g.astatus) (hv : dst ≠ .sr .tvec → tv = g.tvec)
    (hc : dst ≠ .sr .tcause → tc = g.tcause) (hl : dst ≠ .sr .tval → tl = g.tval) (hr : dst ≠ .sr .tret → tr = g.tret) :
    RegFrame dst pair quiet lanes g { g with astatus := x, tvec := tv, tcause := tc, tval := tl, tret := tr } :=
  ⟨rfl, rfl, fun _ _ => rfl, fun _ _ _ _ => rfl, fun _ _ _ => rfl, fun _ => rfl, fun _ => hx, fun hd _ hb => by rw [← hx hd] at hb; exact hb,
    hv, hc, hl, hr⟩

theorem RegFrame.ite {p : Prop} [Decidable p] {j : Gang} (h1 : RegFrame dst pair quiet lanes g h) (h2 : RegFrame dst pair quiet lanes g j) :
    RegFrame dst pair quiet lanes g (if p then h else j) := by
  split
  · exact h1
  · exact h2

theorem RegFrame.writeSpecial (g : Gang) (now : Nat) (r : SReg) (a : Opd) :
    RegFrame (.sr r) pair quiet lanes g (g.writeSpecial now r a) := by
  cases r with
  | astatus => exact .specials (fun hd => absurd rfl hd) (fun _ => rfl) (fun _ => rfl) (fun _ => rfl) (fun _ => rfl)
  | tvec => exact .specials (fun _ => rfl) (fun hd => absurd rfl hd) (fun _ => rfl) (fun _ => rfl) (fun _ => rfl)
  | tcause => exact .ite (.specials (fun _ => rfl) (fun _ => rfl) (fun hd => absurd rfl hd) (fun _ => rfl) (fun _ => rfl)) .refl
  | tval => exact .ite (.specials (fun _ => rfl) (fun _ => rfl) (fun _ => rfl) (fun hd => absurd rfl hd) (fun _ => rfl)) .refl
  | tret => exact .ite (.specials (fun _ => rfl) (fun _ => rfl) (fun _ => rfl) (fun _ => rfl) (fun hd => absurd rfl hd)) .refl
  | _ => exact .refl

/-! ## Words -/

/-- Word i executes in its gang alone, and what it writes stays within its destination and active lanes. -/
def WordFrame (s : State) (c : Ctx) (i : Instr) (quiet : Prop) (dst : Opd) (mask : MaskSel) : Prop :=
  ∃ g, exec i s = s.passes c g ∧ RegFrame dst (pairDest i) quiet (c.active s.now mask) c.gang g

section
variable {s : State} {c : Ctx} {i : Instr} {mask : MaskSel}

/-- A scalar form. -/
theorem WordFrame.scalarForm {w : Nat → Gang → Gang} (h : Issues s c false false) (hi : exec i s = .next (Machine.scalarForm w s))
    (hw : RegFrame dst (pairDest i) quiet (c.active s.now mask) c.gang (w s.now c.gang)) : WordFrame s c i quiet dst mask :=
  ⟨_, hi.trans (scalarForm_passes h w), hw⟩

/-- A mask form, and a scalar form of the lanes of a mask. -/
theorem WordFrame.maskForm {w : Nat → Gang → Lanes → Gang} (h : Issues s c false true) (hi : exec i s = .next (Machine.maskForm w s))
    (hw : RegFrame dst (pairDest i) quiet (c.active s.now mask) c.gang (w s.now c.gang c.maskLanes)) : WordFrame s c i quiet dst mask :=
  ⟨_, hi.trans (maskForm_passes h w), hw⟩

theorem WordFrame.maskCount {w : Nat → Gang → Lanes → Gang} (h : Issues s c false false) (hi : exec i s = .next (Machine.maskCount w s))
    (hw : RegFrame dst (pairDest i) quiet (c.active s.now mask) c.gang (w s.now c.gang c.maskLanes)) : WordFrame s c i quiet dst mask :=
  ⟨_, hi.trans (maskCount_passes h w), hw⟩

/-- A vector form; its sticky bits may be set. -/
theorem WordFrame.vecForm {gang : Bool} {t : Ty} {f : Nat → LaneFn} (h : Issues s c gang false)
    (hi : exec i s = .next (Machine.vecForm mask gang t dst f s)) (hq : ¬ quiet) (hp : t.is64 = true → pairDest i = true) :
    WordFrame s c i quiet dst mask :=
  ⟨_, hi.trans (vecForm_passes h t dst f), .eachLane hq fun _ _ x hk hl => .wrLane hk hl hp x⟩

theorem WordFrame.vecForm32 {gang : Bool} {f : Nat → LaneFn} (h : Issues s c gang false)
    (hi : exec i s = .next (Machine.vecForm32 mask gang dst f s)) (hq : ¬ quiet) : WordFrame s c i quiet dst mask :=
  ⟨_, hi.trans (vecForm32_passes h dst f), .eachLane hq fun _ _ x hk hl => .wrLane32 hk hl x⟩

theorem WordFrame.convForm {f : FmtCV} {op : Bool → Nat → Nat × W32} (h : Issues s c f.gang false) (hi : exec i s = .next (Machine.convForm f op s))
    (hq : ¬ quiet) (hp : f.dty.is64 = true → pairDest i = true) : WordFrame s c i quiet f.dst f.mask :=
  ⟨_, hi.trans (convForm_passes h op), .eachLane hq fun _ _ x hk hl => .wrSlot hk hl hp x⟩

/-- A vector compare writes a mask, or a vector of ones and zeros. -/
theorem WordFrame.vecCompare {gang : Bool} {f : Nat → LaneFn} (h : Issues s c gang false)
    (hi : exec i s = .next (Machine.vecCompare mask gang dst f s)) (hq : ¬ quiet) : WordFrame s c i quiet dst mask := by
  refine ⟨_, hi.trans (congrArg Host.Outcome.next (issueWord_ok h rfl)), RegFrame.trans ?_ (.setSticky hq _)⟩
  split
  · next n => exact .foldl_lanes (w := fun h k (x : Nat × W32) => h.wrLane32 (.v n) k x.1) fun h k x hk hl => .wrLane32 hk hl _
  · exact .wrMask _ _

end

section
variable {s : State} {c : Ctx}

/-- The second of two changes of one gang stays. -/
theorem setGang_setGang {g1 g2 : Gang} (h : g1.uid = g2.uid) : (s.setGang g1).setGang g2 = s.setGang g2 := by
  have hmap (x : Gang) : (if (if x.uid == g1.uid then g1 else x).uid == g2.uid then g2 else (if x.uid == g1.uid then g1 else x)) =
      if x.uid == g2.uid then g2 else x := by
    by_cases hx : x.uid = g2.uid <;> simp [h, hx]
  unfold State.setGang
  simp only [List.map_map]
  exact congrArg (fun l => { s with gangs := l }) (List.map_congr_left fun x _ => hmap x)

theorem advance_uid (g : Gang) (r : Group) (u : Run) : (g.advance r u).uid = g.uid := by
  rcases advance_cases g r u with ⟨r1, r2, _, hadv⟩ | ⟨r1, hadv⟩
  · rw [hadv, Gang.leaveClause]
    unfold Gang.takePending
    split <;> rfl
  · rw [hadv]
    rfl

/-- A word that changes nothing has executed in its gang as it is. -/
theorem advance_eq_goesOn (h : s.ctx? = some c) : s.advance c.uid c.slice = s.goesOn c c.gang := by
  rw [goesOn_eq h rfl rfl, setGang_setGang (advance_uid _ _ _).symm, State.advance, updGang_eq_setGang (gang?_of_ctx? h), group?_of_ctx? h]
  dsimp only
  rw [run_of_ctx? h]

/-- Without a mask operand the active lanes are all that do not skip the word (R120). -/
theorem active_em (c : Ctx) (now : Nat) : c.active now .em = c.activeAll := by
  unfold Ctx.active Ctx.activeAll
  split
  · rfl
  · exact BitVec.and_allOnes

/-- A read of a special register writes its destination alone. -/
theorem WordFrame.srd {f : FmtS} (h : Issues s c false (namesMask f.dst)) : WordFrame s c (.srd f) quiet f.dst .em := by
  by_cases ha : ∃ r, f.a = .sr r
  · obtain ⟨r, ha⟩ := ha
    refine ⟨_, srd_passes h ha, ?_⟩
    have hpair (hr : r = .cycles ∨ r = .tvec ∨ r = .tval ∨ r = .tret) : pairDest (.srd f) = true := by
      rcases hr with rfl | rfl | rfl | rfl <;> simp [pairDest, narrowDest, formOf, ha]
    cases r with
    | laneid =>
      rw [srdGang, active_em, Gang.eachLane]
      rw [List.foldl_map (g := fun (a : W32) (r : Nat × Nat × W32) => a ||| r.2.2), foldl_or_zero, setSticky_zero]
      exact .foldl_lanes (w := fun h k (x : Nat × W32) => h.wrLane32 f.dst k x.1) fun h k x hk hl => .wrLane32 hk hl _
    | gangmask | pendmask => exact .wrMask _ _
    | cycles => exact .wrScalar64 (hpair (.inl rfl)) _
    | tvec => exact .wrScalar64 (hpair (.inr (.inl rfl))) _
    | tval => exact .wrScalar64 (hpair (.inr (.inr (.inl rfl)))) _
    | tret => exact .wrScalar64 (hpair (.inr (.inr (.inr rfl)))) _
    | _ => exact .wrScalar32 _
  · refine ⟨c.gang, congrArg Host.Outcome.next ((issueWord_ok h ?_).trans (advance_eq_goesOn h.ctx)), .refl⟩
    generalize f.a = a at ha ⊢
    cases a with
    | sr r => exact absurd ⟨r, rfl⟩ ha
    | _ => rfl

/-- A write of a special register writes it alone. -/
theorem WordFrame.swr {f : FmtS} (h : Issues s c false false) : WordFrame s c (.swr f) quiet f.dst .em := by
  by_cases hd : ∃ r, f.dst = .sr r
  · obtain ⟨r, hd⟩ := hd
    exact ⟨_, swr_passes h hd, hd ▸ .writeSpecial _ _ _ _⟩
  · refine ⟨c.gang, congrArg Host.Outcome.next ((issueWord_ok h ?_).trans (advance_eq_goesOn h.ctx)), .refl⟩
    split
    · next r hr => exact absurd ⟨r, hr⟩ hd
    · rfl

theorem scalarWords_frame (f : FmtS) : ∀ i ∈ [Instr.smov f, .sadd f, .ssub f, .smul f, .smulh f, .sand f, .sor f, .sxor f, .sshl f, .sshr f, .ssra f, .smin f, .smax f,
    .scmp f, .ssel f, .sclz f, .spopc f, .sbfe f, .sbfi f, .measure f, .mpopc f, .mfirst f, .srd f, .swr f],
    Issues s c false (masksLanes i) → WordFrame s c i quiet f.dst .em := by
  have typed {i : Instr} {x : Nat → Gang → Nat} (hform : formOf i = .s f) (hn : narrowDest i = false)
      (hi : exec i s = .next (scalarForm (fun now g => g.wrScalar f.ty f.dst (x now g)) s)) (h : Issues s c false false) :
      WordFrame s c i quiet f.dst .em := .scalarForm h hi (.wrScalar (fun ht => by simp [pairDest, hform, hn, ht]) _)
  have narrow {i : Instr} {x : Nat → Gang → Nat} (hi : exec i s = .next (scalarForm (fun now g => g.wrScalar32 f.dst (x now g)) s))
      (h : Issues s c false false) : WordFrame s c i quiet f.dst .em := .scalarForm h hi (.wrScalar32 _)
  have counted {i : Instr} {x : Nat → Gang → Lanes → Nat}
      (hi : exec i s = .next (maskCount (fun now g lanes => g.wrScalar32 f.dst (x now g lanes)) s))
      (h : Issues s c false false) : WordFrame s c i quiet f.dst .em := .maskCount h hi (.wrScalar32 _)
  simp only [List.forall_mem_cons]
  exact ⟨typed rfl rfl rfl, typed rfl rfl rfl, typed rfl rfl rfl, typed rfl rfl rfl, typed rfl rfl rfl, typed rfl rfl rfl,
    typed rfl rfl rfl, typed rfl rfl rfl, typed rfl rfl rfl, typed rfl rfl rfl, typed rfl rfl rfl, typed rfl rfl rfl,
    typed rfl rfl rfl, narrow rfl, typed rfl rfl rfl, narrow rfl, narrow rfl, typed rfl rfl rfl, typed rfl rfl rfl,
    fun h => ⟨_, congrArg Host.Outcome.next (issueWord_ok h rfl), .wrScalar32 _⟩, counted rfl, counted rfl, .srd, .swr, fun _ hi => absurd hi List.not_mem_nil⟩

theorem maskWords_frame (f : FmtS) : ∀ i ∈ [Instr.mand f, .mor f, .mxor f, .mnot f, .mmov f],
    Issues s c false (masksLanes i) → WordFrame s c i quiet f.dst .em := by
  simp only [List.forall_mem_cons]
  exact ⟨fun h => .maskForm h rfl (.wrMask _ _), fun h => .maskForm h rfl (.wrMask _ _), fun h => .maskForm h rfl (.wrMask _ _),
    fun h => .maskForm h rfl (.wrMask _ _), fun h => .maskForm h rfl (.wrMask _ _), fun _ hi => absurd hi List.not_mem_nil⟩

theorem vectorWords_frame_a2 (f : FmtA2) (hq : ¬ quiet) : ∀ i ∈ [Instr.vadd f, .vsub f, .vmul f, .vmulh f, .vand f, .vor f, .vxor f, .vnot f, .vshl f, .vshr f, .vsra f, .vmin f, .vmax f,
    .vabs f, .vclz f, .vpopc f, .vmov f, .vadd2 f, .vsub2 f, .vqadd f, .vqsub f, .vshrr f, .vpack f, .vfclass f],
    Issues s c f.gang (masksLanes i) → WordFrame s c i quiet f.dst f.mask := by
  have typed {i : Instr} {x : Nat → LaneFn} (hform : formOf i = .a2 f) (hn : narrowDest i = false)
      (hi : exec i s = .next (vecForm f.mask f.gang f.ty f.dst x s)) (h : Issues s c f.gang false) :
      WordFrame s c i quiet f.dst f.mask := .vecForm h hi hq fun ht => by simp [pairDest, hform, hn, ht]
  have narrow {i : Instr} {x : Nat → LaneFn} (hi : exec i s = .next (vecForm32 f.mask f.gang f.dst x s))
      (h : Issues s c f.gang false) : WordFrame s c i quiet f.dst f.mask := .vecForm32 h hi hq
  simp only [List.forall_mem_cons]
  exact ⟨typed rfl rfl rfl, typed rfl rfl rfl, typed rfl rfl rfl, typed rfl rfl rfl, typed rfl rfl rfl, typed rfl rfl rfl,
    typed rfl rfl rfl, typed rfl rfl rfl, typed rfl rfl rfl, typed rfl rfl rfl, typed rfl rfl rfl, typed rfl rfl rfl,
    typed rfl rfl rfl, typed rfl rfl rfl, narrow rfl, narrow rfl, typed rfl rfl rfl, narrow rfl, narrow rfl, narrow rfl,
    narrow rfl, narrow rfl, narrow rfl, narrow rfl, fun _ hi => absurd hi List.not_mem_nil⟩

theorem vectorWords_frame_a3 (f : FmtA3) (hq : ¬ quiet) : ∀ i ∈ [Instr.vmad f, .vbfe f, .vbfi f, .vsel f, .vmac2 f, .vdot4 f, .vfma f],
    Issues s c f.gang (masksLanes i) → WordFrame s c i quiet f.dst f.mask := by
  have typed {i : Instr} {x : Nat → LaneFn} (hform : formOf i = .a3 f) (hn : narrowDest i = false)
      (hi : exec i s = .next (vecForm f.mask f.gang f.ty f.dst x s)) (h : Issues s c f.gang false) :
      WordFrame s c i quiet f.dst f.mask := .vecForm h hi hq fun ht => by simp [pairDest, hform, hn, ht]
  have narrow {i : Instr} {x : Nat → LaneFn} (hi : exec i s = .next (vecForm32 f.mask f.gang f.dst x s))
      (h : Issues s c f.gang false) : WordFrame s c i quiet f.dst f.mask := .vecForm32 h hi hq
  simp only [List.forall_mem_cons]
  exact ⟨typed rfl rfl rfl, typed rfl rfl rfl, typed rfl rfl rfl, typed rfl rfl rfl, narrow rfl, narrow rfl, typed rfl rfl rfl,
    fun _ hi => absurd hi List.not_mem_nil⟩

theorem vectorWords_frame_f2 (f : FmtF2) (hq : ¬ quiet) : ∀ i ∈ [Instr.vfadd f, .vfsub f, .vfmul f, .vfmin f, .vfmax f],
    Issues s c f.gang (masksLanes i) → WordFrame s c i quiet f.dst f.mask := by
  have typed {i : Instr} {x : Nat → LaneFn} (hform : formOf i = .f2 f) (hn : narrowDest i = false)
      (hi : exec i s = .next (vecForm f.mask f.gang f.ty f.dst x s)) (h : Issues s c f.gang false) :
      WordFrame s c i quiet f.dst f.mask := .vecForm h hi hq fun ht => by simp [pairDest, hform, hn, ht]
  simp only [List.forall_mem_cons]
  exact ⟨typed rfl rfl rfl, typed rfl rfl rfl, typed rfl rfl rfl, typed rfl rfl rfl, typed rfl rfl rfl,
    fun _ hi => absurd hi List.not_mem_nil⟩

theorem vectorWords_frame_a2s (f : FmtA2S) (hq : ¬ quiet) : ∀ i ∈ [Instr.vunpack f, .vcmp f, .vfcmp f],
    Issues s c f.gang (masksLanes i) → WordFrame s c i quiet f.dst f.mask := by
  simp only [List.forall_mem_cons]
  exact ⟨fun h => .vecForm32 h rfl hq, fun h => .vecCompare h rfl hq, fun h => .vecCompare h rfl hq, fun _ hi => absurd hi List.not_mem_nil⟩

theorem vectorWords_frame_cv (f : FmtCV) (hq : ¬ quiet) : ∀ i ∈ [Instr.vcvt f, .vfcvt f, .vftoi f, .vitof f],
    Issues s c f.gang (masksLanes i) → WordFrame s c i quiet f.dst f.mask := by
  have converts {i : Instr} {op : Bool → Nat → Nat × W32} (hform : formOf i = .cv f) (hn : narrowDest i = false)
      (hi : exec i s = .next (convForm f op s)) (h : Issues s c f.gang false) : WordFrame s c i quiet f.dst f.mask :=
    .convForm h hi hq fun ht => by simp [pairDest, hform, hn, ht]
  simp only [List.forall_mem_cons]
  exact ⟨converts rfl rfl rfl, converts rfl rfl rfl, converts rfl rfl rfl, converts rfl rfl rfl, fun _ hi => absurd hi List.not_mem_nil⟩

theorem smovi_frame {f : FmtI} (h : Issues s c false false) : WordFrame s c (.smovi f) quiet f.dst f.mask :=
  .scalarForm h rfl (.wrScalar (fun ht => by simp [pairDest, narrowDest, formOf, ht]) _)

theorem vmovi_frame {f : FmtI} (hq : ¬ quiet) (h : Issues s c f.gang false) : WordFrame s c (.vmovi f) quiet f.dst f.mask :=
  .vecForm h rfl hq fun ht => by simp [pairDest, narrowDest, formOf, ht]

end

/-- Settles O58, by the format of the word: each form's write stays within its destination and lanes. -/
theorem registerWordsFrame : Obligations.RegisterWordsFrame := by
  unfold Obligations.RegisterWordsFrame
  intro s c i f scalarWord vectorWord maskWord coll hword hissues
  obtain ⟨dst, hdst, g, hexec, hframe⟩ : ∃ d, f.dest = some d ∧ WordFrame s c i (¬ vectorWord) d f.mask := by
    clear_value f
    cases f with
    | s f =>
      refine ⟨_, rfl, ?_⟩
      rcases hword with hi | hi | hi
      · exact scalarWords_frame f i hi hissues
      · exact absurd hi List.not_mem_nil
      · exact maskWords_frame f i hi hissues
    | i f =>
      refine ⟨_, rfl, ?_⟩
      rcases hword with hi | hi | hi
      · obtain rfl : i = .smovi f := List.mem_singleton.mp hi
        have hcoll : coll = false := by simp [coll, vectorWord]
        exact smovi_frame (hcoll ▸ hissues)
      · obtain rfl : i = .vmovi f := List.mem_singleton.mp hi
        have hcoll : coll = f.gang := by simp [coll, vectorWord]
        exact vmovi_frame (not_not_intro hi) (hcoll ▸ hissues)
      · exact absurd hi List.not_mem_nil
    | a2 f =>
      have hi : vectorWord := by simpa [scalarWord, maskWord] using hword
      exact ⟨_, rfl, vectorWords_frame_a2 f (not_not_intro hi) i hi hissues⟩
    | a3 f =>
      have hi : vectorWord := by simpa [scalarWord, maskWord] using hword
      exact ⟨_, rfl, vectorWords_frame_a3 f (not_not_intro hi) i hi hissues⟩
    | f2 f =>
      have hi : vectorWord := by simpa [scalarWord, maskWord] using hword
      exact ⟨_, rfl, vectorWords_frame_f2 f (not_not_intro hi) i hi hissues⟩
    | a2s f =>
      have hi : vectorWord := by simpa [scalarWord, maskWord] using hword
      exact ⟨_, rfl, vectorWords_frame_a2s f (not_not_intro hi) i hi hissues⟩
    | cv f =>
      have hi : vectorWord := by simpa [scalarWord, maskWord] using hword
      exact ⟨_, rfl, vectorWords_frame_cv f (not_not_intro hi) i hi hissues⟩
    | _ => simp [scalarWord, vectorWord, maskWord] at hword
  simp only [hdst, Option.some.injEq, ne_eq]
  exact ⟨g, hexec, hframe.rest, hframe.ops, hframe.scalars, hframe.vectors, hframe.masks, hframe.em,
    fun hd => ⟨fun hquiet => hframe.unset hquiet hd, hframe.sticky hd⟩, hframe.tvec, hframe.tcause, hframe.tval, hframe.tret⟩

end Sys2Proof.RegisterFrame
end

section
/-! PROOFS. How the lanes of an atomic are combined (R176). -/
namespace Sys2Proof.AtomicCombining
open Sys2Proof.Machine Sys2Proof.FormatsNumbers Sys2Proof.ScalarControl

/-! ## One request for each address -/

/-- A lane's access joins the request of its address, or makes it. -/
def joinReq (order : Nat) (b cmp : Nat → W64) (acc : List AReq) (h : Hit) : List AReq :=
  if acc.any (fun r => r.addr == h.addr) then
    acc.map (fun r => if r.addr == h.addr then { r with lanes := r.lanes ++ [(h.lane, b h.lane, cmp h.lane)] } else r)
  else acc ++ [{ addr := h.addr, order := order, ea := h.ea, lanes := [(h.lane, b h.lane, cmp h.lane)], taken := false, done := false }]

theorem atomReqs_append (order : Nat) (hits : List Hit) (h : Hit) (b cmp : Nat → W64) :
    atomReqs order (hits ++ [h]) b cmp = joinReq order b cmp (atomReqs order hits b cmp) h :=
  List.foldl_concat _ _ _ _

/-- The accesses so far stand each in the one request of its address, in order. -/
structure Combined (hits : List Hit) (b cmp : Nat → W64) (reqs : List AReq) : Prop where
  nodup : (reqs.map (fun r => r.addr)).Nodup
  lanes : ∀ r ∈ reqs, r.lanes = (hits.filter (fun h => h.addr == r.addr)).map (fun h => (h.lane, b h.lane, cmp h.lane)) ∧ r.lanes ≠ []
  total : ∀ h ∈ hits, ∃ r ∈ reqs, r.addr = h.addr

theorem Combined.join {hits : List Hit} {b cmp : Nat → W64} {reqs : List AReq} (hc : Combined hits b cmp reqs) (order : Nat) (h : Hit) :
    Combined (hits ++ [h]) b cmp (joinReq order b cmp reqs h) := by
  unfold joinReq
  split
  · next hany =>
    obtain ⟨r0, hr0, haddr⟩ := List.any_eq_true.mp hany
    have hkeep (r : AReq) : (if r.addr == h.addr then { r with lanes := r.lanes ++ [(h.lane, b h.lane, cmp h.lane)] } else r).addr = r.addr := by
      split <;> rfl
    refine ⟨?_, ?_, ?_⟩
    · rw [List.map_map]
      exact (List.map_congr_left fun r _ => hkeep r) ▸ hc.nodup
    · intro r hr
      obtain ⟨q, hq, rfl⟩ := List.mem_map.mp hr
      obtain ⟨hlanes, hne⟩ := hc.lanes q hq
      rw [hkeep, List.filter_append, List.map_append, ← hlanes]
      by_cases haq : q.addr = h.addr
      · simp [haq]
      · have hqa : ¬ h.addr = q.addr := fun he => haq he.symm
        simp [haq, hqa, hne]
    · intro x hx
      rcases List.mem_append.mp hx with hx | hx
      · obtain ⟨r, hr, hrx⟩ := hc.total x hx
        exact ⟨_, List.mem_map_of_mem hr, (hkeep r).trans hrx⟩
      · obtain rfl := List.mem_singleton.mp hx
        exact ⟨_, List.mem_map_of_mem hr0, (hkeep r0).trans (beq_iff_eq.mp haddr)⟩
  · next hany =>
    have hnew : ∀ r ∈ reqs, r.addr ≠ h.addr := by
      intro r hr he
      exact hany (List.any_eq_true.mpr ⟨r, hr, beq_iff_eq.mpr he⟩)
    have hnone : hits.filter (fun x => x.addr == h.addr) = [] := by
      rw [List.filter_eq_nil_iff]
      intro x hx he
      obtain ⟨r, hr, hrx⟩ := hc.total x hx
      exact hnew r hr (hrx.trans (beq_iff_eq.mp he))
    refine ⟨?_, ?_, ?_⟩
    · rw [List.map_append, List.nodup_append]
      refine ⟨hc.nodup, List.nodup_singleton _, fun a ha y hy => ?_⟩
      obtain ⟨r, hr, rfl⟩ := List.mem_map.mp ha
      obtain rfl := List.mem_singleton.mp hy
      exact hnew r hr
    · intro r hr
      rcases List.mem_append.mp hr with hr | hr
      · obtain ⟨hlanes, hne⟩ := hc.lanes r hr
        have hra : ¬ h.addr = r.addr := fun he => hnew r hr he.symm
        rw [List.filter_append, List.map_append, ← hlanes]
        simp [hra, hne]
      · obtain rfl := List.mem_singleton.mp hr
        rw [List.filter_append, hnone]
        simp
    · intro x hx
      rcases List.mem_append.mp hx with hx | hx
      · obtain ⟨r, hr, hrx⟩ := hc.total x hx
        exact ⟨r, List.mem_append_left _ hr, hrx⟩
      · obtain rfl := List.mem_singleton.mp hx
        exact ⟨_, List.mem_append_right _ (List.mem_singleton_self _), rfl⟩

theorem combined_atomReqs (order : Nat) (hits : List Hit) (b cmp : Nat → W64) : Combined hits b cmp (atomReqs order hits b cmp) := by
  induction hits using List.reverseRecOn with
  | nil => exact ⟨List.nodup_nil, fun _ hr => absurd hr List.not_mem_nil, fun _ hh => absurd hh List.not_mem_nil⟩
  | append_singleton hits h ih =>
    rw [atomReqs_append]
    exact ih.join order h

/-! ## The lanes of an integer request, one after another -/

/-- The value that the first k lanes of a request leave. -/
def leaves (a : AtomOp) (m : Nat) (lanes : List (Nat × W64 × W64)) (k : Nat) : Nat :=
  (lanes.take k).foldl (fun x l => atomCombine a.ty a.op x l.2.1.toNat) m

theorem leaves_append {a : AtomOp} {m k : Nat} {lanes : List (Nat × W64 × W64)} (l : Nat × W64 × W64) (hk : k ≤ lanes.length) :
    leaves a m (lanes ++ [l]) k = leaves a m lanes k := by
  rw [leaves, leaves, List.take_append_of_le_length hk]

theorem leaves_succ (a : AtomOp) (m : Nat) (lanes : List (Nat × W64 × W64)) (l : Nat × W64 × W64) :
    leaves a m (lanes ++ [l]) (lanes.length + 1) = atomCombine a.ty a.op (leaves a m lanes lanes.length) l.2.1.toNat := by
  rw [leaves, leaves, List.take_of_length_le (by simp), List.take_length, List.foldl_concat]

/-- What each lane gets and leaves: its number, the value of its predecessors, and that combined with its own. -/
def laneSteps (a : AtomOp) (m : Nat) (lanes : List (Nat × W64 × W64)) : List (Nat × Nat × Nat) :=
  ((List.range lanes.length).zip lanes).map fun p => (p.2.1, leaves a m lanes p.1, leaves a m lanes (p.1 + 1))

theorem laneSteps_append (a : AtomOp) (m : Nat) (lanes : List (Nat × W64 × W64)) (l : Nat × W64 × W64) :
    laneSteps a m (lanes ++ [l]) = laneSteps a m lanes ++
      [(l.1, leaves a m lanes lanes.length, atomCombine a.ty a.op (leaves a m lanes lanes.length) l.2.1.toNat)] := by
  unfold laneSteps
  rw [List.length_append, List.length_singleton, List.range_succ, List.zip_append List.length_range, List.map_append]
  congr 1
  · refine List.map_congr_left fun p hp => ?_
    have hlt : p.1 < lanes.length := List.mem_range.mp (List.of_mem_zip hp).1
    rw [leaves_append l hlt.le, leaves_append l hlt]
  · simp only [List.zip_cons_cons, List.zip_nil_right, List.map_cons, List.map_nil, leaves_append l le_rfl, leaves_succ]

theorem atomLanes_integer {a : AtomOp} (ha : a.kind = 0) (m : Nat) (lanes : List (Nat × W64 × W64)) :
    atomLanes a m lanes = laneSteps a m lanes := by
  have hfold : lanes.foldl (fun (acc : Nat × List (Nat × Nat × Nat)) l => (atomCombine a.ty a.op acc.1 l.2.1.toNat,
      acc.2 ++ [(l.1, acc.1, atomCombine a.ty a.op acc.1 l.2.1.toNat)])) (m, []) = (leaves a m lanes lanes.length, laneSteps a m lanes) := by
    induction lanes using List.reverseRecOn with
    | nil => rfl
    | append_singleton lanes l ih =>
      rw [List.foldl_concat, ih, laneSteps_append, List.length_append, List.length_singleton, leaves_succ]
  unfold atomLanes
  rw [ha]
  exact congrArg Prod.snd hfold

theorem run_leaves {a : AtomOp} (ha : a.kind = 0) (m : Nat) (r : AReq) : (a.run m r).1 = leaves a m r.lanes r.lanes.length := by
  unfold AtomOp.run
  rw [atomLanes_integer ha]
  rcases List.eq_nil_or_concat r.lanes with h | ⟨lanes, l, h⟩
  · rw [h]
    rfl
  · simp [h, laneSteps_append, leaves_succ]

theorem run_writes {a : AtomOp} (ha : a.kind = 0) {d : BitVec 8} (hd : a.dst = some d.toNat) (m : Nat) (r : AReq) :
    (a.run m r).2 = ((List.range r.lanes.length).zip r.lanes).flatMap (fun p => laneWrites a.ty (.v d) p.2.1 (leaves a m r.lanes p.1)) := by
  unfold AtomOp.run
  rw [atomLanes_integer ha, hd]
  simp only [laneSteps, List.flatMap_map, BitVec.ofNat_toNat, BitVec.setWidth_eq]

/-! ## The integer forms as numbers -/

/-- A number and its bits agree modulo 2^w. -/
theorem numOf_emod (t : Ty) (x : Nat) : numOf t x % (2 : Int) ^ t.width = ((x % 2 ^ t.width : Nat) : Int) := by
  have hpow : ((2 ^ t.width : Nat) : Int) = (2 : Int) ^ t.width := Int.natCast_pow 2 _
  have hmod : ((x % 2 ^ t.width : Nat) : Int) % (2 : Int) ^ t.width = ((x % 2 ^ t.width : Nat) : Int) := by
    rw [← hpow, ← Int.natCast_mod, Nat.mod_mod]
  rw [numOf_eq]
  split
  · rw [Int.sub_emod_right, hmod]
  · exact hmod

/-- A number below 2^w is what its value wraps to. -/
theorem wrapI_numOf {t : Ty} {x : Nat} (hx : x < 2 ^ t.width) : wrapI t.width (numOf t x) = x := by
  rw [wrapI_eq_toNat_emod, numOf_emod, Int.toNat_natCast, Nat.mod_eq_of_lt hx]

theorem wrapI_numOf_add (t : Ty) (x y : Nat) : wrapI t.width (numOf t x + numOf t y) = (x + y) % 2 ^ t.width := by
  have hpow : ((2 ^ t.width : Nat) : Int) = (2 : Int) ^ t.width := Int.natCast_pow 2 _
  rw [wrapI_eq_toNat_emod, Int.add_emod, numOf_emod, numOf_emod, ← Int.natCast_add, ← hpow, ← Int.natCast_mod, Int.toNat_natCast,
    ← Nat.add_mod]

theorem wrapI_min {t : Ty} {x y : Nat} (hx : x < 2 ^ t.width) (hy : y < 2 ^ t.width) :
    wrapI t.width (min (numOf t x) (numOf t y)) = if numOf t x ≤ numOf t y then x else y := by
  rw [Int.min_def, apply_ite (wrapI t.width), wrapI_numOf hx, wrapI_numOf hy]

theorem wrapI_max {t : Ty} {x y : Nat} (hx : x < 2 ^ t.width) (hy : y < 2 ^ t.width) :
    wrapI t.width (max (numOf t x) (numOf t y)) = if numOf t x ≤ numOf t y then y else x := by
  rw [Int.max_def, apply_ite (wrapI t.width), wrapI_numOf hx, wrapI_numOf hy]

/-- Settles O35: the requests by induction on the accesses, a request's lanes by induction on them, the combined values as numbers. -/
theorem atomicRequests : Obligations.AtomicRequests := by
  unfold Obligations.AtomicRequests
  intro order hits b cmp
  have hc := combined_atomReqs order hits b cmp
  refine ⟨hc.nodup, hc.lanes, hc.total, fun a m r ha => ?_⟩
  intro w num acc
  refine ⟨run_leaves ha m r, fun d hd => run_writes ha hd m r, fun x y hx hy => ?_⟩
  have hnum {z : Nat} (hz : z < 2 ^ w) : num z = numOf a.ty z := by
    rw [numOf_eq, Nat.mod_eq_of_lt hz]
  rw [hnum hx, hnum hy]
  exact ⟨wrapI_numOf_add a.ty x y, wrapI_min hx hy, wrapI_max hx hy, rfl, rfl, rfl, rfl⟩

end Sys2Proof.AtomicCombining
end

section
/-! PROOFS. `commit`, `commitc`, `mark`, `abort` and `waitcnt` (R50, R168 to R173, R180). -/
namespace Sys2Proof.CommitWords
open Sys2Proof.Machine

variable {s : State} {c : Ctx} {f : FmtY}

section
variable (h : Issues s c true false)
include h

theorem commit_detViolation (hfault : c.commitFaults s f.lvl.rank = true) :
    exec (.commit f) s = .next (s.faults c .detViolation c.pc) :=
  congrArg Host.Outcome.next (issueWord_trap h (if_pos hfault))

theorem commit_issues (hfault : c.commitFaults s f.lvl.rank = false) (hdomain : f.lvl.rank = 3 → s.domainPending = none) :
    exec (.commit f) s = .next ((s.issueCommit c f.lvl.rank none none).advance c.uid c.slice) := by
  have hready : ¬ (decide (f.lvl.rank = 3) && s.domainPending.isSome) = true := by
    rw [Bool.and_eq_true, decide_eq_true_eq]
    rintro ⟨hlvl, hpending⟩
    rw [hdomain hlvl] at hpending
    cases hpending
  exact congrArg Host.Outcome.next (issueWord_ok h ((if_neg (by rw [hfault]; exact Bool.false_ne_true)).trans (if_neg hready)))

theorem commitc_issues : exec (.commitc f) s =
    .next ((s.issueCommit c f.lvl.rank (some (regNum f.dst)) none).advance c.uid c.slice) :=
  congrArg Host.Outcome.next (issueWord_ok h rfl)

/-- An abort of the gang level takes effect at once, when no commit of the gang is pending (R172). -/
theorem abort_gang (hlvl : f.lvl = .gang) (hd : c.gang.dlist = []) : exec (.abort f) s =
    s.passes c { c.gang.closeReads with galley := c.gang.closeReads.galley.abort (f.sel == 1) } :=
  congrArg Host.Outcome.next (issueWord_ok h (by rw [hlvl, hd]; rfl))

theorem abort_holds (hlvl : f.lvl ≠ .gang) : exec (.abort f) s = .next (s.holdAs c (.heldAbort f.lvl.rank f.sel.toNat)) := by
  refine congrArg Host.Outcome.next (issueWord_left h ?_)
  split
  · next hg => exact absurd hg hlvl
  · rfl

end

section
variable (h : Issues s c false false)
include h

theorem mark_gang_full (hlvl : f.lvl = .gang) (hd : c.gang.dlist = []) (hfull : 8 ≤ c.gang.galley.marks.length) :
    exec (.mark f) s = .next (s.faults c .illegalInstruction c.pc) :=
  congrArg Host.Outcome.next (issueWord_trap h (by rw [hlvl, hd]; exact if_pos hfull))

theorem mark_gang (hlvl : f.lvl = .gang) (hd : c.gang.dlist = []) (hroom : c.gang.galley.marks.length < 8) :
    exec (.mark f) s = s.passes c { c.gang.closeReads with galley := c.gang.closeReads.galley.mark (f.sel == 1) } :=
  congrArg Host.Outcome.next (issueWord_ok h (by rw [hlvl, hd]; exact if_neg (Nat.not_le.mpr hroom)))

theorem mark_block_full (hlvl : f.lvl = .block) {b : Block} (hb : s.block? c.gang.block = some b) (hfull : 8 ≤ b.galley.marks.length) :
    exec (.mark f) s = .next (s.faults c .illegalInstruction c.pc) :=
  congrArg Host.Outcome.next (issueWord_trap h (by rw [hlvl, hb]; exact if_pos hfull))

theorem mark_block (hlvl : f.lvl = .block) {b : Block} (hb : s.block? c.gang.block = some b) (hroom : b.galley.marks.length < 8) :
    exec (.mark f) s = .next ((s.setBlock { b with galley := b.galley.mark false }).advance c.uid c.slice) :=
  congrArg Host.Outcome.next (issueWord_ok h (by rw [hlvl, hb]; exact if_neg (Nat.not_le.mpr hroom)))

theorem waitcnt_passes (hcount : c.gang.count (ctrOf f.sel.toNat) ≤ c.gang.scalar32 s.now f.a) (herrs : c.gang.errs = []) :
    exec (.waitcnt f) s = .next (s.advance c.uid c.slice) := by
  refine congrArg Host.Outcome.next (issueWord_ok h ?_)
  dsimp only
  rw [if_neg (Nat.not_lt.mpr hcount), Gang.latchedErr, herrs]
  rfl

theorem waitcnt_waits (hcount : c.gang.scalar32 s.now f.a < c.gang.count (ctrOf f.sel.toNat)) : exec (.waitcnt f) s = .next s :=
  congrArg Host.Outcome.next (issueWord_stay h (if_pos hcount))

end

/-- Settles O36, word by word. -/
theorem commitsAndWaits : Obligations.CommitsAndWaits := by
  unfold Obligations.CommitsAndWaits
  exact fun s c f => ⟨fun h => ⟨commit_detViolation h, commit_issues h, commitc_issues h, abort_gang h, abort_holds h⟩,
    fun h => ⟨fun hlvl hd => ⟨mark_gang_full h hlvl hd, mark_gang h hlvl hd⟩,
      fun hlvl b hb => ⟨mark_block_full h hlvl hb, mark_block h hlvl hb⟩, waitcnt_passes h, waitcnt_waits h⟩⟩

end Sys2Proof.CommitWords
end

section
/-! PROOFS. The loads (R60, R152, R155, R164, R165, R206): from the checks to the operation they leave, and its resolving at issue. -/
namespace Sys2Proof.LoadWords
open Sys2Proof.Machine Sys2Proof.PressMemory

/-- Whether a gang's launch is deterministic is told by its block and grid alone. -/
theorem det_congr {s t : State} (hblocks : t.blocks = s.blocks) (hgrids : t.grids = s.grids) (g : Gang) : g.det t = g.det s := by
  simp only [Gang.det, Gang.grid?, State.block?, State.grid?, hblocks, hgrids]

/-- The operation of a load, once its lines have joined the open read set: a new one, or the one that its replayed lanes join. -/
def loadJoin (c : Ctx) (s : State) (ty : Ty) (scalar : Bool) (dst : Nat) (hits : List Hit) : State × Nat :=
  (s.setGang (c.gang.noteReads (hitLines hits))).joinOp c
    (fun id => { Op.make id (.load ty scalar dst []) (some .ld) c.run.header.fa c.pc with done := true, due := s.memDue c.gang hits })
    (fun o => match o.kind with
      | .load t b d old => { o with
          kind := .load t b d (old ++ hits.map (s.loadAcc c.gang ty.bytes))
          done := o.done && (hits.map (s.loadAcc c.gang ty.bytes)).isEmpty, due := laterDue o.due (s.memDue c.gang hits) }
      | _ => o)

theorem loadJoin_new {c : Ctx} (h : c.run.replay = none) (s : State) (ty : Ty) (scalar : Bool) (dst : Nat) (hits : List Hit) :
    loadJoin c s ty scalar dst hits = ((s.setGang (c.gang.noteReads (hitLines hits))).addOp c.uid (fun id =>
      { Op.make id (.load ty scalar dst (hits.map (s.loadAcc c.gang ty.bytes))) (some .ld) c.run.header.fa c.pc with
        done := hits.isEmpty, due := s.memDue c.gang hits }), s.nextOp) := by
  rw [loadJoin, joinOp_new h]
  simp only [Op.make, laterDue_self, List.nil_append, Bool.true_and, List.isEmpty_map]
  rfl

theorem loadJoin_replay {c : Ctx} {s : State} {id : Nat} {o : Op} {t : Ty} {b : Bool} {d : Nat} {old : List Machine.Acc}
    (h : c.run.replay = some id) (hg : s.gang? c.uid = some c.gang) (ho : c.gang.op? id = some o) (hk : o.kind = .load t b d old)
    (ty : Ty) (scalar : Bool) (dst : Nat) (hits : List Hit) : loadJoin c s ty scalar dst hits =
    (State.updGang { s.setGang (c.gang.noteReads (hitLines hits)) with nextOp := s.nextOp + 1 } c.uid (fun g => g.setOp { o with
      kind := .load t b d (old ++ hits.map (s.loadAcc c.gang ty.bytes)), done := o.done && hits.isEmpty
      due := laterDue o.due (s.memDue c.gang hits) }), id) := by
  have huid : c.gang.uid = c.uid := s.gang?_uid _ _ hg
  have hnoted : (s.setGang (c.gang.noteReads (hitLines hits))).gang? c.uid = some (c.gang.noteReads (hitLines hits)) := by
    rw [← huid]
    exact s.gang?_setGang_self (c.gang.noteReads (hitLines hits)) c.gang (huid ▸ hg)
  rw [loadJoin, joinOp_replay h hnoted ho]
  dsimp only
  rw [hk]
  simp only [List.isEmpty_map]
  rfl

theorem loadJoin_tables (c : Ctx) (s : State) (ty : Ty) (scalar : Bool) (dst : Nat) (hits : List Hit) :
    (loadJoin c s ty scalar dst hits).1.blocks = s.blocks ∧ (loadJoin c s ty scalar dst hits).1.grids = s.grids := by
  unfold loadJoin State.joinOp State.addOp
  cases c.run.replay <;> simp

/-- In a deterministic launch a load resolves at its issue (R60). -/
def resolveAtIssue (c : Ctx) (js : State × Nat) : State :=
  if c.gang.det js.1 then (match (js.1.gang? c.uid).bind (fun g => g.op? js.2) with
    | some o => js.1.resolveOp c.uid (some c.slice) o
    | none => js.1) else js.1

section
variable {c : Ctx} {s : State} {ty : Ty} {scalar : Bool} {dst : Nat} {l : List (Nat × W64)} {pend : List Miss → Lanes}
  (hheld : s.heldRemote (l.map (·.2)) = false)
include hheld

theorem load_bad {tval : W64} {code : Code}
    (h : s.checkAll (c.gang.party s) c.grp .plain true false ty.bytes ty.bytes l = .bad tval code) :
    c.load s ty scalar dst l pend = .trap s code tval := by
  rw [Ctx.load, hheld, h]
  rfl

theorem load_wait {miss : List Miss}
    (h : s.checkAll (c.gang.party s) c.grp .plain true false ty.bytes ty.bytes l = .wait miss) :
    c.load s ty scalar dst l pend = .left (s.awaitPages c (c.gang.party s).pasid false miss (pend miss)) := by
  rw [Ctx.load, hheld, h]
  rfl

/-- A load that passes its checks: its operation, resolved where the launch is deterministic (R60, R164). -/
theorem load_go {hits : List Hit} {miss : List Miss}
    (h : s.checkAll (c.gang.party s) c.grp .plain true false ty.bytes ty.bytes l = .go hits miss) :
    let js := loadJoin c s ty scalar dst hits
    c.load s ty scalar dst l pend =
      c.memEnd (resolveAtIssue c js) (c.gang.party s).pasid false miss (pend miss) (some js.2) := by
  rw [Ctx.load, hheld, h]
  rfl

end

/-- Settles O31, by what the checks and the missed pages come to, for the lanes of `ld` and the one of `lds`. -/
theorem loads : Obligations.Loads := by
  unfold Obligations.Loads
  intro s c f w form
  have loads {coll scalar : Bool} {body : Ctx → State → Res} {l : List (Nat × W64)} {pend : List Miss → Lanes} (h : Issues s c coll false)
      (hb : body c s = c.load s f.ty scalar (regNum f.dst) l pend) : form scalar l pend (.next (issueWord coll false body s)) := by
    intro hheld checked
    refine ⟨fun tval code hc => ?_, fun miss hc => ?_, fun hits miss hc => ?_⟩
    · exact congrArg Host.Outcome.next (issueWord_trap h (hb.trans (load_bad hheld hc)))
    · exact congrArg Host.Outcome.next (issueWord_left h (hb.trans (load_wait hheld hc)))
    · intro accs noted ends
      have ends_of {u : State} {id : Nat} (hj : loadJoin c s f.ty scalar (regNum f.dst) hits = (u, id)) : ends u id := by
        intro t hplain hop hnone
        have htables := loadJoin_tables c s f.ty scalar (regNum f.dst) hits
        rw [hj] at htables
        have ht : t = resolveAtIssue c (u, id) := by
          unfold resolveAtIssue
          rw [det_congr htables.1 htables.2]
          split
          · next hdet =>
            split
            · next o ho => exact hop hdet o ho
            · next ho => exact hnone hdet ho
          · next hdet => exact hplain (Bool.not_eq_true _ ▸ hdet)
        have hend := issueWord_memEnd h (hb.trans (load_go hheld hc))
        rw [hj, ← ht] at hend
        exact ⟨fun hm => congrArg Host.Outcome.next (hend.1 hm), fun hm => congrArg Host.Outcome.next (hend.2 hm)⟩
      exact ⟨fun hreplay => ends_of (loadJoin_new hreplay s _ _ _ hits), fun id o ty b d old hreplay hop hkind =>
        ends_of (loadJoin_replay hreplay (gang?_of_ctx? h.ctx) hop hkind _ _ _ hits)⟩
  exact ⟨fun h => loads h rfl, fun h => loads h rfl⟩

end Sys2Proof.LoadWords
end

section
/-! PROOFS. The landing of a result (R13, R14, R99). -/
namespace Sys2Proof.Landing
open Sys2Proof.Machine

/-- A landing's writes change the register files and no more. -/
theorem landWrites_frame (now : Nat) (o : Op) (g : Gang) :
    ∃ v s m, g.landWrites now o = { g with vregs := v, sregs := s, masks := m } := by
  unfold Gang.landWrites
  induction o.writes generalizing g with
  | nil => exact ⟨g.vregs, g.sregs, g.masks, rfl⟩
  | cons w ws ih =>
    have hone : ∃ v s m, Gang.landWrite now o g w = { g with vregs := v, sregs := s, masks := m } := by
      cases w with
      | v reg lane x =>
        unfold Gang.landWrite
        dsimp only
        split
        · exact ⟨g.vregs, g.sregs, g.masks, rfl⟩
        · exact ⟨_, g.sregs, g.masks, rfl⟩
      | s reg x =>
        unfold Gang.landWrite
        dsimp only
        split
        · exact ⟨g.vregs, g.sregs, g.masks, rfl⟩
        · exact ⟨g.vregs, _, g.masks, rfl⟩
      | m reg lanes x => exact ⟨g.vregs, g.sregs, _, rfl⟩
    obtain ⟨v, s, m, hw⟩ := hone
    obtain ⟨v', s', m', hws⟩ := ih (Gang.landWrite now o g w)
    exact ⟨v', s', m', by rw [List.foldl_cons, hws, hw]⟩

/-! ## Flags -/

/-- The flags that a name gives: one, or none. -/
def flagBit : Option Nat → BitVec 12
  | some k => (1 : BitVec 12) <<< k
  | none => 0

theorem flagBit_getLsbD {f : Option Nat} {k : Nat} (h : f ≠ some k) : (flagBit f).getLsbD k = false := by
  cases f with
  | none => exact BitVec.getLsbD_zero
  | some j =>
    have hjk : j ≠ k := fun he => h (congrArg some he)
    rw [flagBit, BitVec.getLsbD_shiftLeft, show (1 : BitVec 12) = 1#12 from rfl, BitVec.getLsbD_one]
    by_cases hlt : k < j
    · simp [hlt]
    · have hne : k - j ≠ 0 := by omega
      simp [hne]

/-- A flag that no operation and no running clause names is not held (R13). -/
theorem heldFlags_getLsbD {g : Gang} {k : Nat} (hops : ∀ o ∈ g.ops, o.flag ≠ some k)
    (hgroups : ∀ r ∈ g.groups, ∀ u, r.run = some u → u.header.fa ≠ some k ∧ u.header.fb ≠ some k) : g.heldFlags.getLsbD k = false := by
  have hfold : (g.ops.foldl (fun a o => a ||| flagBit o.flag) (0 : BitVec 12)).getLsbD k = false :=
    List.foldlRecOn (motive := fun a : BitVec 12 => a.getLsbD k = false) _ _ BitVec.getLsbD_zero fun a ha o ho => by
      rw [BitVec.getLsbD_or, ha, flagBit_getLsbD (hops o ho), Bool.or_false]
  exact List.foldlRecOn (motive := fun a : BitVec 12 => a.getLsbD k = false) _ _ hfold fun a ha r hr => by
    split
    · next u hu =>
      obtain ⟨hfa, hfb⟩ := hgroups r hr u hu
      rw [BitVec.getLsbD_or, BitVec.getLsbD_or, ha]
      exact (Bool.or_eq_false_iff.mpr ⟨Bool.or_eq_false_iff.mpr ⟨rfl, flagBit_getLsbD hfa⟩, flagBit_getLsbD hfb⟩)
    · exact ha

/-! ## The landing -/

/-- The gang of a result that has landed. -/
def landed (now : Nat) (g : Gang) (o : Op) : Gang :=
  Gang.wakeYield (Gang.settleFlags { (g.landWrites now o).setSticky o.sticky with
    ops := (g.landWrites now o).ops.filter (fun p => p.id != o.id) })

theorem landOp_result {s : State} {g : Gang} {o : Op} (hguest : g.isGuest = false) (hkind : o.kind = .result) (herr : o.err = none)
    (hjoined : g.joined.contains o.id = false) : s.landOp g o = s.setGang (landed s.now g o) := by
  rw [State.landOp, hjoined, herr, hkind, hguest]
  rfl

/-- Settles O49: what the landing writes is in the register files, and no flag stays that nothing holds. -/
theorem landingEffect : Obligations.LandingEffect := by
  unfold Obligations.LandingEffect
  intro s g o hg hguest hkind herr hjoined
  obtain ⟨v, r, m, hframe⟩ := landWrites_frame s.now o g
  have huid : (landed s.now g o).uid = g.uid := by
    rw [show (landed s.now g o).uid = (g.landWrites s.now o).uid from rfl, hframe]
  have hops : (landed s.now g o).ops = g.ops.filter (fun p => p.id != o.id) := by
    rw [show (landed s.now g o).ops = (g.landWrites s.now o).ops.filter (fun p => p.id != o.id) from rfl, hframe]
  rw [landOp_result hguest hkind herr hjoined]
  refine ⟨landed s.now g o, ?_, hops, ?_, rfl, rfl, rfl, ?_, fun k _ _ hothers hclauses => ?_, sameBytes_of _ _ rfl rfl⟩
  · rw [← huid]
    exact s.gang?_setGang_self _ g (huid ▸ hg)
  · rw [show (landed s.now g o).astatus = (g.landWrites s.now o).astatus ||| o.sticky from rfl, hframe]
  · rw [show (landed s.now g o).em = (g.landWrites s.now o).em from rfl, hframe]
  · have hheld : (Gang.heldFlags { (g.landWrites s.now o).setSticky o.sticky with
        ops := (g.landWrites s.now o).ops.filter (fun p => p.id != o.id) }).getLsbD k = false := by
      rw [hframe]
      refine heldFlags_getLsbD (fun p hp => ?_) hclauses
      obtain ⟨hp, hne⟩ := List.mem_filter.mp hp
      exact hothers p hp (bne_iff_ne.mp hne)
    exact (BitVec.getLsbD_and ..).trans (by rw [hheld, Bool.and_false])

end Sys2Proof.Landing
end

section
/-! PROOFS. The scheduler's transitions (R13, R48 to R50, R54 to R56). -/
namespace Sys2Proof.SchedulerSteps
open Sys2Proof.Machine Sys2Proof.PressMemory Sys2Proof.RequestEngine

variable {s : State}

/-- A clause starts where its port is free and the winner of the arbitration has it whole (R54, R56). -/
theorem clauseStart_begins {core part port : Nat} (hport : port < 2) (hpart : part < partsOf core)
    (hfree : s.portFree core part port = true) {t : State} (ht : t = (s.mergePart core part).keepReady core part port) {cand : Cand}
    {hdr : W64} {h : Header} {words : List W64} {is : List Instr} (hwin : t.winner core part port = some cand)
    (hrun : cand.grp.run = none) (hstart : cand.start = .go hdr h words is) (herr : cand.gang.latchedErr h.wait none false = none) :
    exec (.clauseStart core part port) s = .next (t.beginClause cand.gang cand.grp core part port
      (if cand.gang.det t then 0 else cand.cost) hdr h words (words.length - is.length)) := by
  have hguard : ¬ (decide (2 ≤ port) || decide (partsOf core ≤ part) || !s.portFree core part port) = true := by
    simp [hfree, Nat.not_le.mpr hport, Nat.not_le.mpr hpart]
  have hcand : t.startCand core part port cand = t.beginClause cand.gang cand.grp core part port
      (if cand.gang.det t then 0 else cand.cost) hdr h words (words.length - is.length) := by
    unfold State.startCand
    dsimp only
    rw [hrun, hstart]
    dsimp only
    rw [herr]
  refine congrArg Host.Outcome.next ((if_neg hguard).trans ?_)
  dsimp only
  rw [← ht, hwin]
  exact hcand

/-- A change of the gang that an identifier names. -/
theorem updGang_ite {uid : Nat} {g : Gang} (hg : s.gang? uid = some g) {p : Gang → Bool} (hp : p g = true) (f : Gang → Gang) :
    s.updGang uid (fun g => if p g then f g else g) = s.setGang (f g) := by
  rw [updGang_eq_setGang hg, if_pos hp]

theorem merge_merges {uid : Nat} {g : Gang} {pc : W64} (hg : s.gang? uid = some g) (hstart : s.mayStart g = true)
    (hpc : g.mergeAddr = some pc) : exec (.merge uid) s =
      .next (s.setGang (g.mergeAll (g.testGroups.filter (fun r => r.atHeader && r.pc == pc)) id)) := by
  refine congrArg Host.Outcome.next ((updGang_ite hg hstart Gang.mergeStep).trans ?_)
  rw [Gang.mergeStep, hpc]

theorem joinRelease_releases {uid : Nat} {g : Gang} {j : Group} (hg : s.gang? uid = some g) (hstart : s.mayStart g = true)
    (hj : g.testGroups.find? (fun j => j.status == .heldJoin && g.testGroups.all (fun r => r.slices == j.slices || r.meets j.pc)) = some j) :
    let m := g.mergeAll (g.testGroups.filter (fun r => r.pc == j.pc && (r.atHeader || r.status == .heldJoin)))
      (fun m => { m with status := .ready, readyAt := none })
    exec (.joinRelease uid) s = .next (s.setGang { m with groups := m.groups.map (fun r =>
      if r.status == .heldJoin && (m.trap.isNone || m.inHandler r) then { r with status := .ready, readyAt := none } else r) }) := by
  refine congrArg Host.Outcome.next ((updGang_ite hg hstart Gang.releaseJoins).trans ?_)
  unfold Gang.releaseJoins
  dsimp only
  rw [hj]

theorem collectiveWaitEnd_ends {uid : Nat} {g : Gang} {r : Group} {rs : List Group} (hg : s.gang? uid = some g)
    (hstart : s.mayStart g = true) (hgroups : g.testGroups = r :: rs)
    (hheld : ∀ q ∈ g.testGroups, q.status = .heldColl ∧ q.at? = r.at?) :
    exec (.collectiveWaitEnd uid) s = .next (s.setGang (g.mergeAll g.testGroups (fun m =>
      { m with status := .ready, readyAt := none, run := m.run.map (fun u => { u with collected := true }) }))) := by
  have hcoll : (r :: rs).all (fun q => q.status == .heldColl) = true :=
    List.all_eq_true.mpr fun q hq => beq_iff_eq.mpr (hheld q (hgroups ▸ hq)).1
  have hat : (r :: rs).all (fun q => q.at? == r.at?) = true :=
    List.all_eq_true.mpr fun q hq => beq_iff_eq.mpr (hheld q (hgroups ▸ hq)).2
  refine congrArg Host.Outcome.next ?_
  dsimp only
  rw [hg]
  dsimp only
  rw [hgroups]
  dsimp only
  rw [hstart, hcoll, hat]
  rfl

theorem budgetRefill_refills {core part : Nat} {c : Core} (hc : s.core? core = some c) : exec (.budgetRefill core part) s =
    .next (s.setCore { c with parts := c.parts.mapIdx (fun k p => if k = part then { p with budget := p.refill } else p) }) := by
  refine congrArg Host.Outcome.next ?_
  unfold State.updPart State.updCore
  rw [hc]
  simp only [beq_iff_eq]

theorem core?_updCore_other {key k : Nat} {f : Core → Core} (hf : ∀ c, (f c).key = c.key) (hk : k ≠ key) :
    (s.updCore key f).core? k = s.core? k := by
  unfold State.updCore
  split
  · next c hc =>
    have hckey := s.core?_key key c hc
    exact s.core?_setCore_other (f c) k (by rwa [hf, hckey])
  · rfl

/-- Settles O46, transition by transition. -/
theorem schedulerTransitions : Obligations.SchedulerTransitions := by
  unfold Obligations.SchedulerTransitions
  intro s
  refine ⟨fun core part port hport hpart hfree cand hdr h words is => clauseStart_begins hport hpart hfree rfl,
    fun uid g pc => merge_merges, fun uid g j => joinRelease_releases, fun uid g r rs => collectiveWaitEnd_ends,
    fun core part c => budgetRefill_refills, fun core temp => ⟨_, rfl, fun c hc => ?_, fun k hk => ?_, rfl⟩⟩
  · exact core?_updCore_self hc rfl
  · exact core?_updCore_other (fun _ => rfl) hk

end Sys2Proof.SchedulerSteps
end

section
/-! PROOFS. What takes effect after issue (R60, R161, R168, R172, R175, R183, R188, R194). -/
namespace Sys2Proof.MemorySteps
open Sys2Proof.Machine Sys2Proof.PressMemory

variable {s : State}

theorem resolve_resolves {uid id : Nat} {g : Gang} {o : Op} {ty : Ty} {sc : Bool} {dst : Nat} {accs : List Machine.Acc}
    (hg : s.gang? uid = some g) (ho : g.op? id = some o) (hkind : o.kind = .load ty sc dst accs) (hdone : o.done = false)
    (hlost : ∀ a ∈ accs, s.lost a.addr = false) : exec (.resolve uid id) s = .next (s.resolveOp uid none o) := by
  have hall : accs.filter (fun a => !s.lost a.addr) = accs := List.filter_eq_self.mpr fun a ha => by rw [hlost a ha, Bool.not_false]
  have hnone : accs.find? (fun a => s.lost a.addr) = none := List.find?_eq_none.mpr fun a ha => by rw [hlost a ha]; exact Bool.false_ne_true
  have hsame : ({ o with kind := .load ty sc dst accs } : Op) = o := by rw [← hkind]
  refine congrArg Host.Outcome.next ?_
  unfold State.resolveNow
  rw [hg]
  dsimp only
  rw [ho]
  dsimp only
  rw [hkind]
  dsimp only
  rw [if_neg (by rw [hdone]; exact Bool.false_ne_true), hall, hnone, hsame]

/-! ## Grants -/

section
variable {uid : Nat} {g : Gang} {blk : Block} {d : Detached} {rest : List Detached} (hg : s.gang? uid = some g)
  (hblk : s.block? g.block = some blk) (hd : g.dlist = d :: rest) (hturn : s.detTurn g d.op d.due = true)
include hg hblk hd hturn

theorem grant_head : exec (.grant uid) s = .next (s.grantHead g blk d rest) := by
  refine congrArg Host.Outcome.next ?_
  unfold State.grantNow
  rw [hg]
  dsimp only
  rw [hd, hblk]
  exact if_pos hturn

theorem grant_badLine (hcond : d.cond = false) {ln : Nat} (hbad : s.badLine g blk d = some ln) :
    exec (.grant uid) s = .next (s.loseGrant g d rest .uncorrectable (128 * ln)) := by
  rw [grant_head hg hblk hd hturn, State.grantHead, hcond]
  dsimp only
  rw [if_neg Bool.false_ne_true, hbad]

theorem grant_applies (hcond : d.cond = false) (hgood : s.badLine g blk d = none)
    (hfits : s.grantOverflow blk (if s.discards blk then [] else s.grantBytes blk d.bytes d.lvl) d.lvl = none) (harrive : d.arrive = none) :
    exec (.grant uid) s = .next ((((s.setGang (Gang.clearMarks { g with dlist := rest })).applyGrant g.uid d.op blk
      (if s.discards blk then [] else s.grantBytes blk d.bytes d.lvl) d.lvl)).afterGrant g.uid d.op
      ((g.condDst d.op).map (fun r => (r, 1)))) := by
  rw [grant_head hg hblk hd hturn, State.grantHead, hcond]
  dsimp only
  rw [if_neg Bool.false_ne_true, hgood]
  dsimp only
  rw [hfits, harrive]

/-- A conditional commit whose read set a later store has met goes back to its save point (R170). -/
theorem grant_rollsBack (hcond : d.cond = true) {p : SavePoint} {ps : List SavePoint} (hmarks : g.galley.marks = p :: ps)
    (hreads : p.hasReads = true) (hfailed : p.failed (targetRank d.lvl) = true) :
    exec (.grant uid) s = .next ((s.setGang (Gang.rollBack { g with dlist := rest } p)).afterGrant g.uid d.op
      ((g.condDst d.op).map (fun r => (r, 0)))) := by
  have hpoint : g.galley.marks.head?.filter (fun p => p.hasReads && p.failed (targetRank d.lvl)) = some p := by
    rw [hmarks, List.head?_cons, Option.filter_some, hreads, hfailed]
    rfl
  rw [grant_head hg hblk hd hturn, State.grantHead, hcond]
  dsimp only
  rw [if_pos rfl, hpoint]

end

/-! ## Atomics, aborts and landings -/

theorem atomic_requests {uid id addr : Nat} {g : Gang} {blk : Block} {o : Op} {a : AtomOp} {r : AReq} (hg : s.gang? uid = some g)
    (hblk : s.block? g.block = some blk) (ho : g.op? id = some o) (hkind : o.kind = .atom a)
    (hr : a.reqs.find? (fun r => r.addr == addr && !r.taken) = some r) (hdue : o.due = none) (hready : g.atomReady r a.ty.bytes = true)
    (hlost : s.lost addr = false) : exec (.atomic uid id addr) s = .next (s.atomRequest g blk o a r) := by
  have hnow : s.atomNow uid id addr = s.atomRequest g blk o a r := by
    unfold State.atomNow
    rw [hg]
    dsimp only
    rw [ho, hblk]
    dsimp only
    rw [hkind]
    dsimp only
    rw [hr]
    dsimp only
    rw [hdue, hready, hlost]
    rfl
  refine congrArg Host.Outcome.next ?_
  rw [hg]
  dsimp only
  rw [ho]
  dsimp only
  rw [hdue, hnow]
  rfl

theorem cabort_passes {lvl : Lvl} {uid n : Nat} (hne : s.abortGangs lvl.rank uid ≠ [])
    (hheld : ∀ g ∈ s.abortGangs lvl.rank uid, g.abortHold lvl.rank = some n ∧ g.dlist = []) :
    exec (.cabort lvl uid) s = .next ((s.abortGangs lvl.rank uid).foldl (fun s g => s.passAbort g)
      (if lvl.rank = 1 then s.updBlock uid (fun b => { b with galley := b.galley.abort (n == 1) })
        else s.updCluster uid (fun c => { c with galley := c.galley.abort (n == 1) }))) := by
  obtain ⟨g, gs, hgs⟩ := List.exists_cons_of_ne_nil hne
  rw [hgs] at hheld
  obtain ⟨hg, hgs_held⟩ := List.forall_mem_cons.mp hheld
  have hholds : gs.map (fun g => g.abortHold lvl.rank) = gs.map fun _ => some n := List.map_congr_left fun x hx => (hgs_held x hx).1
  have hready : ¬ ((some n).isNone || (gs.map fun _ => some n).any (fun x => x.isNone) || (g :: gs).any (fun g => !g.dlist.isEmpty)) = true := by
    have hdlist : (g :: gs).any (fun g => !g.dlist.isEmpty) = false :=
      List.any_eq_false.mpr fun x hx => by rw [(hheld x hx).2]; exact Bool.false_ne_true
    rw [hdlist]
    simp
  have hagree : ¬ ((gs.map fun _ => some n).any fun x => x != some n) = true := by simp
  refine congrArg Host.Outcome.next ?_
  dsimp only
  rw [hgs, List.map_cons, hg.1, hholds]
  dsimp only
  rw [if_neg hready, if_neg hagree]
  rfl

theorem land_lands {uid id : Nat} {g : Gang} {o : Op} (hg : s.gang? uid = some g) (ho : g.op? id = some o)
    (hdue : s.duePassed g o.due = true) (hold : g.oldest o = true) (hkind : ∀ op dst a ea x, o.kind ≠ .sigop op dst a ea x)
    (hready : o.landable = true) : exec (.land uid id) s = .next (s.landOp g o) := by
  have hsig : s.performSigop uid o = s := by
    unfold State.performSigop
    split
    · next op dst a ea x hk => exact absurd hk (hkind op dst a ea x)
    · rfl
  refine congrArg Host.Outcome.next ?_
  rw [hg]
  dsimp only
  rw [ho]
  dsimp only
  rw [hdue, hold, hsig, ite_self, hg]
  dsimp only
  rw [ho]
  exact if_pos hready

theorem phase_takes {owner n : Nat} {blk : Block} {b : Bar} (hblk : s.ownerBlock owner n = some blk) (hb : s.bar? blk n = some b)
    (hmembers : b.members ≠ 0) (hall : b.arrivals = b.members) (hbytes : b.bytes = 0) :
    exec (.phase owner n) s = .next (s.takePhase blk b) := by
  refine congrArg Host.Outcome.next ?_
  rw [hblk]
  dsimp only
  rw [hb]
  exact if_pos ((complete_iff b).mpr ⟨hmembers, hall, hbytes⟩)

theorem deliver_delivers {src dst lane : Nat} {l : FabLane} {it : FabItem} {rest : List FabItem}
    (hl : s.lanes.find? (fun l => l.src == src && l.dst == dst && l.lane == lane) = some l) (hitems : l.items = it :: rest) :
    let t : State := { s with lanes := s.lanes.filter (fun x => !(x.src == src && x.dst == dst && x.lane == lane)) ++
      (if rest = [] then [] else [{ l with items := rest }]) }
    exec (.deliver src dst lane) s = .next (if s.unreachable.contains dst then t.discardItem it else t.deliverItem it) := by
  refine congrArg Host.Outcome.next ?_
  rw [hl]
  dsimp only
  rw [hitems]
  simp only [List.isEmpty_iff]

theorem dueClock_takes {root : Nat} {r : Root} {d : DueItem} (hr : s.root? root = some r) (hd : s.firstDue root = some d)
    (hdue : d.due ≤ r.clock) : exec (.dueClock root) s = .next (s.takeDue d) := by
  refine congrArg Host.Outcome.next ?_
  rw [hr, hd]
  exact if_pos hdue

/-- Settles O48, transition by transition. -/
theorem memoryTransitions : Obligations.MemoryTransitions := by
  unfold Obligations.MemoryTransitions
  intro s
  refine ⟨fun uid g id o ty sc dst accs => resolve_resolves, fun uid g blk d rest hg hblk hd hturn => ?_,
    fun uid g blk d rest p ps hg hblk hd hturn hcond => grant_rollsBack hg hblk hd hturn hcond, fun uid g blk id o a r addr => atomic_requests,
    fun lvl uid n => cabort_passes, fun uid g id o => land_lands, fun owner n blk b => phase_takes,
    fun src dst lane l it rest => deliver_delivers, fun root r d => dueClock_takes⟩
  exact fun hcond => ⟨fun ln => grant_badLine hg hblk hd hturn hcond, grant_applies hg hblk hd hturn hcond⟩

end Sys2Proof.MemorySteps
end

section
/-! PROOFS. The imposers' transitions, pre-emption and retirement (R41, R56 to R58, R162, R188, R210 to R216). -/
namespace Sys2Proof.PlacementSteps
open Sys2Proof.Machine

variable {s : State}

/-! ## Dispatch and passing -/

theorem blockPlace_starts {die : Nat} {gr : Grid} {b n : Nat} {cores : List Nat} (hdie : die < 4)
    (hgood : s.gridOrder.find? (fun gr => s.afterBad gr die) = none) (hnext : s.nextUnit die = some (gr, .fresh b n, cores)) :
    exec (.blockPlace die) s = .next (((s.setGrid (gr.takeUnit b n)).meetClaim gr.uid cores).startCluster gr b cores) := by
  refine congrArg Host.Outcome.next ((if_neg (Nat.not_le.mpr hdie)).trans ?_)
  rw [hgood]
  dsimp only
  rw [hnext]

theorem roomAdvertise_adverts {die : Nat} (hdie : die < 4) : ∃ a, exec (.roomAdvertise die) s =
    .next { s with adverts := s.adverts.filter (fun x => x.die != die) ++ [a] } ∧ a.die = die ∧ a.room.map (fun e => e.1) = dieCores die := by
  refine ⟨_, congrArg Host.Outcome.next (if_neg (Nat.not_le.mpr hdie)), rfl, ?_⟩
  rw [List.map_map]
  exact List.map_id _

theorem blockPass_passes {die : Nat} {gr : Grid} {b n : Nat} (hunit : s.passUnit die = some (gr, .fresh b n))
    (hroom : s.advertised (s.bestDie gr.desc ([0, 1, 2, 3].filter (· != die))) gr.desc ≠ 0) :
    exec (.blockPass die) s = .next (s.setGrid { gr.takeUnit b n with
      passed := (gr.takeUnit b n).passed ++ [(b, s.bestDie gr.desc ([0, 1, 2, 3].filter (· != die)))] }) := by
  refine congrArg Host.Outcome.next ?_
  rw [hunit]
  exact if_neg hroom

/-! ## Pre-emption, save and restore -/

theorem quantumExpiry_preempts {grid : Nat} {gr : Grid} (hg : s.grid? grid = some gr) {b : Block} (hwait : s.slicing gr < s.unitsWaiting gr)
    (hb : s.victim gr = some b) : exec (.quantumExpiry grid) s = .next (s.preemptCluster b.cluster true) := by
  refine congrArg Host.Outcome.next ?_
  rw [hg]
  refine (if_neg (Nat.not_le.mpr hwait)).trans ?_
  rw [hb]

theorem quantumExpiry_idle {grid : Nat} {gr : Grid} (hg : s.grid? grid = some gr) (hwait : s.unitsWaiting gr ≤ s.slicing gr) :
    exec (.quantumExpiry grid) s = .next s := by
  refine congrArg Host.Outcome.next ?_
  rw [hg]
  exact if_pos hwait

theorem requestPreempt_marks {pasid : Nat} {queue : Option Nat} {b : Block} (hb : b ∈ s.blocks) {gr : Grid}
    (hgr : s.grid? b.grid = some gr) (hstage : b.stage = .resident) (hpasid : gr.pasid = pasid) (hdepth : gr.depth ≠ 0)
    (hqueue : ∀ q, queue = some q → gr.queue = q) : { b with preempt := true } ∈ (s.requestPreempt pasid queue).blocks := by
  refine List.mem_map.mpr ⟨b, hb, if_pos ?_⟩
  dsimp only
  rw [hgr, hstage]
  cases queue with
  | none => simp [hpasid, hdepth]
  | some q => simp [hpasid, hdepth, hqueue q rfl]

section
variable {uid : Nat} {b : Block} {gr : Grid} {bs : List Block} (hb : s.block? uid = some b) (hgr : s.grid? b.grid = some gr)
  (hbs : (s.blocksOf b.cluster).filter (fun x => x.stage == .resident) = bs) (hne : bs ≠ [])
  (hstill : ∀ x ∈ bs, x.preempt = true ∧ ∀ g ∈ s.gangsOf x.uid,
    (g.place = .none ∧ g.groups = []) ∨ (g.live ≠ 0 ∧ s.drained g = true)) (herrs : ∀ g ∈ s.gangs, g.errs = [])

omit s in
theorem still_gang {t : State} {g : Gang} (h : (g.place = .none ∧ g.groups = []) ∨ (g.live ≠ 0 ∧ t.drained g = true)) :
    ((g.place == .none && g.groups.isEmpty) || (g.live != 0 && t.drained g)) = true := by
  rcases h with ⟨hplace, hgroups⟩ | ⟨hlive, hdrained⟩
  · simp [hplace, hgroups]
  · rw [bne_iff_ne.mpr hlive, hdrained, Bool.and_self, Bool.or_true]

include hne hstill in
theorem blocks_still : ¬ (bs.isEmpty || !bs.all (fun x => x.preempt && (s.gangsOf x.uid).all (fun g =>
    (g.place == .none && g.groups.isEmpty) || (g.live != 0 && s.drained g)))) = true := by
  have hall : bs.all (fun x => x.preempt && (s.gangsOf x.uid).all (fun g =>
      (g.place == .none && g.groups.isEmpty) || (g.live != 0 && s.drained g))) = true := by
    refine List.all_eq_true.mpr fun x hx => ?_
    obtain ⟨hpreempt, hgangs⟩ := hstill x hx
    rw [hpreempt, Bool.true_and]
    exact List.all_eq_true.mpr fun g hg => still_gang (hgangs g hg)
  rw [hall]
  simpa using hne

include herrs in
/-- No latched error waits for the hand-over (R209). -/
theorem no_handOver (p : Gang → Bool) : s.gangs.find? (fun g => p g && !g.errs.isEmpty) = none :=
  List.find?_eq_none.mpr fun g hg => by rw [herrs g hg]; simp

include hb hgr hbs hne hstill herrs

/-- A context lost to an uncorrectable error ends its launch (R214; log 51). -/
theorem contextSave_lost (hbad : BadDatum.context b.cluster ∈ s.bad) :
    exec (.contextSave uid) s = .next (s.abortGrid gr.uid (some (lostContext gr b))) := by
  refine congrArg Host.Outcome.next ?_
  rw [hb]
  dsimp only
  rw [hgr, hbs]
  refine (if_neg (blocks_still hne hstill)).trans ?_
  rw [no_handOver herrs]
  exact if_pos (List.contains_iff_mem.mpr hbad)

/-- A save writes the record of every block and suspends them (R212). -/
theorem contextSave_suspends (hgood : BadDatum.context b.cluster ∉ s.bad) (hmiss : ∀ x ∈ bs, s.recordMisses gr x = []) :
    exec (.contextSave uid) s = .next ((bs.foldl (fun s x => s.writeRecord gr x) s).suspend gr bs) := by
  have hmisses : bs.flatMap (fun x => (s.recordMisses gr x).map (fun va => (x.core, va))) = [] :=
    List.flatMap_eq_nil_iff.mpr fun x hx => by rw [hmiss x hx]; rfl
  refine congrArg Host.Outcome.next ?_
  rw [hb]
  dsimp only
  rw [hgr, hbs]
  refine (if_neg (blocks_still hne hstill)).trans ?_
  rw [no_handOver herrs]
  refine (if_neg (mt List.contains_iff_mem.mp hgood)).trans ?_
  rw [hmisses]

end

/-- With no frame lost the suspended blocks keep their cluster's record (R212). -/
theorem suspend_eq {gr : Grid} {bs : List Block} (hframes : s.lostFrames gr.pasid = []) :
    (s.suspend gr bs).gangs = s.gangs.map (fun g => if (bs.map (fun x => x.uid)).contains g.block then g.saved gr.desc.det else g) ∧
    (s.suspend gr bs).blocks = s.blocks.map (fun x => if (bs.map (fun x => x.uid)).contains x.uid then
      { x with stage := .suspended, preempt := false, sliced := false, awaited := gr.desc.det && !x.sliced
               die := dieOf x.core, since := s.now } else x) := by
  unfold State.suspend
  rw [hframes]
  cases bs <;> exact ⟨rfl, rfl⟩

theorem blockRestore_restores {die cl core : Nat} {gr : Grid} {b : Block} (hnext : s.nextUnit die = some (gr, .saved cl, [core]))
    (hready : (s.retranslate gr cl core).1 = true) (hb : ((s.retranslate gr cl core).2.meetClaim gr.uid [core]).rankBlock cl 0 = some b) :
    exec (.blockRestore die) s = .next (((s.retranslate gr cl core).2.meetClaim gr.uid [core]).restoreBlock gr b core) := by
  refine congrArg Host.Outcome.next ?_
  rw [hnext]
  refine (if_pos hready).trans ?_
  simp only [List.headD_cons, List.mapIdx_cons, List.mapIdx_nil, List.foldl_cons, List.foldl_nil]
  rw [hb]

/-! ## Retirement -/

theorem gangRetire_retires {uid : Nat} {g : Gang} {blk : Block} (hg : s.gang? uid = some g) (hblk : s.block? g.block = some blk)
    (hretired : g.retired = false) (hlive : g.live = 0) (hstage : blk.stage = .resident) (hdlist : g.dlist = []) (hops : g.ops = [])
    (harriving : g.arriving = []) (hrecord : s.recordWaits g = false) {carried : List (Nat × Byte)}
    (hcarried : (if s.discards blk then [] else g.galley.bytes) = carried) (hfits : s.grantOverflow blk carried 0 = none) {t : State}
    (ht : (s.applyGrant g.uid 0 blk carried 0).withdrawBars blk g.uid = t) :
    exec (.gangRetire uid) s = .next ((t.guestRecord g 5 0 (t.freeWord 1)).updGang g.uid (fun g =>
      { g with place := .none, groups := [], galley := Galley.empty, guest := none, pull := none })) := by
  have hready : ¬ (g.retired || g.live != 0 || blk.stage != .resident || !g.dlist.isEmpty || !g.ops.isEmpty || !g.arriving.isEmpty ||
      s.recordWaits g) = true := by
    simp [hretired, hlive, hstage, hdlist, hops, harriving, hrecord]
  refine congrArg Host.Outcome.next ?_
  rw [hg]
  dsimp only
  rw [hblk]
  refine (if_neg hready).trans ?_
  rw [hcarried, hfits, ← ht]

theorem blockRetire_retires {uid : Nat} {blk : Block} {cl : Cluster} (hblk : s.block? uid = some blk)
    (hstage : blk.stage = .resident ∨ blk.stage = .suspended) (hgangs : ∀ g ∈ s.gangsOf uid, g.retired = true)
    (hcl : ((s.commitBlock blk).dropBlock blk).cluster? blk.cluster = some cl) :
    exec (.blockRetire uid) s = .next (if cl.blocks.length ≤ 1 then ((s.commitBlock blk).dropBlock blk).commitCluster cl
      else (s.commitBlock blk).dropBlock blk) := by
  have hon : ¬ (blk.stage == .exited || blk.stage == .done) = true := by
    rcases hstage with h | h <;> rw [h] <;> decide
  refine congrArg Host.Outcome.next ?_
  rw [hblk]
  refine (if_neg hon).trans ((if_pos (List.all_eq_true.mpr hgangs)).trans ?_)
  dsimp only
  rw [hcl]

theorem clusterRetire_commits {uid : Nat} {cl : Cluster} (hcl : s.cluster? uid = some cl)
    (hblocks : ∀ b ∈ s.blocksOf uid, b.stage = .exited ∨ b.stage = .done) : exec (.clusterRetire uid) s = .next (s.commitCluster cl) := by
  refine congrArg Host.Outcome.next ?_
  rw [hcl]
  refine if_pos (List.all_eq_true.mpr fun b hb => ?_)
  rcases hblocks b hb with h | h <;> rw [h] <;> rfl

/-- Where no launch of a block is left there is none to end (R188). -/
theorem reapEnded_eq {uid : Nat} (h : ∀ x ∈ s.grids, x.parent ≠ some uid) : s.reapEnded uid = s := by
  have hnone : s.grids.filter (fun x => x.parent == some uid && s.gridDone x) = [] :=
    List.filter_eq_nil_iff.mpr fun x hx => by simp [h x hx]
  rw [State.reapEnded, hnone, List.foldl_nil]

theorem blockCompletionEvent_completes {uid : Nat} {blk : Block} {gr : Grid} (hblk : s.block? uid = some blk)
    (hgr : s.grid? blk.grid = some gr) (hstage : blk.stage = .exited) (hchildren : blk.children = 0)
    (hgrids : ∀ x ∈ s.grids, x.parent ≠ some uid) (hdone : s.clusterDone blk.cluster = true) (hparent : gr.parent = none)
    (hevents : gr.events = 0) : ∃ t, exec (.blockCompletionEvent uid) s = .next t ∧ t.blocks = s.blocks.filter (fun b => b.uid != uid) ∧
      t.grids = s.grids.map (fun x => if x.uid = gr.uid then { gr with retired := gr.retired + 1 } else x) ∧ t.mem = s.mem := by
  have hready : ¬ (blk.stage != .exited || blk.children != 0 || !s.clusterDone blk.cluster) = true := by
    simp [hstage, hchildren, hdone]
  have hevent : s.blockEvent gr blk = .ok s := if_pos (by simp [hevents])
  refine ⟨_, rfl, ?_⟩
  dsimp only
  rw [reapEnded_eq hgrids, hblk]
  dsimp only
  rw [hgr]
  dsimp only
  rw [if_neg hready, hevent]
  dsimp only
  rw [hparent]
  dsimp only
  split <;> exact ⟨rfl, by simp only [State.setGrid, State.dropWaiter, beq_iff_eq], rfl⟩

theorem childLaunch_answers {uid id dst lane : Nat} {g : Gang} {o : Op} {blk : Block} {gr : Grid} {q : Queue} {a : W64}
    {rest : List (Nat × W64)} (hg : s.gang? uid = some g) (ho : g.op? id = some o) (hblk : s.block? g.block = some blk)
    (hgr : g.grid? s = some gr) (hq : s.queue? gr.queue = some q) (hkind : o.kind = .launch dst ((lane, a) :: rest))
    (hdone : o.done = false) (hstarted : o.started = true) (hdue : o.due = none) {x : Nat} {t : State}
    (hans : s.answerChild id gr blk q a = .ok (x, t)) :
    exec (.childLaunch uid id) s = .next ((t.dropWaiter (ioWork 7 id)).updOp uid id (fun o => { o with
      kind := .launch dst rest, done := rest.isEmpty, writes := o.writes ++ [.v dst lane (BitVec.ofNat 32 x)] })) := by
  have hnow : s.childNow uid id = (t.dropWaiter (ioWork 7 id)).updOp uid id (fun o => { o with
      kind := .launch dst rest, done := rest.isEmpty, writes := o.writes ++ [.v dst lane (BitVec.ofNat 32 x)] }) := by
    unfold State.childNow
    rw [hg]
    dsimp only
    rw [ho, hblk, hgr]
    dsimp only
    rw [hkind, hq]
    dsimp only
    rw [hdone, hstarted, hdue]
    refine (if_neg Bool.false_ne_true).trans ?_
    rw [hans]
  refine congrArg Host.Outcome.next ?_
  rw [hg]
  dsimp only
  rw [ho]
  dsimp only
  rw [hdue]
  exact (if_pos rfl).trans hnow

/-- Settles O47, transition by transition. -/
theorem placementTransitions : Obligations.PlacementTransitions := by
  unfold Obligations.PlacementTransitions
  intro s
  refine ⟨fun die gr b n cores => blockPlace_starts, fun die => roomAdvertise_adverts, fun die gr b n => blockPass_passes,
    fun grid gr hg => ⟨fun b => quantumExpiry_preempts hg, quantumExpiry_idle hg⟩,
    fun pasid queue => ⟨_, rfl, rfl, rfl, fun b hb gr => requestPreempt_marks hb⟩, fun uid b gr hb hgr hne hstill herrs => ?_,
    fun die gr cl core b => blockRestore_restores, fun uid g blk hg hblk hretired hlive hstage hdlist hops harriving hrecord hfits =>
      gangRetire_retires hg hblk hretired hlive hstage hdlist hops harriving hrecord rfl hfits rfl,
    fun uid blk cl => blockRetire_retires, fun uid cl => clusterRetire_commits, fun uid blk gr => blockCompletionEvent_completes,
    fun uid g id o blk gr q dst lane a rest hg ho hblk hgr hq hkind hdone hstarted hdue x t =>
      childLaunch_answers hg ho hblk hgr hq hkind hdone hstarted hdue⟩
  exact ⟨contextSave_lost hb hgr rfl hne hstill herrs, fun hgood hmiss =>
    ⟨contextSave_suspends hb hgr rfl hne hstill herrs hgood hmiss, suspend_eq⟩⟩

end Sys2Proof.PlacementSteps
end
